-- ==== Sys2Proof/Word.lean ====
section
/-!
DEFINITION. The plain word types of the model: bytes, 32-bit register words, 64-bit values.
-/
namespace Sys2Proof

/-- One byte, the device's smallest addressable unit (R7). -/
abbrev Byte := BitVec 8

/-- A register is 32 bits wide (R11). -/
abbrev Word := BitVec 32

/-- A doubleword: a 64-bit register, token value or register pair. -/
abbrev DWord := BitVec 64

end Sys2Proof
end

