-- ==== Sys2Proof/Machine/Tab.lean ====
section
/-!
DEFINITION. Sparse tables in one canonical form: a list of key and value pairs, keys strictly rising, no entry equal to
what an unlisted key reads as. Memory, registers and numbered units are held this way.
-/
namespace Sys2Proof.Machine

/-- A sparse table; `dflt k` is what an unlisted key `k` reads as. -/
abbrev Tab (α : Type) := List (Nat × α)

/-- The value of key `k`. -/
def Tab.get {α : Type} (dflt : Nat → α) (t : Tab α) (k : Nat) : α :=
  match t with
  | [] => dflt k
  | (j, v) :: t' => if j = k then v else Tab.get dflt t' k

/-- The table without key `k`. -/
def Tab.del {α : Type} (t : Tab α) (k : Nat) : Tab α := t.filter (fun p => decide (p.1 ≠ k))

/-- The table with a pair put before the first key above it. -/
def Tab.ins {α : Type} (t : Tab α) (k : Nat) (v : α) : Tab α :=
  match t with
  | [] => [(k, v)]
  | (j, w) :: t' => if k < j then (k, v) :: (j, w) :: t' else (j, w) :: Tab.ins t' k v

/-- The table with key `k` at value `v`; an entry equal to the unlisted value is left out. -/
def Tab.put {α : Type} [DecidableEq α] (dflt : Nat → α) (t : Tab α) (k : Nat) (v : α) : Tab α :=
  if v = dflt k then Tab.del t k else Tab.ins (Tab.del t k) k v

/-- Keys strictly rise. -/
def Tab.rising {α : Type} : Tab α → Bool
  | [] => true
  | [_] => true
  | (j, _) :: (k, w) :: t => decide (j < k) && Tab.rising ((k, w) :: t)

/-- The canonical form: keys strictly rising, no entry equal to what an unlisted key reads as. -/
def Tab.wf {α : Type} [DecidableEq α] (dflt : Nat → α) (t : Tab α) : Bool :=
  Tab.rising t && t.all (fun p => decide (p.2 ≠ dflt p.1))

/-- Keys whose value is listed and meets a test, in rising order. -/
def Tab.keys {α : Type} (t : Tab α) (p : α → Bool) : List Nat := (t.filter (fun e => p e.2)).map (·.1)

end Sys2Proof.Machine
end

