-- ==== Sys2Proof/Machine/StateBase.lean ====
section
/-!
DEFINITION. The parts of the machine's state that chapters 2, 3, 5, 10, 11, 13 and 19 of the spec give it: plain data.
-/
namespace Sys2Proof.Machine

/-- The agents that issue accesses and posts, with the numbering of R358. -/
inductive Agent where
  | core (c : Nat)
  | beam (e : Nat)
  | decoder (e : Nat)
  | encoder (e : Nat)
  | xfu (u : Nat)
  | wake (u : Nat)
  | mover (m : Nat)
  | queueMgr
  | smilda
  | fronthaul (p : Nat)
  | cipher (e : Nat)
  | host
  | supervisor
  | goat
  | walk
  deriving DecidableEq, Repr

/-- Power state of a unit (R460). -/
inductive Power where
  | active | nap | doze | off
  deriving DecidableEq, Repr

/-! ### Smilda (spec/02) -/

/-- One edge of a node record (R34). -/
structure Edge where
  dest  : Nat := 0
  slot  : Nat := 0
  valid : Bool := false
  deriving DecidableEq, Repr

/-- A node record (R34): KIND 0 core, 1 engine, 2 mover, 3 timer, 4 external. -/
structure NodeRec where
  kind    : Nat := 0
  isEnd   : Bool := false
  prio    : Nat := 0
  nops    : Nat := 0
  target  : Nat := 0
  auto    : Nat := 0
  param32 : Nat := 0
  param64 : Nat := 0
  edges   : List Edge := []
  deriving DecidableEq, Repr

/-- The three states of an instance slot (R40). -/
inductive Phase where
  | free | live | closing
  deriving DecidableEq, Repr

/-- Promotion state (R53). -/
inductive Promo where
  | none | t1 | t2
  deriving DecidableEq, Repr

/-- An instance slot (R39 to R42); the fields after `fired` hold the final record's content while CLOSING. -/
structure Slot where
  phase    : Phase := .free
  gen      : Nat := 0
  template : Nat := 0
  lastNode : Nat := 0
  nodeBase : Nat := 0
  t1us     : Nat := 0
  t2us     : Nat := 0
  notify   : Nat := 0
  anchor   : Nat := 0
  deadline : Nat := 0
  user     : Nat := 0
  promo    : Promo := .none
  errDup   : Bool := false
  fired    : List Nat := []     -- external nodes that have fired (R63)
  endStatus : Nat := 0
  endCause  : Nat := 0
  endDetail : Nat := 0
  endFail   : Nat := 0
  endTime   : Nat := 0
  deriving DecidableEq, Repr

/-- A matching entry (R46): key, presence mask, operand values, count. -/
structure MEntry where
  inst  : Nat
  gen   : Nat
  node  : Nat
  mask  : Nat := 0
  vals  : Tab Nat := []
  count : Nat := 0
  deriving DecidableEq, Repr

/-- A spilled matching entry with its bucket and place (R48). -/
structure SpillEntry where
  bucket : Nat
  place  : Nat
  ent    : MEntry
  deriving DecidableEq, Repr

/-- What a ready node waits for: a core pool, an engine class or a mover (R52). -/
inductive Target where
  | pool (p : Nat)
  | cls (k : Nat)
  | mover (m : Nat)
  deriving DecidableEq, Repr

/-- A node on a ready list (R52, R53): `entered` orders list entries, `readied` is its original ready order. -/
structure Ready where
  inst    : Nat
  gen     : Nat
  node    : Nat
  target  : Target
  level   : Nat
  entered : Nat
  readied : Nat
  vals    : List Nat
  nrec     : NodeRec
  deriving DecidableEq, Repr

/-- An armed timer (R62). -/
structure Timer where
  inst : Nat
  gen  : Nat
  node : Nat
  fire : Int
  nrec  : NodeRec
  deriving DecidableEq, Repr

/-- A job Smilda posted to an engine (class 0 to 7) or a mover channel (class 8): R60, R61. -/
structure Job where
  inst    : Nat
  gen     : Nat
  node    : Nat
  cls     : Nat
  unit    : Nat
  stage   : Nat
  queue   : Nat
  index   : Option Nat
  started : Bool
  nrec     : NodeRec
  deriving DecidableEq, Repr

/-- Where a token comes from: tokens of one source keep their order (R44). -/
inductive TokSrc where
  | queue (q : Nat)
  | engine (cls unit : Nat)
  | mover (m : Nat)
  | smilda
  | core (c : Nat)
  | edges (c : Nat)
  | tokenQueue (k : Nat)
  deriving DecidableEq, Repr

/-- A token on its way to Smilda (R43). -/
structure InTok where
  src : TokSrc
  tag : Nat
  val : Nat
  deriving DecidableEq, Repr

/-- A completion word on its way to Smilda (R60). -/
structure Cpl where
  cls    : Nat
  unit   : Nat
  stage  : Nat
  word   : Nat
  status : Nat
  deriving DecidableEq, Repr

/-- A cached node record (R37). -/
structure CachedNode where
  template : Nat
  node     : Nat
  nrec      : NodeRec
  deriving DecidableEq, Repr

/-- A core's place in the pools (R64 to R66). -/
structure Member where
  pool    : Option Nat := none
  pending : Option (Option Nat) := none   -- none: nothing pending; some none: WITHDRAW; some p: MOVE to p
  deriving DecidableEq, Repr

structure SmildaState where
  slots    : Tab Slot := []
  store    : List MEntry := []
  spill    : List SpillEntry := []
  ready    : List Ready := []
  order    : Nat := 0
  timers   : List Timer := []
  jobs     : List Job := []
  tokens   : List InTok := []
  cpls     : List Cpl := []
  cache    : List CachedNode := []
  members  : Tab Member := []
  wakeReqs : List Target := []
  cfgErr   : Bool := false
  tplBusy  : Bool := false
  poolRefused : Bool := false
  deriving DecidableEq, Repr

/-! ### Cetik cores (spec/03, spec/04, spec/05) -/

/-- A write that lands at the end of a bundle cycle: of the masked bits of one physical register, where `bank` is true for
the shadow copy of a shadowed register (R80); of flags of CTK_VSAT (R121); of a long-vector group's memory (R135). -/
inductive RegWr where
  | s (bank : Bool) (n : Nat) (v : BitVec 32)
  | p (bank : Bool) (n : Nat) (mask v : BitVec 64)
  | v (n : Nat) (mask v : BitVec 512)
  | a (n : Nat) (mask v : BitVec 1536)
  | vsat (m : BitVec 32)
  | mem (addr : Nat) (bs : List (BitVec 8))
  deriving DecidableEq, Repr

/-- A physical register named by the scoreboard (R87). -/
inductive PhysReg where
  | s (bank : Bool) (n : Nat)
  | p (bank : Bool) (n : Nat)
  | v (n : Nat)
  | a (n : Nat)
  deriving DecidableEq, Repr

/-- An exposed result in flight (R85): `due` bundle cycles are left; `acc` marks an accumulating operation (R125), `lv` a
long-vector group (R135), `fg` an operation issued in the foreground (R103). -/
structure InFlight where
  due : Nat
  wr  : RegWr
  acc : Bool := false
  lv  : Bool := false
  fg  : Bool := true
  deriving DecidableEq, Repr

/-- An imprecise error (R111, R112): `bank` is true for an operation issued in the shadow bank, `store` for a global
store. -/
structure ImpErr where
  cause : Nat
  addr  : Nat
  info  : Nat
  eopc  : Nat
  bank  : Bool := false
  store : Bool := false
  deriving DecidableEq, Repr

/-- A scoreboarded operation outstanding (R87): the registers whose bits it holds and what its response carries. -/
structure Outst where
  regs : List PhysReg
  wrs  : List RegWr
  err  : Option ImpErr := none
  cx   : Bool := false            -- a Level-1 operation of attached unit `unit`
  unit : Nat := 0
  atomic : Bool := false
  bank : Bool := false
  eopc : Nat := 0
  deriving DecidableEq, Repr

/-- A token a held node has buffered (R58). -/
inductive BufTok where
  | emit (edge : Nat) (val : Nat)
  | post (tag : Nat) (val : Nat)
  deriving DecidableEq, Repr

/-- The node a core holds (R55, R58). -/
structure HeldNode where
  inst  : Nat
  gen   : Nat
  node  : Nat
  nrec   : NodeRec
  buf   : List BufTok := []
  excess : Bool := false
  deriving DecidableEq, Repr

/-- A core blocked in TAKE (R55): destination register, order of the wait. -/
structure TakeWait where
  dst   : PhysReg
  since : Nat
  deriving DecidableEq, Repr

structure Core where
  sregs : Tab (BitVec 32) := []       -- key n; 32 + n for the shadow copy of s8 to s31
  pregs : Tab (BitVec 64) := []       -- key n; 8 + n for the shadow copy of p0 to p3
  vregs : Tab (BitVec 512) := []
  aregs : Tab (BitVec 1536) := []
  vri   : BitVec 12 := 0
  pc    : BitVec 16 := 0
  ctl   : Tab (BitVec 32) := []       -- control registers by offset
  cycle : Nat := 0
  cycleHi : BitVec 32 := 0
  dtimeHi : BitVec 32 := 0
  tcmpArmed : Bool := false
  bundle : List (BitVec 32) := []     -- operations of the bundle not yet closed by END
  inflight : List InFlight := []
  outst : List Outst := []
  errs  : List ImpErr := []           -- error responses of posted accesses on their way
  impPend : Option ImpErr := none
  impMulti : Bool := false
  rptNext : Option (Nat × Option Nat) := none   -- a repeat to come: count, and the RPT bundle's address unless RETI resumes
  lv    : Bool := false               -- a long-vector operation is between element groups
  held  : Option HeldNode := none
  take  : Option TakeWait := none
  released : Bool := false
  stopped : Bool := false
  deriving DecidableEq, Repr

/-- A CX0 CRC job (R142 to R155). -/
structure CrcJob where
  core  : Nat
  poly  : Nat
  ones  : Bool
  src   : Nat
  nbits : Nat
  dst   : Nat
  late  : Bool := false     -- a squash came too late (R151)
  gone  : Bool := false     -- the core has been reset since (R151)
  bank  : Bool := false
  eopc  : Nat := 0
  deriving DecidableEq, Repr

/-- A CX3 sort job (R161). -/
structure SortJob where
  core  : Nat
  largest : Bool
  src   : Nat
  count : Nat
  k     : Nat
  dst   : Nat
  late  : Bool := false
  gone  : Bool := false
  bank  : Bool := false
  eopc  : Nat := 0
  deriving DecidableEq, Repr

/-- The attached units of one cluster. -/
structure Attached where
  crc  : Option CrcJob := none
  sort : Option SortJob := none
  deriving DecidableEq, Repr

/-! ### Queues and movers (spec/10) -/

/-- A queue (R301, R302): the loaded table entry and the indices and flags kept on chip. -/
structure Queue where
  enabled : Bool := false
  armed   : Bool := false
  dropped : Bool := false
  dbErr   : Bool := false
  pi      : BitVec 32 := 0
  ci      : BitVec 32 := 0
  ring    : Nat := 0
  log2n   : Nat := 0
  ckind   : Nat := 0
  post    : Bool := false
  stall   : Bool := false
  hostok  : Bool := false
  vmode   : Bool := false
  target  : Nat := 0
  tag     : BitVec 64 := 0
  marked  : List Nat := []      -- indices withdrawn by Smilda (R309)
  deriving DecidableEq, Repr

/-- A post held for a free slot (R305); `job` is set for a job Smilda posted. -/
structure HeldPost where
  agent : Agent
  queue : Nat
  desc  : List (BitVec 8)
  job   : Option (Nat × Nat × Nat)
  since : Nat
  deriving DecidableEq, Repr

structure QueueState where
  queues : Tab Queue := []
  held   : List HeldPost := []
  cached : List Nat := []
  result : Nat := 0
  cfgErr : Bool := false
  msix   : List Nat := []       -- MSI-X vectors raised, oldest first
  deriving DecidableEq, Repr

/-- Mover channel states (R315). -/
inductive ChState where
  | idle | ready | running | pausing | paused
  deriving DecidableEq, Repr

/-- A mover channel (R314, R315). -/
structure Chan where
  st      : ChState := .idle
  smilda  : Bool := false       -- the current job came from Smilda
  pos     : Nat := 0            -- stream bytes transferred
  covPos  : Nat := 0            -- coverage bytes seen
  crc     : Nat := 0            -- partial CRC or sum
  tail    : List (BitVec 8) := []   -- last coverage bytes, for CHECK
  ending  : Option (Nat × Option Nat) := none   -- status and failing address that end the job
  start   : Nat := 0            -- raw count at which the channel last became RUNNING
  pauseLate : Bool := false
  abortLate : Bool := false
  dlen    : Nat := 0            -- DESC_LEN of the job
  badEntry : Bool := false      -- failed at the entry or descriptor read
  deriving DecidableEq, Repr

structure Mover where
  chans : Tab Chan := []
  last  : Nat := 15
  deriving DecidableEq, Repr

/-! ### Engines (spec/06 to spec/09) -/

/-- A job that an engine has started (R165, R166, R578): `status` is decided when the job has nothing left to do. -/
structure EJob where
  smilda  : Option Nat := none      -- staging entry of a Smilda job
  ref     : Nat := 0
  bytes   : List (BitVec 8) := []   -- descriptor
  noRec   : Bool := false           -- failed at steps 1 to 4 of R578: posts no record
  status  : Option (Nat × Option Nat) := none   -- status and failing address
  aborting : Bool := false          -- a codec job that ABORT has named (R235)
  step    : Nat := 0                -- steps, code blocks or symbols done
  pos     : Nat := 0                -- CUR_POS of the running step
  start   : Nat := 0                -- raw count at which the job became running
  cap     : Nat := 0                -- cap in force, 0 before it is fixed; of a generator job, its place in the order of ending
  sat     : Bool := false
  notPd   : Bool := false
  capped  : Bool := false
  crcFail : Bool := false
  erased  : Bool := false
  failed  : Nat := 0                -- groups flagged NOT_PD, or code blocks that passed
  sweeps  : Nat := 0                -- sweeps or iterations
  smax    : Nat := 0
  metric  : Nat := 0
  gstat   : Tab Nat := []           -- group status bytes; of a generator job, antenna weights
  bins    : List Int := []          -- extracted PRACH bins, real and imaginary parts in turn; a generator's chips
  chip    : Nat := 0                -- generator: active symbols written
  deriving DecidableEq, Repr

/-- An engine: the running job, the started job behind it, and the contexts of a generator (R166, R273). -/
structure Engine where
  run  : Option EJob := none
  held : Option EJob := none
  ctx  : Tab (Option EJob) := []
  deriving DecidableEq, Repr

/-! ### Burst receivers (spec/09) -/

/-- A reception of a burst receiver (R286 to R289); times in ns. -/
structure Recep where
  tau   : Rat := 0           -- start of the first preamble chip
  chip  : Rat := 1           -- tracked chip duration
  level : Rat := 0           -- dB
  contrast : Option Rat := none   -- dB; none where mu0 is 0
  mid   : Rat := 0           -- (mu1 + mu0) / 2
  bits  : List Bool := []
  erased : Nat := 0
  passed : Bool := false     -- header check passed
  deriving DecidableEq, Repr

/-- A listen job (R274, R284 to R290). -/
structure Listen where
  bytes : List (BitVec 8) := []
  sym   : Nat := 0                  -- next symbol
  ended : Option Nat := none        -- JOB_END status once search has stopped
  endTime : Nat := 0
  env   : List (Rat × Rat) := []    -- envelope samples: time, value
  hyp   : Nat := 0                  -- timing hypotheses examined, a quarter chip apart
  cur   : Option Recep := none
  lane2 : Option Recep := none
  deriving DecidableEq, Repr

structure Receiver4 where
  ctx : Tab (Option Listen) := []
  deriving DecidableEq, Repr

/-! ### Fronthaul (spec/12) -/

/-- A MACsec association: key, suite, and the next packet number (transmit) or the highest received plus 1 (R393, R395). -/
structure Sa where
  key  : List (BitVec 8) := []
  xpn  : Bool := false
  ssci : BitVec 32 := 0
  salt : List (BitVec 8) := []
  pn   : Nat := 1
  deriving DecidableEq, Repr

/-- A receive secure channel (R393). -/
structure RxSc where
  sci    : BitVec 64
  window : Nat
  sas    : Tab (Option Sa)
  deriving DecidableEq, Repr

/-- A fronthaul port's link, power and MACsec state; port 8 is the management port (R372 to R374, R393). -/
structure FhPort where
  align : Bool := false
  lock  : Bool := false
  fault : Bool := false
  off   : Bool := false
  txSci : BitVec 64 := 0
  txAn  : Nat := 0
  txSas : Tab (Option Sa) := []
  rxScs : List RxSc := []
  clear : Bool := false        -- integrity-only mode
  ingress : List (Nat × List (BitVec 8)) := []   -- frames held in the ingress buffer, with their timestamps (R381)
  deriving DecidableEq, Repr

/-- An arrival whose placed bytes have been written and whose descriptor is to be posted (R381, R382). -/
structure Arrival where
  port  : Nat
  queue : Nat
  desc  : List (BitVec 8)
  deriving DecidableEq, Repr

/-- A frame that left a port (R390). -/
structure SentFrame where
  port  : Nat
  time  : Nat
  bytes : List (BitVec 8)
  deriving DecidableEq, Repr

structure FhnState where
  ports    : Tab FhPort := []
  heads    : Tab (Option (List (BitVec 8))) := []   -- head of each launch queue (R387)
  arrivals : List Arrival := []
  seqRef   : Tab (Option Nat) := []                 -- last ecpriSeqid per placement entry (R385)
  seqTx    : Tab (BitVec 8) := []                   -- transmit sequence table (R392)
  sent     : List SentFrame := []
  toSup    : List SentFrame := []                   -- frames taken out for Supervisor, with timestamps (R379, R396)
  pnSet    : List Nat := []                         -- ports whose P 0x30.0021 has been written (R395)
  deriving DecidableEq, Repr

/-! ### Cipher engines (spec/14) -/

/-- A key slot (R439, R441): `st` 0 EMPTY, 1 LOADED, 2 EXHAUSTED; `badPar` is a failing parity bit of the key store (R445). -/
structure KeySlot where
  st     : Nat := 0
  ktype  : Nat := 0
  hwctr  : Bool := false
  key    : List (BitVec 8) := []
  fixed  : BitVec 32 := 0
  next   : BitVec 64 := 0
  limit  : BitVec 64 := 0
  badPar : Bool := false
  deriving DecidableEq, Repr

/-- A running cipher job (R431, R440): its path, the latched key, and what it has done. -/
structure CJob where
  page   : Option Nat := none       -- page-path job: the page it was submitted through
  smilda : Option Nat := none       -- Smilda-path job: its staging entry
  bytes  : List (BitVec 8) := []
  slot   : Option Nat := none       -- latched slot
  key    : List (BitVec 8) := []
  fixed  : BitVec 32 := 0
  ctr    : Option Nat := none       -- counter value reserved
  status : Option (Nat × Option Nat) := none
  step   : Nat := 0
  wrote  : Nat := 0                 -- OUT bytes written
  tag    : List (BitVec 8) := []    -- pass 1's tag, or the tag to be written
  authFail : Bool := false
  deriving DecidableEq, Repr

/-- A cipher engine: lite 0 to 7, bulk 8 to 11 (R431, R448). -/
structure CEng where
  run      : Option CJob := none
  lastPage : Nat := 63
  faults   : List Nat := []         -- raw counts of the faults recorded
  stopped  : Bool := false
  nFault   : Nat := 0               -- P 0x70.0020
  nDiscard : Nat := 0               -- P 0x70.0021
  deriving DecidableEq, Repr

/-- A user page's submission FIFO and what the dictionary counts for it (R431, R432, R454). -/
structure CPage where
  fifo    : List Nat := []
  refused : Bool := false
  denied  : Nat := 0                -- P 0x70.0022
  deriving DecidableEq, Repr

structure CphState where
  slots : Tab KeySlot := []
  engs  : Tab CEng := []
  pages : Tab CPage := []
  deriving DecidableEq, Repr

/-! ### Memory (spec/11) -/

/-- One octet in the combining buffer (R350). -/
structure CombEntry where
  octet : Nat
  bytes : Tab (Option (BitVec 8))
  since : Nat
  req   : Nat
  deriving DecidableEq, Repr

/-- A check line in the check-line cache (R351). -/
structure ClcLine where
  octet : Nat
  dirty : Bool
  deriving DecidableEq, Repr

/-- An event of the error log (R358). -/
structure LogEvent where
  time   : Nat
  addr   : Nat
  kind   : Nat
  source : Nat
  memory : Nat
  nflag  : Nat
  colmap : Nat
  req    : Nat
  unit   : Nat
  deriving DecidableEq, Repr

structure MemState where
  data    : Tab (BitVec 8) := []     -- stored bytes; an unlisted byte is 0
  badPar  : Tab (BitVec 64) := []    -- by line: data bytes stored with a failing parity bit
  syn     : Tab (BitVec 512) := []   -- by group: XOR of the nine units by byte column
  chkBad  : Tab (BitVec 64) := []    -- by group: check-unit bytes stored with a failing parity bit
  sig     : Tab (BitVec 64) := []    -- retention signatures S[b]
  sigSaved : Tab (BitVec 64) := []   -- copies in the always-on domain
  comb    : List CombEntry := []
  clc     : List ClcLine := []
  srcBuf  : List (Nat × LogEvent) := []
  rrLast  : Nat := 0
  filter  : List Nat := []
  retire  : Tab (BitVec 64) := []
  filled  : Bool := false
  fillBusy : Bool := false
  ddrKept : Bool := false
  goatSram : Nat := 0
  deriving DecidableEq, Repr

/-! ### Time unit (spec/13) -/

/-- Time states (R405). -/
inductive TState where
  | freeRun | acquiring | locked | holdover | expired | coarse
  deriving DecidableEq, Repr

/-- A TDD event table (R423); events are 64-bit values in the layout of TMU_TDD_EV. -/
structure TddTab where
  period : Nat := 0
  init   : BitVec 16 := 0
  nev    : Nat := 0
  adv    : List Int := []
  evs    : List (BitVec 64) := []
  deriving DecidableEq, Repr

structure TimeState where
  raw     : Nat := 0
  base    : Nat := 0          -- ns with 32 fractional bits, 96 bits
  cbase   : Nat := 0
  inc     : Nat := 0          -- ns with 32 fractional bits
  state   : TState := .freeRun
  integ   : Rat := 0          -- I, ppb
  freq    : Rat := 0          -- y, ppb
  lockRun : Nat := 0          -- consecutive measurements within the lock threshold
  unlockRun : Nat := 0
  stepPending : Bool := false
  stepHeld : Int := 0         -- ns
  stepGen : Nat := 0
  lastOfs : Int := 0          -- units of 2^-16 ns
  measOfs : Nat := 0
  lastMeas : Nat := 0         -- raw count of the last measurement
  holdRaw : Nat := 0          -- raw counts spent in HOLDOVER
  rtc     : Nat := 0
  rtcPhase : Nat := 0         -- REFCLK cycles x 32768 not yet counted as RTC ticks
  rtcRate : Int := 0          -- 1/256 ppb
  rtcValid : Bool := false
  refclk  : Bool := true
  lossC   : Nat := 0
  lossR   : Nat := 0
  ppsTs   : Nat := 0
  lastPpsIn : Nat := 0        -- raw count of the last PPS_IN edge
  fracLatch : BitVec 32 := 0
  tddArmed : Option TddTab := none   -- committed, not yet in effect (R424)
  tddCommit : Int := 0        -- frame at which it takes effect
  tddAct  : TddTab := {}
  tddFollow : BitVec 16 := 0  -- outputs that follow the table (R425)
  tddOut  : BitVec 16 := 0    -- TDD_CTL
  ppsHigh : Bool := false
  ppsRaw  : Nat := 0          -- raw count at which PPS_OUT rose
  ppsMissed : Bool := false   -- PPS_IN_MISSING has been set for the present absence
  deriving DecidableEq, Repr

/-! ### Observation (spec/19) -/

/-- A trace record (R540). -/
structure TraceRec where
  time : Nat
  kind : Nat
  unit : Nat
  data : Nat
  deriving DecidableEq, Repr

/-- A fault record (R544). -/
structure FaultRec where
  time : Nat
  seq  : Nat
  sev  : Nat
  code : Nat
  cls  : Nat
  num  : Nat
  rep  : Nat
  detail : Nat
  acked : Bool := false
  deriving DecidableEq, Repr

/-- A fatal error raised and not yet handled by the dump routine (R545, R547). -/
structure FatalEvent where
  code : Nat
  cls  : Nat
  num  : Nat
  detail : Nat
  deriving DecidableEq, Repr

structure ObsState where
  fatal   : List FatalEvent := []
  fifo    : List TraceRec := []
  traced  : Nat := 0          -- records placed since trace start
  lost    : Nat := 0          -- records lost since the last OVERFLOW record
  full    : Bool := false
  faults  : List FaultRec := []   -- records kept, oldest first
  faultSeq : Nat := 0
  snap    : Tab (BitVec 64) := []
  snapTime : Nat := 0
  cnt     : Tab (BitVec 64) := []  -- counts kept in the observation fabric, by counter index (R538, R539)
  saved   : Tab (BitVec 64) := []  -- counts added on entry to Off (R461), by counter index
  tracePort : List TraceRec := []  -- records sent to the trace port, oldest first
  dump    : Nat := 0          -- P 0xA0.0021: 0 none, 1 DDR5, 2 DDR5 and flash, 3 flash only (R548)
  copying : Bool := false     -- the flash copy of the dump runs (R547)
  dumpLen : Nat := 0          -- LENGTH of the dump
  deriving DecidableEq, Repr

end Sys2Proof.Machine
end

