-- ==== Sys2Proof/Syntax.lean ====
section
/-!
DEFINITION. The commands of the block, one constructor for each row of spec/opcode_table.json, with their operands. What the
outside world supplies (a frame's bytes, a pin's level, whether a check fails) stands in the operands. A unit is named by its
number; a Cetik operation by its core and its 32-bit word. Constructors without operands stand last, which only Lean's compiler asks for.
-/
namespace Sys2Proof
open Machine

/-- The commands. Machine/Dispatch.lean maps each to its meaning, whose comment names its row and rule. -/
inductive Instr where
  | registerWrite (sender : Agent) (addr : BitVec 40) (data : List Byte)
  | tokenAccept (src : TokSrc)
  | completionWord (cls : Fin 9) (num : Fin 32)
  | timerFire (inst : Fin 2048) (node : BitVec 16)
  | smdCancel (value : BitVec 32)
  | smdTplInval (value : BitVec 32)
  | add (core : BitVec 8) (pool : Fin 32)
  | withdraw (core : BitVec 8)
  | move (core : BitVec 8) (pool : Fin 32)
  | unitInt (source : Fin 148)
  | alu (core : Fin 192) (word : BitVec 32)
  | addi (core : Fin 192) (word : BitVec 32)
  | andi (core : Fin 192) (word : BitVec 32)
  | ori (core : Fin 192) (word : BitVec 32)
  | xori (core : Fin 192) (word : BitVec 32)
  | shi (core : Fin 192) (word : BitVec 32)
  | mul (core : Fin 192) (word : BitVec 32)
  | cmp (core : Fin 192) (word : BitVec 32)
  | plog (core : Fin 192) (word : BitVec 32)
  | mvsp (core : Fin 192) (word : BitVec 32)
  | mvps (core : Fin 192) (word : BitVec 32)
  | movw (core : Fin 192) (word : BitVec 32)
  | nop (core : Fin 192) (word : BitVec 32)
  | localLoad (core : Fin 192) (word : BitVec 32)
  | localLoadPi (core : Fin 192) (word : BitVec 32)
  | localStore (core : Fin 192) (word : BitVec 32)
  | localStorePi (core : Fin 192) (word : BitVec 32)
  | ldgw (core : Fin 192) (word : BitVec 32)
  | ldgd (core : Fin 192) (word : BitVec 32)
  | stgw (core : Fin 192) (word : BitVec 32)
  | stgd (core : Fin 192) (word : BitVec 32)
  | aadd (core : Fin 192) (word : BitVec 32)
  | br (core : Fin 192) (word : BitVec 32)
  | call (core : Fin 192) (word : BitVec 32)
  | jr (core : Fin 192) (word : BitVec 32)
  | rpt (core : Fin 192) (word : BitVec 32)
  | rptr (core : Fin 192) (word : BitVec 32)
  | take (core : Fin 192) (word : BitVec 32)
  | emit (core : Fin 192) (word : BitVec 32)
  | post (core : Fin 192) (word : BitVec 32)
  | mfc (core : Fin 192) (word : BitVec 32)
  | mtc (core : Fin 192) (word : BitVec 32)
  | reti (core : Fin 192) (word : BitVec 32)
  | trap (core : Fin 192) (word : BitVec 32)
  | fence (core : Fin 192) (word : BitVec 32)
  | fenceI (core : Fin 192) (word : BitVec 32)
  | ien (core : Fin 192) (word : BitVec 32)
  | exposedResult (core : Fin 192)
  | scoreboardResult (core : Fin 192) (index : BitVec 8)
  | impreciseException (core : Fin 192) (index : BitVec 8)
  | interruptAccept (core : Fin 192)
  | timer (core : Fin 192)
  | supervisorInterrupt (core : Fin 192)
  | vadd (core : Fin 192) (word : BitVec 32)
  | vadds (core : Fin 192) (word : BitVec 32)
  | vsub (core : Fin 192) (word : BitVec 32)
  | vsubs (core : Fin 192) (word : BitVec 32)
  | vlog (core : Fin 192) (word : BitVec 32)
  | vshl (core : Fin 192) (word : BitVec 32)
  | vshr (core : Fin 192) (word : BitVec 32)
  | vsar (core : Fin 192) (word : BitVec 32)
  | vsarr (core : Fin 192) (word : BitVec 32)
  | vmin (core : Fin 192) (word : BitVec 32)
  | vmax (core : Fin 192) (word : BitVec 32)
  | vabs (core : Fin 192) (word : BitVec 32)
  | vcls (core : Fin 192) (word : BitVec 32)
  | vcmp (core : Fin 192) (word : BitVec 32)
  | vsel (core : Fin 192) (word : BitVec 32)
  | vmulq (core : Fin 192) (word : BitVec 32)
  | vcmul (core : Fin 192) (word : BitVec 32)
  | vcmag (core : Fin 192) (word : BitVec 32)
  | vmulw (core : Fin 192) (word : BitVec 32)
  | vdot2 (core : Fin 192) (word : BitVec 32)
  | vdot4 (core : Fin 192) (word : BitVec 32)
  | vcmac (core : Fin 192) (word : BitVec 32)
  | vcmacb (core : Fin 192) (word : BitVec 32)
  | vcmacbj (core : Fin 192) (word : BitVec 32)
  | vacrd (core : Fin 192) (word : BitVec 32)
  | vld (core : Fin 192) (word : BitVec 32)
  | vldPi (core : Fin 192) (word : BitVec 32)
  | vst (core : Fin 192) (word : BitVec 32)
  | vstPi (core : Fin 192) (word : BitVec 32)
  | vldg (core : Fin 192) (word : BitVec 32)
  | vstg (core : Fin 192) (word : BitVec 32)
  | vgath (core : Fin 192) (word : BitVec 32)
  | vscat (core : Fin 192) (word : BitVec 32)
  | vacsv (core : Fin 192) (word : BitVec 32)
  | vacld (core : Fin 192) (word : BitVec 32)
  | vbcast (core : Fin 192) (word : BitVec 32)
  | vext (core : Fin 192) (word : BitVec 32)
  | vins (core : Fin 192) (word : BitVec 32)
  | vperm (core : Fin 192) (word : BitVec 32)
  | vsplit (core : Fin 192) (word : BitVec 32)
  | vslide (core : Fin 192) (word : BitVec 32)
  | lv (core : Fin 192) (word : BitVec 32)
  | crcStartZero (core : Fin 192) (word : BitVec 32)
  | crcStartOnes (core : Fin 192) (word : BitVec 32)
  | test (core : Fin 192) (word : BitVec 32)
  | kill (core : Fin 192) (word : BitVec 32)
  | inv (core : Fin 192) (word : BitVec 32)
  | invh (core : Fin 192) (word : BitVec 32)
  | demap (core : Fin 192) (word : BitVec 32)
  | topkLargest (core : Fin 192) (word : BitVec 32)
  | topkSmallest (core : Fin 192) (word : BitVec 32)
  | level1Result (core : Fin 192) (demapper : Bool) (fault : Bool)
  | level0JobEnd (cluster : Fin 24) (sorter : Bool) (fault : Bool)
  | handover (queue : Fin 262144)
  | gram (num : Fin 12) (fault : Bool)
  | chol (num : Fin 12) (fault : Bool)
  | solve (num : Fin 12) (fault : Bool)
  | apply (num : Fin 12) (fault : Bool)
  | detect (num : Fin 12) (fault : Bool)
  | eq1 (num : Fin 12) (fault : Bool)
  | eqm (num : Fin 12) (fault : Bool)
  | beamCompletion (num : Fin 12)
  | benAbort (num : Fin 12)
  | benEnable (num : Fin 12) (on : Bool)
  | ldpcDecode (num : Fin 12) (fault : Bool)
  | turboDecode (num : Fin 12) (fault : Bool)
  | ldpcEncode (num : Fin 4) (fault : Bool)
  | turboEncode (num : Fin 4) (fault : Bool)
  | polarEncode (fault : Bool)
  | polarDecode (fault : Bool)
  | reedMullerEncode (fault : Bool)
  | reedMullerDecode (fault : Bool)
  | convolutionalEncode (fault : Bool)
  | convolutionalDecode (fault : Bool)
  | smallBlockEncode (fault : Bool)
  | smallBlockDecode (fault : Bool)
  | codingCompletion (encoder : Bool) (num : Fin 12)
  | fecAbort (fec : Fin 17)
  | fecEnable (fec : Fin 17) (on : Bool)
  | fft (num : Fin 8) (fault : Bool)
  | ifft (num : Fin 8) (fault : Bool)
  | prach (num : Fin 8) (fault : Bool)
  | srs (num : Fin 8) (fault : Bool)
  | resample (num : Fin 8) (fault : Bool)
  | transformCompletion (num : Fin 8)
  | xfuAbort (num : Fin 8)
  | xfuEnable (num : Fin 8) (on : Bool)
  | frame (gen : Fin 4) (ctx : Fin 12) (fault : Bool)
  | frameAndCwTail (gen : Fin 4) (ctx : Fin 12) (fault : Bool)
  | cwOnly (gen : Fin 4) (ctx : Fin 12) (fault : Bool)
  | generatorCompletion (gen : Fin 4)
  | wbuGAbort (gen : Fin 4)
  | wbuGEnable (gen : Fin 4) (on : Bool)
  | symbolRead (recv : Fin 4) (ctx : Fin 12) (fault : Bool)
  | wbuRStop (recv : Fin 4) (value : BitVec 32)
  | wbuREnable (recv : Fin 4) (on : Bool)
  | load (queue : Fin 262144)
  | disable (queue : Fin 262144)
  | bind (queue : Fin 262144)
  | clear (queue : Fin 262144)
  | queuePost (sender : Agent) (queue : Fin 262144) (desc : BitVec 256)
  | qmgPost (core : Fin 192) (data : BitVec 512)
  | hostPost (queue : Fin 262144) (long : Bool) (data : BitVec 512)
  | stalledPost (queue : Fin 262144)
  | producerDoorbell (queue : Fin 262144) (byHost : Bool) (value : BitVec 32)
  | consumerDoorbell (queue : Fin 262144) (byHost : Bool) (value : BitVec 32)
  | qmgEnable (on : Bool)
  | channelChosen (num : Fin 32)
  | moverBurst (num : Fin 32) (fault : Bool)
  | moverCompletion (num : Fin 32)
  | pause (num : Fin 32) (chan : Fin 16)
  | channelPaused (num : Fin 32) (chan : Fin 16)
  | resume (num : Fin 32) (chan : Fin 16)
  | abort (num : Fin 32) (chan : Fin 16) (responded : Bool)
  | bmvEnable (num : Fin 32) (on : Bool)
  | memoryRead (sender : Agent) (addr : BitVec 40) (len : Fin 257)
  | memoryWrite (sender : Agent) (addr : BitVec 40) (data : List Byte)
  | goat (ddr : Bool)
  | memLogCi (sender : Agent) (value : BitVec 32)
  | memRetireEntry (entry : Fin 256) (value : BitVec 64)
  | memPoolRetire (value : BitVec 32)
  | memClusterRetire (value : BitVec 32)
  | frameReceive (port : Fin 8) (raw : List Byte) (corrected : BitVec 16) (uncorrectable : Bool)
  | arrivalDescriptor (port : Fin 8)
  | linkChange (port : Fin 9) (align : Bool) (lock : Bool) (remote : Bool)
  | launch (port : Fin 8)
  | saInstall (port : Fin 8) (tx : Bool) (sci : BitVec 64) (window : BitVec 32) (an : Fin 4) (key : BitVec 256) (xpn :
    Bool) (ssci : BitVec 32) (salt : BitVec 96) (clear : Bool)
  | fhnEnable (on : Bool)
  | tmuMeasCtl (value : BitVec 32)
  | ppsIn (sub : BitVec 8)
  | rtcRateWindow (cycles : BitVec 40)
  | cphSubmit (sender : Agent) (page : Fin 64) (addr : BitVec 40)
  | cipherTake (num : Fin 12)
  | aesCtr (num : Fin 12) (fault : Bool)
  | aesGcm (num : Fin 12) (fault : Bool)
  | aesCmac (num : Fin 12) (fault : Bool)
  | nea1 (num : Fin 12) (fault : Bool)
  | nia1 (num : Fin 12) (fault : Bool)
  | nea2 (num : Fin 12) (fault : Bool)
  | nia2 (num : Fin 12) (fault : Bool)
  | nea3 (num : Fin 12) (fault : Bool)
  | nia3 (num : Fin 12) (fault : Bool)
  | cipherCompletion (num : Fin 12)
  | keyLoad (sender : Agent) (page : Fin 64) (ktype : Fin 4) (hwctr : Bool)
  | zeroise (sender : Agent) (page : Fin 64)
  | enterService (lean : Bool)
  | leanFullSwitch (lean : Bool)
  | dormantWake (ddrKept : Bool) (regFault : Bool)
  | autoLean (busy : BitVec 64) (all : BitVec 64)
  | nap (index : Fin 576) (idleNs : BitVec 32)
  | napWake (index : Fin 576)
  | dozeEntry (index : Fin 576)
  | dozeWake (index : Fin 576)
  | sensorRead (temps : List Int) (volts : List Nat)
  | pmbusTelemetry (bad : BitVec 8)
  | avsReadback (mv : BitVec 16)
  | calibrationStep (target : Fin 37) (margins : List (Nat × Nat × Nat))
  | forcedStep (target : Fin 37) (margins : List (Nat × Nat × Nat))
  | trimRequest (mask : BitVec 32)
  | sessionOpen (source : BitVec 64) (msg : List Byte)
  | sessionAuth (source : BitVec 64) (msg : List Byte)
  | sessionClose (source : BitVec 64) (msg : List Byte)
  | keepalive (source : BitVec 64) (msg : List Byte)
  | get (source : BitVec 64) (msg : List Byte)
  | set (source : BitVec 64) (msg : List Byte)
  | command (source : BitVec 64) (msg : List Byte)
  | describe (source : BitVec 64) (msg : List Byte)
  | list (source : BitVec 64) (msg : List Byte)
  | supMbDoorbell (value : BitVec 32)
  | supMbNotifyCi (value : BitVec 32)
  | bar4Access (offset : BitVec 36) (write : Bool) (len : Fin 257) (data : List Byte)
  | profileLoad (slot : BitVec 8)
  | porstNRelease (profile : Fin 4) (bootMode : Fin 8) (refsel : Bool)
  | open (session : BitVec 32) (target : BitVec 8) (flashFault : Bool)
  | chunk (session : BitVec 32) (data : List Byte) (flashFault : Bool)
  | copy (session : BitVec 32) (data : BitVec 128) (flashFault : Bool)
  | finish (session : BitVec 32) (flashFault : Bool)
  | verify (session : BitVec 32)
  | activate (session : BitVec 32) (time : BitVec 80) (flashFault : Bool)
  | close (session : BitVec 32)
  | cancel (session : BitVec 32)
  | confirm (session : BitVec 32)
  | reject (session : BitVec 32)
  | enroll (session : BitVec 32) (key : List Byte)
  | acknowledge (seq : BitVec 32)
  | fabricTimeout (requester : Agent) (addr : BitVec 40)
  | pllNoLock (pll : BitVec 8)
  | bypass (trst : Bool) (tdi : BitVec 32)
  | idcode (trst : Bool)
  | samplePreload (trst : Bool) (levels : BitVec 128) (tdi : BitVec 128)
  | extest (trst : Bool) (levels : BitVec 128) (tdi : BitVec 128)
  | gpioSample (levels : BitVec 32)
  | instanceCreate
  | dispatchCommit
  | sweep
  | smildaEnable
  | smildaDisable
  | clrHwm
  | codecCompletion
  | octetFlush
  | logEntry
  | fill
  | ruleCommit
  | txGated
  | ppsInMissing
  | measTimeout
  | holdLimitExpiry
  | acceptStep
  | refclkLoss
  | refclkReturn
  | ppsOut
  | ppsOutEnd
  | tddEvent
  | tddCommit
  | tddTakeEffect
  | leaveService
  | dormantEntry
  | enterMaintenance
  | leaveMaintenance
  | wakeN
  | rtcAlarm
  | runInterval
  | sessionTimeout
  | blockExpiry
  | pciePerstN
  | bootStandby
  | scheduledActivation
  | windowMissed
  | fallBack
  | obsSnap
  | traceBatch
  | forced
  | supWatchdog
  | fatalError
  | dumpFlashCopy
  | dumpRelease
  | restart
  | porstNAssertion
  | sysrstNAssertion
  | sysrstNRelease
  | pciePerstNRelease
  | wakeNPulseEnd
  deriving DecidableEq, Repr

end Sys2Proof
end

