-- ==== Sys2Proof/Decode.lean ====
section
/-!
DEFINITION. Words that spell commands. spec/opcode_table.json gives no row any bits, so no word spells one.
-/
namespace Sys2Proof

/-- The command that a word of `nbits` bits spells by the table: none, since the table gives no row bits. -/
def decodeTableWord (_nbits _w : Nat) : Option Instr := none

end Sys2Proof
end

