-- ==== Sys2Proof/Machine/Bits.lean ====
section
/-!
DEFINITION. Bit fields, little-endian byte strings and small arithmetic shared by every unit (R7, Pseudocode
conventions of spec/00).
-/
namespace Sys2Proof.Machine

/-- The field `[hi:lo]` of a number, as a number. -/
def fld (x hi lo : Nat) : Nat := (x >>> lo) % 2 ^ (hi + 1 - lo)

/-- Bit `n` of a number. -/
def bit (x n : Nat) : Bool := x.testBit n

/-- A Boolean as the number 0 or 1. -/
def b2n (b : Bool) : Nat := if b then 1 else 0

/-- The number held by bytes in little-endian order (R7). -/
def leNat : List Byte → Nat
  | [] => 0
  | b :: bs => b.toNat + 256 * leNat bs

/-- The `n` low bytes of a number in little-endian order (R7). -/
def leBytes : Nat → Nat → List Byte
  | 0, _ => []
  | n + 1, v => BitVec.ofNat 8 v :: leBytes n (v / 256)

/-- The number held by bytes in network order (R7). -/
def beNat (bs : List Byte) : Nat := leNat bs.reverse

/-- The `n` low bytes of a number in network order. -/
def beBytes (n v : Nat) : List Byte := (leBytes n v).reverse

/-- Bytes `off` to `off + len - 1` of a byte string as a little-endian number; absent bytes read 0. -/
def leAt (bs : List Byte) (off len : Nat) : Nat := leNat ((bs.drop off).take len)

/-- Bytes `off` to `off + v.length - 1` of a byte string replaced by `v`, within its length. -/
def spliceAt (bs : List Byte) (off : Nat) (v : List Byte) : List Byte :=
  (bs.take off ++ v ++ bs.drop (off + v.length)).take bs.length

/-- `n` zero bytes. -/
def zeros (n : Nat) : List Byte := List.replicate n 0

/-- A byte string brought to `n` bytes by cutting or by zero bytes. -/
def padTo (n : Nat) (bs : List Byte) : List Byte := (bs ++ zeros (n - bs.length)).take n

/-- Two's-complement reading of the `w` low bits. -/
def toSigned (w x : Nat) : Int :=
  let v := x % 2 ^ w
  if v < 2 ^ (w - 1) then (v : Int) else (v : Int) - (2 ^ w : Nat)

/-- The `w`-bit two's-complement pattern of an integer. -/
def ofSigned (w : Nat) (i : Int) : Nat := (i % ((2 ^ w : Nat) : Int)).toNat

/-- Saturation to a signed range of `w` bits. -/
def satS (w : Nat) (i : Int) : Int :=
  let hi : Int := ((2 ^ (w - 1) : Nat) : Int) - 1
  let lo : Int := -((2 ^ (w - 1) : Nat) : Int)
  if i > hi then hi else if i < lo then lo else i

/-- Saturation to an unsigned range of `w` bits. -/
def satU (w n : Nat) : Nat := min n (2 ^ w - 1)

/-- Least multiple of `m` not below `n`, divided by `m`. -/
def ceilDiv (n m : Nat) : Nat := (n + m - 1) / m

/-- XOR of the bits of a number's `w` low bits. -/
def parityN (w x : Nat) : Bool :=
  (List.range w).foldl (fun acc i => xor acc (x.testBit i)) false

/-- Number of one bits among the `w` low bits. -/
def popcount (w x : Nat) : Nat :=
  (List.range w).foldl (fun acc i => acc + b2n (x.testBit i)) 0

/-- Integer square root rounded down, by `fuel` bisection steps over `lo ≤ root < hi`. -/
def isqrtGo : Nat → Nat → Nat → Nat → Nat
  | 0, _, lo, _ => lo
  | f + 1, n, lo, hi =>
    if hi ≤ lo + 1 then lo
    else
      let m := (lo + hi) / 2
      if m * m ≤ n then isqrtGo f n m hi else isqrtGo f n lo m

/-- Integer square root rounded down. -/
def isqrt (n : Nat) : Nat := isqrtGo (n.log2 + 3) n 0 (n + 1)

/-- Floor of the base-2 logarithm; 0 for 0. -/
def log2N (n : Nat) : Nat := n.log2

/-- First element of a list that meets a test, with the list without it. -/
def takeFirst {α : Type} (p : α → Bool) : List α → Option (α × List α)
  | [] => none
  | x :: xs =>
    if p x then some (x, xs)
    else match takeFirst p xs with
      | none => none
      | some (y, ys) => some (y, x :: ys)

/-- The element with the least key, earliest in the list on ties. -/
def minBy {α : Type} (key : α → Nat) : List α → Option α
  | [] => none
  | x :: xs =>
    match minBy key xs with
    | none => some x
    | some y => if key y < key x then some y else some x

/-- Set a position of a list; nothing outside it. -/
def setAt {α : Type} (l : List α) (i : Nat) (v : α) : List α := l.set i v

end Sys2Proof.Machine
end

