-- ==== Sys2Proof/Machine/Crypto.lean ====
section
/-!
DEFINITION. The algorithms of R434 by their standards: AES (FIPS 197) with CTR, GCM and CMAC, SNOW 3G and ZUC with the 3GPP
confidentiality and integrity functions. The spec names the standards; their content is taken from them
(assumption log 18). Bytes are numbers below 256.
-/
namespace Sys2Proof.Machine

/-! ### AES (FIPS 197) -/

/-- Product in a field of 8 bits whose reduction is `red`. -/
def gf8Mul (red a b : Nat) : Nat :=
  ((List.range 8).foldl (fun (acc : Nat × Nat) i =>
    let r := if b.testBit i then acc.1 ^^^ acc.2 else acc.1
    let x := if acc.2.testBit 7 then ((acc.2 <<< 1) % 256) ^^^ red else acc.2 <<< 1
    (r, x)) (0, a % 256)).1

/-- `a` to the power `n` in that field. -/
def gf8Pow (red a : Nat) : Nat → Nat
  | 0 => 1
  | n + 1 => gf8Mul red a (gf8Pow red a n)

/-- Eight-bit rotation to the left. -/
def rotl8 (x n : Nat) : Nat := ((x <<< n) ||| (x >>> (8 - n))) % 256

/-- The AES S-box: inverse in the field, then the affine map. -/
def aesSub (x : Nat) : Nat :=
  let v := gf8Pow 0x1B x 254
  v ^^^ rotl8 v 1 ^^^ rotl8 v 2 ^^^ rotl8 v 3 ^^^ rotl8 v 4 ^^^ 0x63

/-- XOR of two byte lists. -/
def xorN (a b : List Nat) : List Nat := List.zipWith (· ^^^ ·) a b

/-- Words of the key schedule, newest first; `left` words remain to be made. -/
def aesSchedule (nk : Nat) : Nat → List (List Nat) → List (List Nat)
  | 0, ws => ws
  | left + 1, ws =>
    let i := ws.length
    let t := ws.headD []
    let t :=
      if i % nk = 0 then
        let r := (t.drop 1 ++ t.take 1).map aesSub
        xorN r [gf8Pow 0x1B 2 (i / nk - 1), 0, 0, 0]
      else if 6 < nk ∧ i % nk = 4 then t.map aesSub
      else t
    aesSchedule nk left (xorN (ws.getD (nk - 1) []) t :: ws)

/-- Pieces of `n` bytes; `fuel` bounds their number. -/
def piecesGo (n : Nat) : Nat → List Nat → List (List Nat)
  | 0, _ => []
  | f + 1, l => if l.isEmpty then [] else l.take n :: piecesGo n f (l.drop n)

/-- A byte list in pieces of `n` bytes, the last one perhaps shorter. -/
def pieces (n : Nat) (l : List Nat) : List (List Nat) := piecesGo n l.length l

/-- The round keys of a 16- or 32-byte key, 16 bytes each. -/
def aesKeys (key : List Nat) : List (List Nat) :=
  let nk := key.length / 4
  let ws := (aesSchedule nk (4 * (nk + 7) - nk) (pieces 4 key).reverse).reverse
  pieces 16 ws.flatten

/-- ShiftRows on the 16 bytes of a block. -/
def shiftRows (s : List Nat) : List Nat := (List.range 16).map (fun i => s.getD ((i + 4 * (i % 4)) % 16) 0)

/-- MixColumns. -/
def mixColumns (s : List Nat) : List Nat :=
  (List.range 16).map (fun i =>
    let c := i / 4 * 4
    let b := fun k => s.getD (c + (i % 4 + k) % 4) 0
    gf8Mul 0x1B (b 0) 2 ^^^ gf8Mul 0x1B (b 1) 3 ^^^ b 2 ^^^ b 3)

/-- Encryption of one block under a key's round keys. -/
def aesBlock (rk : List (List Nat)) (p : List Nat) : List Nat :=
  match rk with
  | [] => p
  | k0 :: ks =>
    let s := xorN p k0
    let s := ks.dropLast.foldl (fun s k => xorN (mixColumns (shiftRows (s.map aesSub))) k) s
    xorN (shiftRows (s.map aesSub)) (ks.getLastD [])

/-- A number's `n` bytes, most significant first. -/
def beN : Nat → Nat → List Nat
  | 0, _ => []
  | n + 1, v => beN n (v / 256) ++ [v % 256]

/-- The number of bytes given most significant first. -/
def ofBe (l : List Nat) : Nat := l.foldl (fun a b => a * 256 + b) 0

/-- `n` bytes of CTR keystream from a 16-byte counter block whose low `w` bits count (SP 800-38A). -/
def ctrStream (rk : List (List Nat)) (w : Nat) (block : Nat) (n : Nat) : List Nat :=
  ((List.range (ceilDiv n 16)).flatMap (fun i =>
    let c := block / 2 ^ w * 2 ^ w + (block + i) % 2 ^ w
    aesBlock rk (beN 16 c))).take n

/-! ### CMAC on bit strings (SP 800-38B) -/

/-- Doubling of a 128-bit block. -/
def cmacDbl (x : Nat) : Nat := if x.testBit 127 then ((x <<< 1) % 2 ^ 128) ^^^ 0x87 else x <<< 1

/-- CMAC of a string of `bits` bits, held in bytes from the most significant bit on; the result is a 128-bit number. -/
def cmac (rk : List (List Nat)) (msg : List Nat) (bits : Nat) : Nat :=
  let l := ofBe (aesBlock rk (List.replicate 16 0))
  let k1 := cmacDbl l
  let k2 := cmacDbl k1
  let nb := max 1 (ceilDiv bits 128)
  let blk := fun i => ofBe (((msg.drop (16 * i)).take 16) ++ List.replicate (16 - ((msg.drop (16 * i)).take 16).length) 0)
  let head := (List.range (nb - 1)).foldl (fun c i => ofBe (aesBlock rk (beN 16 (c ^^^ blk i)))) 0
  let r := bits - 128 * (nb - 1)
  let last :=
    if r = 128 then blk (nb - 1) ^^^ k1
    else (blk (nb - 1) / 2 ^ (128 - r) * 2 ^ (128 - r) + 2 ^ (127 - r)) ^^^ k2
  ofBe (aesBlock rk (beN 16 (head ^^^ last)))

/-! ### GCM (SP 800-38D) -/

/-- Product of two blocks in the field of GCM. -/
def gcmMul (x y : Nat) : Nat :=
  ((List.range 128).foldl (fun (acc : Nat × Nat) i =>
    let z := if x.testBit (127 - i) then acc.1 ^^^ acc.2 else acc.1
    let v := if acc.2.testBit 0 then (acc.2 >>> 1) ^^^ (0xE1 <<< 120) else acc.2 >>> 1
    (z, v)) (0, y)).1

/-- GHASH over additional data and ciphertext. -/
def ghash (h : Nat) (aad ct : List Nat) : Nat :=
  let blocks := fun l => (pieces 16 l).map (fun p => ofBe (p ++ List.replicate (16 - p.length) 0))
  let all := blocks aad ++ blocks ct ++ [8 * aad.length * 2 ^ 64 + 8 * ct.length]
  all.foldl (fun y b => gcmMul (y ^^^ b) h) 0

/-- The GCM tag of a ciphertext under a 12-byte IV, 16 bytes. -/
def gcmTag (rk : List (List Nat)) (iv aad ct : List Nat) : List Nat :=
  let h := ofBe (aesBlock rk (List.replicate 16 0))
  xorN (beN 16 (ghash h aad ct)) (aesBlock rk (iv ++ [0, 0, 0, 1]))

/-- GCM's counter-mode part: the same for both directions. -/
def gcmCrypt (rk : List (List Nat)) (iv data : List Nat) : List Nat :=
  xorN data (ctrStream rk 32 (ofBe (iv ++ [0, 0, 0, 2])) data.length)

/-! ### SNOW 3G (TS 35.216) -/

/-- S_Q by its Dickson polynomial. -/
def snowSq (x : Nat) : Nat :=
  [1, 9, 13, 15, 33, 41, 45, 47, 49].foldl (fun a n => a ^^^ gf8Pow 0x69 x n) 0x25

/-- MULxPOW with constant 0xA9. -/
def snowPow (c n : Nat) : Nat := (List.range n).foldl (fun v _ => gf8Mul 0xA9 v 2) c

def snowMul (c : Nat) : Nat := ofBe [snowPow c 23, snowPow c 245, snowPow c 48, snowPow c 239]
def snowDiv (c : Nat) : Nat := ofBe [snowPow c 16, snowPow c 39, snowPow c 6, snowPow c 64]

/-- S_1 and S_2: an S-box on each byte, then the column map with the given reduction. -/
def snowS (sub : Nat → Nat) (red w : Nat) : Nat :=
  let b := (beN 4 w).map sub
  let g := fun i => b.getD i 0
  let x := fun i => gf8Mul red (g i) 2
  ofBe [x 0 ^^^ g 1 ^^^ g 2 ^^^ x 3 ^^^ g 3, x 0 ^^^ g 0 ^^^ x 1 ^^^ g 2 ^^^ g 3,
    g 0 ^^^ x 1 ^^^ g 1 ^^^ x 2 ^^^ g 3, g 0 ^^^ g 1 ^^^ x 2 ^^^ g 2 ^^^ x 3]

/-- Registers of SNOW 3G: LFSR s0 to s15 and R1 to R3. -/
structure Snow where
  s  : List Nat
  r1 : Nat := 0
  r2 : Nat := 0
  r3 : Nat := 0

/-- One FSM clock: the output word and the new registers. -/
def Snow.fsm (k : Snow) : Nat × Snow :=
  let f := ((k.s.getD 15 0 + k.r1) % 2 ^ 32) ^^^ k.r2
  let r := (k.r2 + (k.r3 ^^^ k.s.getD 5 0)) % 2 ^ 32
  (f, { k with r3 := snowS snowSq 0x69 k.r2, r2 := snowS aesSub 0x1B k.r1, r1 := r })

/-- One LFSR clock; `f` is the FSM word in the initialisation and 0 after it. -/
def Snow.lfsr (k : Snow) (f : Nat) : Snow :=
  let s0 := k.s.getD 0 0
  let s11 := k.s.getD 11 0
  let v := ((s0 <<< 8) % 2 ^ 32) ^^^ snowMul (s0 >>> 24) ^^^ k.s.getD 2 0 ^^^ (s11 >>> 8) ^^^ snowDiv (s11 % 256) ^^^ f
  { k with s := k.s.drop 1 ++ [v] }

/-- Loading and the 32 initialisation clocks, and the clock that is discarded. -/
def snowInit (key iv : List Nat) : Snow :=
  let k := fun i => key.getD (3 - i) 0
  let v := fun i => iv.getD (3 - i) 0
  let n := fun x => x ^^^ 0xFFFFFFFF
  let s := [n (k 0), n (k 1), n (k 2), n (k 3), k 0, k 1, k 2, k 3, n (k 0), n (k 1) ^^^ v 3, n (k 2) ^^^ v 2, n (k 3),
    k 0 ^^^ v 1, k 1, k 2, k 3 ^^^ v 0]
  let st := (List.range 32).foldl (fun (st : Snow) _ =>
    let (f, st) := st.fsm
    st.lfsr f) { s := s }
  (st.fsm.2).lfsr 0

/-- `n` words of keystream; key and IV are four words each, K3 and IV3 first. -/
def snowStream (key iv : List Nat) (n : Nat) : List Nat :=
  ((List.range n).foldl (fun (acc : List Nat × Snow) _ =>
    let (f, st) := acc.2.fsm
    (acc.1 ++ [f ^^^ acc.2.s.getD 0 0], st.lfsr 0)) ([], snowInit key iv)).1

/-! ### ZUC (TS 35.222) -/

def zucS0 : List Nat := [0x3e, 0x72, 0x5b, 0x47, 0xca, 0xe0, 0x0, 0x33, 0x4, 0xd1, 0x54, 0x98, 0x9, 0xb9, 0x6d, 0xcb,
    0x7b, 0x1b, 0xf9, 0x32, 0xaf, 0x9d, 0x6a, 0xa5, 0xb8, 0x2d, 0xfc, 0x1d, 0x8, 0x53, 0x3, 0x90,
    0x4d, 0x4e, 0x84, 0x99, 0xe4, 0xce, 0xd9, 0x91, 0xdd, 0xb6, 0x85, 0x48, 0x8b, 0x29, 0x6e, 0xac,
    0xcd, 0xc1, 0xf8, 0x1e, 0x73, 0x43, 0x69, 0xc6, 0xb5, 0xbd, 0xfd, 0x39, 0x63, 0x20, 0xd4, 0x38]
  ++ [0x76, 0x7d, 0xb2, 0xa7, 0xcf, 0xed, 0x57, 0xc5, 0xf3, 0x2c, 0xbb, 0x14, 0x21, 0x6, 0x55, 0x9b,
    0xe3, 0xef, 0x5e, 0x31, 0x4f, 0x7f, 0x5a, 0xa4, 0xd, 0x82, 0x51, 0x49, 0x5f, 0xba, 0x58, 0x1c,
    0x4a, 0x16, 0xd5, 0x17, 0xa8, 0x92, 0x24, 0x1f, 0x8c, 0xff, 0xd8, 0xae, 0x2e, 0x1, 0xd3, 0xad,
    0x3b, 0x4b, 0xda, 0x46, 0xeb, 0xc9, 0xde, 0x9a, 0x8f, 0x87, 0xd7, 0x3a, 0x80, 0x6f, 0x2f, 0xc8]
  ++ [0xb1, 0xb4, 0x37, 0xf7, 0xa, 0x22, 0x13, 0x28, 0x7c, 0xcc, 0x3c, 0x89, 0xc7, 0xc3, 0x96, 0x56,
    0x7, 0xbf, 0x7e, 0xf0, 0xb, 0x2b, 0x97, 0x52, 0x35, 0x41, 0x79, 0x61, 0xa6, 0x4c, 0x10, 0xfe,
    0xbc, 0x26, 0x95, 0x88, 0x8a, 0xb0, 0xa3, 0xfb, 0xc0, 0x18, 0x94, 0xf2, 0xe1, 0xe5, 0xe9, 0x5d,
    0xd0, 0xdc, 0x11, 0x66, 0x64, 0x5c, 0xec, 0x59, 0x42, 0x75, 0x12, 0xf5, 0x74, 0x9c, 0xaa, 0x23]
  ++ [0xe, 0x86, 0xab, 0xbe, 0x2a, 0x2, 0xe7, 0x67, 0xe6, 0x44, 0xa2, 0x6c, 0xc2, 0x93, 0x9f, 0xf1,
    0xf6, 0xfa, 0x36, 0xd2, 0x50, 0x68, 0x9e, 0x62, 0x71, 0x15, 0x3d, 0xd6, 0x40, 0xc4, 0xe2, 0xf,
    0x8e, 0x83, 0x77, 0x6b, 0x25, 0x5, 0x3f, 0xc, 0x30, 0xea, 0x70, 0xb7, 0xa1, 0xe8, 0xa9, 0x65,
    0x8d, 0x27, 0x1a, 0xdb, 0x81, 0xb3, 0xa0, 0xf4, 0x45, 0x7a, 0x19, 0xdf, 0xee, 0x78, 0x34, 0x60]

def zucS1 : List Nat := [0x55, 0xc2, 0x63, 0x71, 0x3b, 0xc8, 0x47, 0x86, 0x9f, 0x3c, 0xda, 0x5b, 0x29, 0xaa, 0xfd, 0x77,
    0x8c, 0xc5, 0x94, 0xc, 0xa6, 0x1a, 0x13, 0x0, 0xe3, 0xa8, 0x16, 0x72, 0x40, 0xf9, 0xf8, 0x42,
    0x44, 0x26, 0x68, 0x96, 0x81, 0xd9, 0x45, 0x3e, 0x10, 0x76, 0xc6, 0xa7, 0x8b, 0x39, 0x43, 0xe1,
    0x3a, 0xb5, 0x56, 0x2a, 0xc0, 0x6d, 0xb3, 0x5, 0x22, 0x66, 0xbf, 0xdc, 0xb, 0xfa, 0x62, 0x48]
  ++ [0xdd, 0x20, 0x11, 0x6, 0x36, 0xc9, 0xc1, 0xcf, 0xf6, 0x27, 0x52, 0xbb, 0x69, 0xf5, 0xd4, 0x87,
    0x7f, 0x84, 0x4c, 0xd2, 0x9c, 0x57, 0xa4, 0xbc, 0x4f, 0x9a, 0xdf, 0xfe, 0xd6, 0x8d, 0x7a, 0xeb,
    0x2b, 0x53, 0xd8, 0x5c, 0xa1, 0x14, 0x17, 0xfb, 0x23, 0xd5, 0x7d, 0x30, 0x67, 0x73, 0x8, 0x9,
    0xee, 0xb7, 0x70, 0x3f, 0x61, 0xb2, 0x19, 0x8e, 0x4e, 0xe5, 0x4b, 0x93, 0x8f, 0x5d, 0xdb, 0xa9]
  ++ [0xad, 0xf1, 0xae, 0x2e, 0xcb, 0xd, 0xfc, 0xf4, 0x2d, 0x46, 0x6e, 0x1d, 0x97, 0xe8, 0xd1, 0xe9,
    0x4d, 0x37, 0xa5, 0x75, 0x5e, 0x83, 0x9e, 0xab, 0x82, 0x9d, 0xb9, 0x1c, 0xe0, 0xcd, 0x49, 0x89,
    0x1, 0xb6, 0xbd, 0x58, 0x24, 0xa2, 0x5f, 0x38, 0x78, 0x99, 0x15, 0x90, 0x50, 0xb8, 0x95, 0xe4,
    0xd0, 0x91, 0xc7, 0xce, 0xed, 0xf, 0xb4, 0x6f, 0xa0, 0xcc, 0xf0, 0x2, 0x4a, 0x79, 0xc3, 0xde]
  ++ [0xa3, 0xef, 0xea, 0x51, 0xe6, 0x6b, 0x18, 0xec, 0x1b, 0x2c, 0x80, 0xf7, 0x74, 0xe7, 0xff, 0x21,
    0x5a, 0x6a, 0x54, 0x1e, 0x41, 0x31, 0x92, 0x35, 0xc4, 0x33, 0x7, 0xa, 0xba, 0x7e, 0xe, 0x34,
    0x88, 0xb1, 0x98, 0x7c, 0xf3, 0x3d, 0x60, 0x6c, 0x7b, 0xca, 0xd3, 0x1f, 0x32, 0x65, 0x4, 0x28,
    0x64, 0xbe, 0x85, 0x9b, 0x2f, 0x59, 0x8a, 0xd7, 0xb0, 0x25, 0xac, 0xaf, 0x12, 0x3, 0xe2, 0xf2]

def zucD : List Nat := [0x44D7, 0x26BC, 0x626B, 0x135E, 0x5789, 0x35E2, 0x7135, 0x09AF, 0x4D78, 0x2F13, 0x6BC4, 0x1AF1,
  0x5E26, 0x3C4D, 0x789A, 0x47AC]

/-- Rotation of a 32-bit word to the left. -/
def rotl32 (x n : Nat) : Nat := ((x <<< n) ||| (x >>> (32 - n))) % 2 ^ 32

def zucL1 (x : Nat) : Nat := x ^^^ rotl32 x 2 ^^^ rotl32 x 10 ^^^ rotl32 x 18 ^^^ rotl32 x 24
def zucL2 (x : Nat) : Nat := x ^^^ rotl32 x 8 ^^^ rotl32 x 14 ^^^ rotl32 x 22 ^^^ rotl32 x 30

/-- The S-box layer. -/
def zucSub (x : Nat) : Nat :=
  ofBe [zucS0.getD (x >>> 24) 0, zucS1.getD (x >>> 16 % 256) 0, zucS0.getD (x >>> 8 % 256) 0, zucS1.getD (x % 256) 0]

/-- Registers of ZUC: the 31-bit LFSR, R1 and R2. -/
structure Zuc where
  s  : List Nat
  r1 : Nat := 0
  r2 : Nat := 0

/-- Bit reorganisation and F: the word W, X3, and the new registers. -/
def Zuc.f (z : Zuc) : Nat × Nat × Zuc :=
  let h := fun i => z.s.getD i 0 >>> 15
  let l := fun i => z.s.getD i 0 % 2 ^ 16
  let x0 := h 15 * 2 ^ 16 + l 14
  let x1 := l 11 * 2 ^ 16 + h 9
  let x2 := l 7 * 2 ^ 16 + h 5
  let x3 := l 2 * 2 ^ 16 + h 0
  let w := ((x0 ^^^ z.r1) + z.r2) % 2 ^ 32
  let w1 := (z.r1 + x1) % 2 ^ 32
  let w2 := z.r2 ^^^ x2
  (w, x3, { z with
    r1 := zucSub (zucL1 (w1 % 2 ^ 16 * 2 ^ 16 + w2 >>> 16)), r2 := zucSub (zucL2 (w2 % 2 ^ 16 * 2 ^ 16 + w1 >>> 16)) })

/-- One LFSR clock; `u` is the initialisation word or 0. -/
def Zuc.lfsr (z : Zuc) (u : Nat) : Zuc :=
  let g := fun i => z.s.getD i 0
  let v := (2 ^ 15 * g 15 + 2 ^ 17 * g 13 + 2 ^ 21 * g 10 + 2 ^ 20 * g 4 + 257 * g 0 + u) % (2 ^ 31 - 1)
  { z with s := z.s.drop 1 ++ [if v = 0 then 2 ^ 31 - 1 else v] }

/-- Loading, the 32 initialisation clocks and the discarded one; key and IV are 16 bytes. -/
def zucInit (key iv : List Nat) : Zuc :=
  let s := (List.range 16).map (fun i => key.getD i 0 * 2 ^ 23 + zucD.getD i 0 * 2 ^ 8 + iv.getD i 0)
  let z := (List.range 32).foldl (fun (z : Zuc) _ =>
    let (w, _, z) := z.f
    z.lfsr (w / 2)) { s := s }
  (z.f.2.2).lfsr 0

/-- `n` words of keystream. -/
def zucStream (key iv : List Nat) (n : Nat) : List Nat :=
  ((List.range n).foldl (fun (acc : List Nat × Zuc) _ =>
    let (w, x3, z) := acc.2.f
    (acc.1 ++ [w ^^^ x3], z.lfsr 0)) ([], zucInit key iv)).1

/-! ### The 3GPP functions (TS 33.401 annex B) -/

/-- Clear the bits after the first `bits` of a byte list. -/
def trimBits (bits : Nat) (l : List Nat) : List Nat :=
  let n := ceilDiv bits 8
  let l := l.take n
  if bits % 8 = 0 then l else l.dropLast ++ [l.getLastD 0 / 2 ^ (8 - bits % 8) * 2 ^ (8 - bits % 8)]

/-- Words as bytes. -/
def wordBytes (ws : List Nat) : List Nat := ws.flatMap (beN 4)

/-- 128-NEA1, NEA2, NEA3: keystream of `bits` bits for algorithm 1, 2 or 3. -/
def neaStream (alg : Nat) (key : List Nat) (count bearer dir bits : Nat) : List Nat :=
  let nw := ceilDiv bits 32
  match alg with
  | 1 =>
    let b := bearer * 2 ^ 27 + dir * 2 ^ 26
    wordBytes (snowStream ((pieces 4 key).map ofBe) [count, b, count, b] nw)
  | 2 => ctrStream (aesKeys key) 64 (count * 2 ^ 96 + (bearer * 2 ^ 27 + dir * 2 ^ 26) * 2 ^ 64) (ceilDiv bits 8)
  | _ =>
    let h := beN 4 count ++ [bearer * 8 + dir * 4, 0, 0, 0]
    wordBytes (zucStream key (h ++ h) nw)

/-- 128-NEA: the output, its unused low bits 0 (R435). -/
def nea (alg : Nat) (key : List Nat) (count bearer dir : Nat) (data : List Nat) (bits : Nat) : List Nat :=
  trimBits bits (xorN data (neaStream alg key count bearer dir bits))

/-- Product of two 64-bit elements with reduction 0x1B (UIA2). -/
def nia1Mul (v p : Nat) : Nat :=
  ((List.range 64).foldl (fun (acc : Nat × Nat) i =>
    let r := if p.testBit i then acc.1 ^^^ acc.2 else acc.1
    let x := if acc.2.testBit 63 then ((acc.2 <<< 1) % 2 ^ 64) ^^^ 0x1B else acc.2 <<< 1
    (r, x)) (0, v)).1

/-- 128-NIA1. -/
def nia1 (key : List Nat) (count bearer dir : Nat) (msg : List Nat) (bits : Nat) : Nat :=
  let fresh := bearer * 2 ^ 27
  let z := snowStream ((pieces 4 key).map ofBe) [count, fresh, count ^^^ (dir * 2 ^ 31), fresh ^^^ (dir * 2 ^ 15)] 5
  let g := fun i => z.getD i 0
  let p := g 0 * 2 ^ 32 + g 1
  let q := g 2 * 2 ^ 32 + g 3
  let m := trimBits bits msg
  let blk := fun i => ofBe (((m.drop (8 * i)).take 8) ++ List.replicate (8 - ((m.drop (8 * i)).take 8).length) 0)
  let e := (List.range (ceilDiv bits 64)).foldl (fun e i => nia1Mul (e ^^^ blk i) p) 0
  (nia1Mul (e ^^^ bits) q) >>> 32 ^^^ g 4

/-- 128-NIA2. -/
def nia2 (key : List Nat) (count bearer dir : Nat) (msg : List Nat) (bits : Nat) : Nat :=
  let h := beN 4 count ++ [bearer * 8 + dir * 4, 0, 0, 0]
  cmac (aesKeys key) (h ++ msg) (64 + bits) >>> 96

/-- 128-NIA3. -/
def nia3 (key : List Nat) (count bearer dir : Nat) (msg : List Nat) (bits : Nat) : Nat :=
  let h := beN 4 count ++ [bearer * 8, 0, 0, 0]
  let iv := h ++ [h.getD 0 0 ^^^ (dir * 128), h.getD 1 0, h.getD 2 0, h.getD 3 0, h.getD 4 0, 0, dir * 128, 0]
  let nw := ceilDiv bits 32 + 2
  let z := zucStream key iv nw
  let at32 := fun i =>
    ((z.getD (i / 32) 0 * 2 ^ 32 + z.getD (i / 32 + 1) 0) >>> (32 - i % 32)) % 2 ^ 32
  let t := (List.range bits).foldl (fun t i => if (msg.getD (i / 8) 0).testBit (7 - i % 8) then t ^^^ at32 i else t) 0
  t ^^^ at32 bits ^^^ z.getD (nw - 1) 0

/-- 128-NIA of algorithm 1, 2 or 3: the four bytes of MAC-I, bits 31:24 first (R435). -/
def nia (alg : Nat) (key : List Nat) (count bearer dir : Nat) (msg : List Nat) (bits : Nat) : List Nat :=
  beN 4 (match alg with
    | 1 => nia1 key count bearer dir msg bits
    | 2 => nia2 key count bearer dir msg bits
    | _ => nia3 key count bearer dir msg bits)

end Sys2Proof.Machine
end

