-- ==== Sys2Proof/Config.lean ====
section
/-!
DEFINITION. What an implementation fixes and the spec leaves open: constants with no body, so that no proof can see their
values. A claim about the model holds whatever they are.
-/
namespace Sys2Proof.Config

/-- A free value of `w` bits; the step that needs one applies it to a counter of the state (assumption log 2). -/
opaque free (n : Nat) (w : Nat) : BitVec w

/-- A free choice below `n + 1` (assumption log 2). -/
opaque choose (k : Nat) (n : Nat) : Fin (n + 1)

/-- The MAC addresses that fuses give FHN_PORT_MAC (R398). -/
opaque portMac (p : Nat) : BitVec 48

/-- The 16-byte device serial fused at test (R2). -/
opaque serial (i : Nat) : BitVec 8

/-- Attributes of a dictionary item (R496): TYPE and ACCESS by their codes, SIZE in bytes, the default as a number, and
the permitted ranges of a value (empty: any). -/
structure PItem where
  area    : Nat
  item    : Nat
  count   : Nat
  ty      : Nat
  size    : Nat
  acc     : Nat
  dflt    : Nat
  persist : Bool
  vals    : List (Nat × Nat)
  wpriv   : Nat
  deriving DecidableEq, Repr, Inhabited

/-- An item of areas 0x30, 0x40, 0x50 to 0x54 and 0x60 that the manual mentions without a number: its attributes and the register
words that its elements hold (assumption log 16). -/
structure UnitItem where
  attr : PItem
  regs : List Nat
  deriving DecidableEq, Repr, Inhabited

/-- The items of areas 0x30, 0x40, 0x50 to 0x54 and 0x60 that hold registers (R73, R199, R239, R270, R300, R332, R335,
R368, R398); the manual gives neither their numbers nor their types (assumption log 16). -/
opaque unitItems : List UnitItem

/-- The queues to LOAD on entry to a Service mode, from the values of area 0x54 (R332, assumption log 16). -/
opaque queuesToLoad (area54 : List (Nat × List (BitVec 8))) : List Nat

/-- A memory window as P 0x70.0011 holds it: base, s, R and W (R433 gives no layout; assumption log 17). -/
opaque cphWindow (v : BitVec 64) : BitVec 40 × Fin 28 × Bool × Bool

/-- Palril's vendor ID (R509). -/
opaque vendorId : BitVec 16

/-- The fused management MAC address (R499). -/
opaque mgmtMac : BitVec 48

/-- Set of the check-line cache that an octet falls in (R351 gives 16 ways and no index). -/
opaque clcSet (octet : Nat) : Fin 2048

/-- Receive and transmit path latencies of a port mode, in 1/256 ns; the alignment phase of a frame is its second argument
(R416 gives no values). -/
opaque rxLatency (mode phase : Nat) : Nat
opaque txLatency (mode phase : Nat) : Nat

/-- Static compression of an eAxC: BFP or not, and width − 8; none where sections carry udCompHdr (R376 names no place that
holds it; assumption log 21). -/
opaque staticComp (eaxc : BitVec 16) : Option (Bool × Fin 9)

/-- BFP or not and width − 8 of time-domain messages that the device sends, and their samples per frame (R388 gives the
descriptor no field for either; assumption log 21). -/
opaque tdFormat : Bool × Fin 9
opaque tdSpf : Nat

/-- Parity bits of the NR LDPC code of a base graph and lifting size for its systematic bits, and whether hard decisions
satisfy rows 0 to Lact − 1 (R207 names the tables of TS 38.212 and does not reprint them; assumption log 23). -/
opaque ldpcParity (bg1 : Bool) (z : Nat) (sys : List Bool) : List Bool
opaque ldpcSatisfied (bg1 : Bool) (z lact : Nat) (hard : List Bool) : Bool

/-- Steps of 5 mV above 0.60 V of the VDD_CORE target for the clocks of a mode (R475: a fused table, corrected by monitors;
assumption log 35). -/
opaque vcoreSteps (lean : Bool) (n : Nat) : Fin 41

/-- Tap at which training leaves an element of a calibration target (R483; assumption log 36). -/
opaque trainedTap (target elem : Nat) : Nat

/-- Governing sensor of an analogue trim (R490 names none; assumption log 36). -/
opaque trimSensor (n : Nat) : Fin 64

/-- Palril's root public key, held in ROM (R523). -/
opaque palrilKey : List (BitVec 8)

/-- What a signal bundle's payload loads: global addresses and bytes (R525 gives no layout; assumption log 37). -/
opaque bundleWrites (payload : List (BitVec 8)) : List (Nat × List (BitVec 8))

/-- Loads of a profile's values: ARE/s uplink and downlink, time-domain samples/s uplink and downlink; and whether the values
stay within the limits of a class (R22, R26 count carriers, for which the manual gives no items; assumption log 38). -/
opaque profileLoad (values : List (Nat × List (BitVec 8))) (i : Fin 4) : Nat
opaque classWithin (n : Nat) (values : List (Nat × List (BitVec 8))) : Bool

/-- A PERSIST value converted from one CFG_FORMAT to another (R531; assumption log 39). -/
opaque convertValue (src dst key : Nat) (v : List (BitVec 8)) : List (BitVec 8)

/-- Places within 0x41 to 0x4F of the update statuses whose codes the manual does not give (R507): by number, WRONG_STATE,
TRIAL_PENDING, BAD_OFFSET, BAD_LENGTH, FLASH_ERROR, VERIFY_FAIL, ROLLBACK, TIME_PAST, TIME_NOT_LOCKED, OTP_FULL
(assumption log 41). -/
opaque updStatus (n : Nat) : Fin 15

/-- Supervisor's state as a dump holds it (R549 gives no layout). -/
opaque supDump (n : Nat) : List (BitVec 8)

/-- An entry of Smilda's instance table as a dump holds it, from its fields (R549 gives no layout). -/
opaque instEntry (fields : List Nat) : List (BitVec 8)

end Sys2Proof.Config
end

