-- ==== Sys2Proof/Machine/RegMap.lean ====
section
/-!
DEFINITION. The register maps of the spec as data: for every register its place, access code, writable bits and reset value
(R8 to R12, R19, and the map of each unit's chapter).
-/
namespace Sys2Proof.Machine

/-- What a write does to a register (R8); RO and RO/V are written alike. -/
inductive Acc where
  | ro | rw | w1c | wo
  deriving DecidableEq, Repr

/-- A row of a register map: `count` registers of 4 bytes, or 8 when `wide`, each `stride` after the one before. -/
structure RegRow where
  name   : String
  off    : Nat
  acc    : Acc
  mask   : Nat
  reset  : Nat
  wide   : Bool := false
  count  : Nat := 1
  stride : Nat := 4
  deriving DecidableEq, Repr

/-- A register window: `copies` sub-windows of `span` bytes; the ID register of copy c resets to its value plus c. -/
structure RegWin where
  base   : Nat
  span   : Nat
  copies : Nat
  rows   : List RegRow
  deriving DecidableEq, Repr

/-- All 32 bits. -/
def m32 : Nat := 0xFFFFFFFF
/-- All 64 bits. -/
def m64 : Nat := 0xFFFFFFFFFFFFFFFF
/-- A 40-bit address field. -/
def m40 : Nat := 0xFFFFFFFFFF
/-- An 18-bit queue number. -/
def m18 : Nat := 0x3FFFF

/-- Smilda's registers (R72 to R79). -/
def smdRows : List RegRow := [
  ⟨"SMD_ID", 0x0, .ro, 0, 0x00010002, false, 1, 4⟩,
  ⟨"SMD_CTRL", 0x4, .rw, 1, 0, false, 1, 4⟩,
  ⟨"SMD_STATUS", 0x8, .ro, 0, 0, false, 1, 4⟩,
  ⟨"SMD_INT_STATUS", 0x10, .w1c, 0xFF, 0, false, 1, 4⟩,
  ⟨"SMD_INT_ENABLE", 0x14, .rw, 0xFF, 0, false, 1, 4⟩,
  ⟨"SMD_TPL_DIR", 0x20, .rw, m40, 0, true, 1, 8⟩,
  ⟨"SMD_SPILL_BASE", 0x28, .rw, m40, 0, true, 1, 8⟩,
  ⟨"SMD_SPILL_CFG", 0x30, .rw, 0xF, 0xA, false, 1, 4⟩,
  ⟨"SMD_T1_DEFAULT", 0x34, .rw, 0xFFFF, 0x190, false, 1, 4⟩,
  ⟨"SMD_T2_DEFAULT", 0x38, .rw, 0xFFFF, 0x96, false, 1, 4⟩,
  ⟨"SMD_CREATE_QUEUE", 0x40, .rw, m18, 0, false, 1, 4⟩,
  ⟨"SMD_TOKEN_QUEUE", 0x44, .rw, 0x8003FFFF, 0, false, 4, 4⟩,
  ⟨"SMD_TPL_INVAL", 0x58, .wo, 0, 0, false, 1, 4⟩,
  ⟨"SMD_CANCEL", 0x60, .wo, 0, 0, false, 1, 4⟩,
  ⟨"SMD_INST_SEL", 0x64, .rw, 0x7FF, 0, false, 1, 4⟩,
  ⟨"SMD_INST_INFO", 0x68, .ro, 0, 0, false, 1, 4⟩,
  ⟨"SMD_POOL_CMD", 0x70, .wo, 0, 0, false, 1, 4⟩,
  ⟨"SMD_POOL_CMD_STATUS", 0x74, .ro, 0, 0, false, 1, 4⟩,
  ⟨"SMD_ENG_WINDOW", 0x80, .rw, 0xF, 2, false, 8, 4⟩,
  ⟨"SMD_ENG_QBASE", 0xC0, .rw, m18, 0, false, 8, 4⟩,
  ⟨"SMD_MOVER_CHMASK", 0x100, .rw, 0xFFFF, 0xFF00, false, 32, 4⟩,
  ⟨"SMD_POOL_STATE", 0x200, .ro, 0, 0, false, 32, 4⟩,
  ⟨"SMD_CORE_STATE", 0x400, .ro, 0, 0, false, 192, 4⟩,
  ⟨"SMD_MATCH_OCC", 0x800, .ro, 0, 0, false, 1, 4⟩,
  ⟨"SMD_MATCH_HWM", 0x804, .ro, 0, 0, false, 1, 4⟩,
  ⟨"SMD_SPILL_OCC", 0x808, .ro, 0, 0, false, 1, 4⟩,
  ⟨"SMD_SPILL_HWM", 0x80C, .ro, 0, 0, false, 1, 4⟩,
  ⟨"SMD_LIVE_INST", 0x810, .ro, 0, 0, false, 1, 4⟩,
  ⟨"SMD_LIVE_HWM", 0x814, .ro, 0, 0, false, 1, 4⟩,
  ⟨"SMD_CNT", 0x900, .ro, 0, 0, true, 18, 8⟩]

/-- The queue manager's registers (R332 to R334). -/
def qmgRows : List RegRow := [
  ⟨"QMG_ID", 0x0, .ro, 0, 0x00010001, false, 1, 4⟩,
  ⟨"QMG_CTRL", 0x4, .rw, 1, 0, false, 1, 4⟩,
  ⟨"QMG_STATUS", 0x8, .ro, 0, 0, false, 1, 4⟩,
  ⟨"QMG_INT_STATUS", 0x10, .w1c, 0x3F, 0, false, 1, 4⟩,
  ⟨"QMG_INT_ENABLE", 0x14, .rw, 0x3F, 0, false, 1, 4⟩,
  ⟨"QMG_QTAB_BASE", 0x20, .rw, m40, 0, true, 1, 8⟩,
  ⟨"QMG_QTAB_CFG", 0x28, .rw, 0x1F, 0x12, false, 1, 4⟩,
  ⟨"QMG_QCMD", 0x30, .wo, 0, 0, false, 1, 4⟩,
  ⟨"QMG_QCMD_STATUS", 0x34, .ro, 0, 0, false, 1, 4⟩,
  ⟨"QMG_BIND_TAG", 0x38, .rw, m64, 0, true, 1, 8⟩,
  ⟨"QMG_QSEL", 0x40, .rw, m18, 0, false, 1, 4⟩,
  ⟨"QMG_QPI", 0x44, .ro, 0, 0, false, 1, 4⟩,
  ⟨"QMG_QCI", 0x48, .ro, 0, 0, false, 1, 4⟩,
  ⟨"QMG_QFLAGS", 0x4C, .ro, 0, 0, false, 1, 4⟩,
  ⟨"QMG_DB_PI", 0x80, .wo, 0, 0, true, 1, 8⟩,
  ⟨"QMG_DB_CI", 0x88, .wo, 0, 0, true, 1, 8⟩,
  ⟨"QMG_POST", 0xC0, .wo, 0, 0, false, 16, 4⟩,
  ⟨"QMG_CORE_DB", 0x200, .ro, 0, 0, false, 192, 4⟩,
  ⟨"QMG_CNT", 0x800, .ro, 0, 0, true, 13, 8⟩]

/-- A mover's registers (R335). -/
def bmvRows : List RegRow := [
  ⟨"BMV_ID", 0x0, .ro, 0, 0x00010100, false, 1, 4⟩,
  ⟨"BMV_CTRL", 0x4, .rw, 1, 0, false, 1, 4⟩,
  ⟨"BMV_STATUS", 0x8, .ro, 0, 0, false, 1, 4⟩,
  ⟨"BMV_INT_STATUS", 0x10, .w1c, 0xF, 0, false, 1, 4⟩,
  ⟨"BMV_INT_ENABLE", 0x14, .rw, 0xF, 0, false, 1, 4⟩,
  ⟨"BMV_CH_Q", 0x100, .rw, 0x8003FFFF, 0, false, 16, 0x20⟩,
  ⟨"BMV_CH_PRIO", 0x104, .rw, 3, 0, false, 16, 0x20⟩,
  ⟨"BMV_CH_CMD", 0x108, .wo, 0, 0, false, 16, 0x20⟩,
  ⟨"BMV_CH_STATE", 0x10C, .ro, 0, 0, false, 16, 0x20⟩,
  ⟨"BMV_CH_XFER", 0x110, .ro, 0, 0, false, 16, 0x20⟩,
  ⟨"BMV_CH_STAT", 0x114, .ro, 0, 0, false, 16, 0x20⟩,
  ⟨"BMV_CH_ERR_ADDR", 0x118, .ro, 0, 0, true, 16, 0x20⟩,
  ⟨"BMV_CNT", 0x400, .ro, 0, 0, true, 9, 8⟩,
  ⟨"BMV_STAGE", 0x8000, .ro, 0, 0, false, 1024, 4⟩]

/-- A beam engine's registers (R196 to R198). -/
def benRows : List RegRow := [
  ⟨"BEN_ID", 0x0, .ro, 0, 0x00010100, false, 1, 4⟩,
  ⟨"BEN_CTRL", 0x4, .rw, 1, 0, false, 1, 4⟩,
  ⟨"BEN_STATUS", 0x8, .ro, 0, 0, false, 1, 4⟩,
  ⟨"BEN_INT_STATUS", 0x10, .w1c, 0xF, 0, false, 1, 4⟩,
  ⟨"BEN_INT_ENABLE", 0x14, .rw, 0xF, 0, false, 1, 4⟩,
  ⟨"BEN_JOBQ", 0x20, .rw, m18, 0, false, 1, 4⟩,
  ⟨"BEN_MRG_HI", 0x24, .rw, 0xFFFF, 0x12C, false, 1, 4⟩,
  ⟨"BEN_MRG_LO", 0x28, .rw, 0xFFFF, 0x64, false, 1, 4⟩,
  ⟨"BEN_CUR_REF", 0x30, .ro, 0, 0, false, 1, 4⟩,
  ⟨"BEN_CUR_POS", 0x34, .ro, 0, 0, false, 1, 4⟩,
  ⟨"BEN_ERR_ADDR", 0x38, .ro, 0, 0, true, 1, 8⟩,
  ⟨"BEN_CNT", 0x100, .ro, 0, 0, true, 11, 8⟩,
  ⟨"BEN_STAGE", 0x8000, .ro, 0, 0, false, 512, 4⟩]

/-- A coding unit's registers (R238 to R240); `id` is the reset value of FEC_ID and `dec` marks a decoder. -/
def fecRows (id : Nat) (dec : Bool) : List RegRow := [
  ⟨"FEC_ID", 0x0, .ro, 0, id, false, 1, 4⟩,
  ⟨"FEC_CTRL", 0x4, .rw, 1, 0, false, 1, 4⟩,
  ⟨"FEC_STATUS", 0x8, .ro, 0, 0, false, 1, 4⟩,
  ⟨"FEC_INT_STATUS", 0x10, .w1c, 0xF, 0, false, 1, 4⟩,
  ⟨"FEC_INT_ENABLE", 0x14, .rw, 0xF, 0, false, 1, 4⟩,
  ⟨"FEC_JOBQ", 0x20, .rw, m18, 0, false, 1, 4⟩,
  ⟨"FEC_MRG_HI", 0x24, .rw, if dec then 0xFFFF else 0, if dec then 0xC8 else 0, false, 1, 4⟩,
  ⟨"FEC_MRG_LO", 0x28, .rw, if dec then 0xFFFF else 0, if dec then 0x28 else 0, false, 1, 4⟩,
  ⟨"FEC_CAP_FLOOR", 0x2C, .rw, if dec then 0x1F else 0, if dec then 2 else 0, false, 1, 4⟩,
  ⟨"FEC_CUR_REF", 0x30, .ro, 0, 0, false, 1, 4⟩,
  ⟨"FEC_CUR_POS", 0x34, .ro, 0, 0, false, 1, 4⟩,
  ⟨"FEC_ERR_ADDR", 0x38, .ro, 0, 0, true, 1, 8⟩,
  ⟨"FEC_CNT", 0x100, .ro, 0, 0, true, 13, 8⟩,
  ⟨"FEC_STAGE", 0x4000, .ro, 0, 0, false, 512, 4⟩]

/-- A transform unit's registers (R269 to R271). -/
def xfuRows : List RegRow := [
  ⟨"XFU_ID", 0x0, .ro, 0, 0x00010100, false, 1, 4⟩,
  ⟨"XFU_CTRL", 0x4, .rw, 1, 0, false, 1, 4⟩,
  ⟨"XFU_STATUS", 0x8, .ro, 0, 0, false, 1, 4⟩,
  ⟨"XFU_INT_STATUS", 0x10, .w1c, 0xF, 0, false, 1, 4⟩,
  ⟨"XFU_INT_ENABLE", 0x14, .rw, 0xF, 0, false, 1, 4⟩,
  ⟨"XFU_JOBQ", 0x20, .rw, m18, 0, false, 1, 4⟩,
  ⟨"XFU_CUR_REF", 0x30, .ro, 0, 0, false, 1, 4⟩,
  ⟨"XFU_CUR_POS", 0x34, .ro, 0, 0, false, 1, 4⟩,
  ⟨"XFU_ERR_ADDR", 0x38, .ro, 0, 0, true, 1, 8⟩,
  ⟨"XFU_CNT", 0x100, .ro, 0, 0, true, 8, 8⟩,
  ⟨"XFU_STAGE", 0x4000, .ro, 0, 0, false, 512, 4⟩]

/-- An OOK generator's registers (R298). -/
def wbuGRows : List RegRow := [
  ⟨"WBU_G_ID", 0x0, .ro, 0, 0x00010100, false, 1, 4⟩,
  ⟨"WBU_G_CTRL", 0x4, .rw, 1, 0, false, 1, 4⟩,
  ⟨"WBU_G_STATUS", 0x8, .ro, 0, 0, false, 1, 4⟩,
  ⟨"WBU_G_INT_STATUS", 0x10, .w1c, 0x1F, 0, false, 1, 4⟩,
  ⟨"WBU_G_INT_ENABLE", 0x14, .rw, 0x1F, 0, false, 1, 4⟩,
  ⟨"WBU_G_JOBQ", 0x20, .rw, m18, 0, false, 1, 4⟩,
  ⟨"WBU_G_WLEAD", 0x24, .rw, 0xFFFF, 0x3E8, false, 1, 4⟩,
  ⟨"WBU_G_WMIN", 0x28, .rw, 0xFFFF, 0x96, false, 1, 4⟩,
  ⟨"WBU_G_ERR_ADDR", 0x38, .ro, 0, 0, true, 1, 8⟩,
  ⟨"WBU_G_CNT", 0x100, .ro, 0, 0, true, 7, 8⟩,
  ⟨"WBU_G_STAGE", 0x4000, .ro, 0, 0, false, 512, 4⟩]

/-- A burst receiver's registers (R299). -/
def wbuRRows : List RegRow := [
  ⟨"WBU_R_ID", 0x0, .ro, 0, 0x00010100, false, 1, 4⟩,
  ⟨"WBU_R_CTRL", 0x4, .rw, 1, 0, false, 1, 4⟩,
  ⟨"WBU_R_STATUS", 0x8, .ro, 0, 0, false, 1, 4⟩,
  ⟨"WBU_R_INT_STATUS", 0x10, .w1c, 0x7, 0, false, 1, 4⟩,
  ⟨"WBU_R_INT_ENABLE", 0x14, .rw, 0x7, 0, false, 1, 4⟩,
  ⟨"WBU_R_JOBQ", 0x20, .rw, m18, 0, false, 1, 4⟩,
  ⟨"WBU_R_STOP", 0x24, .wo, 0, 0, false, 1, 4⟩,
  ⟨"WBU_R_CAP_DB", 0x28, .rw, 0xFFFF, 0x600, false, 1, 4⟩,
  ⟨"WBU_R_PDET_DB", 0x2C, .rw, 0xFFFF, 0x900, false, 1, 4⟩,
  ⟨"WBU_R_RLAG", 0x30, .rw, 0xFFFF, 0x96, false, 1, 4⟩,
  ⟨"WBU_R_RATE", 0x34, .ro, 0, 0, false, 1, 4⟩,
  ⟨"WBU_R_ERR_ADDR", 0x38, .ro, 0, 0, true, 1, 8⟩,
  ⟨"WBU_R_CNT", 0x100, .ro, 0, 0, true, 9, 8⟩]

/-- A cipher user page's registers (R453, R454). -/
def cphRows : List RegRow := [
  ⟨"CPH_PAGE_ID", 0x0, .ro, 0, 0x00010100, false, 1, 4⟩,
  ⟨"CPH_PAGE_STATUS", 0x4, .ro, 0, 0x10, false, 1, 4⟩,
  ⟨"CPH_INT_STATUS", 0x10, .w1c, 0x1F, 0, false, 1, 4⟩,
  ⟨"CPH_INT_ENABLE", 0x14, .rw, 0x1F, 0, false, 1, 4⟩,
  ⟨"CPH_SUBMIT", 0x20, .wo, 0, 0, true, 1, 8⟩,
  ⟨"CPH_KEY_SEL", 0x30, .rw, 0x3FF, 0, false, 1, 4⟩,
  ⟨"CPH_KEY_CMD", 0x34, .wo, 0, 0, false, 1, 4⟩,
  ⟨"CPH_KEY_FIXED", 0x38, .rw, m32, 0, false, 1, 4⟩,
  ⟨"CPH_KEY_CTR", 0x40, .rw, m64, 0, true, 1, 8⟩,
  ⟨"CPH_KEY_LIMIT", 0x48, .rw, m64, 0, true, 1, 8⟩,
  ⟨"CPH_KEY_STATE", 0x50, .ro, 0, 0, false, 1, 4⟩,
  ⟨"CPH_KEY_NEXT", 0x58, .ro, 0, 0, true, 1, 8⟩,
  ⟨"CPH_KEY_DATA", 0x80, .wo, 0, 0, false, 8, 4⟩,
  ⟨"CPH_CNT", 0x100, .ro, 0, 0, true, 7, 8⟩]

/-- The fronthaul's registers (R398 to R400). -/
def fhnRows : List RegRow := [
  ⟨"FHN_ID", 0x0, .ro, 0, 0x00010001, false, 1, 4⟩,
  ⟨"FHN_CTRL", 0x4, .rw, 1, 0, false, 1, 4⟩,
  ⟨"FHN_STATUS", 0x8, .ro, 0, 0x200, false, 1, 4⟩,
  ⟨"FHN_INT_STATUS", 0x10, .w1c, 0x7F, 0, false, 1, 4⟩,
  ⟨"FHN_INT_ENABLE", 0x14, .rw, 0x7F, 0, false, 1, 4⟩,
  ⟨"FHN_LATE_TOL", 0x20, .rw, 0xFFFF, 0x1F4, false, 1, 4⟩,
  ⟨"FHN_READ_LEAD", 0x24, .rw, 0xFFFF, 0x1388, false, 1, 4⟩,
  ⟨"FHN_LQ", 0x100, .rw, 0x801FFFFF, 0, false, 64, 4⟩,
  ⟨"FHN_PORT_CFG", 0x1000, .rw, 0x1F, 0, false, 8, 0x100⟩,
  ⟨"FHN_PORT_STATUS", 0x1004, .ro, 0, 0, false, 8, 0x100⟩,
  ⟨"FHN_PORT_MAC", 0x1008, .rw, 0xFFFFFFFFFFFF, 0, true, 8, 0x100⟩,
  ⟨"FHN_PORT_DA", 0x1010, .rw, 0xFFFFFFFFFFFF, 0, true, 8, 0x100⟩,
  ⟨"FHN_PORT_VID", 0x1018, .rw, 0xFFF, 0, false, 8, 0x100⟩,
  ⟨"FHN_RXWIN_EARLY", 0x101C, .rw, m32, 0, false, 8, 0x100⟩,
  ⟨"FHN_RXWIN_LATE", 0x1020, .rw, m32, 0x249F0, false, 8, 0x100⟩,
  ⟨"FHN_CNT0", 0x8000, .ro, 0, 0, true, 23, 8⟩,
  ⟨"FHN_CNT1", 0x8100, .ro, 0, 0, true, 23, 8⟩,
  ⟨"FHN_CNT2", 0x8200, .ro, 0, 0, true, 23, 8⟩,
  ⟨"FHN_CNT3", 0x8300, .ro, 0, 0, true, 23, 8⟩,
  ⟨"FHN_CNT4", 0x8400, .ro, 0, 0, true, 23, 8⟩,
  ⟨"FHN_CNT5", 0x8500, .ro, 0, 0, true, 23, 8⟩,
  ⟨"FHN_CNT6", 0x8600, .ro, 0, 0, true, 23, 8⟩,
  ⟨"FHN_CNT7", 0x8700, .ro, 0, 0, true, 23, 8⟩,
  ⟨"FHN_RULE", 0x20000, .rw, m32, 0, false, 2048, 4⟩,
  ⟨"FHN_RULE_ACT", 0x22000, .ro, 0, 0, false, 2048, 4⟩,
  ⟨"FHN_PLACE", 0x30000, .rw, m32, 0, false, 32768, 4⟩]

/-- The time unit's registers (R428 to R430). -/
def tmuRows : List RegRow := [
  ⟨"TMU_ID", 0x0, .ro, 0, 0x00010001, false, 1, 4⟩,
  ⟨"TMU_CTRL", 0x4, .rw, 7, 0, false, 1, 4⟩,
  ⟨"TMU_STATUS", 0x8, .ro, 0, 0, false, 1, 4⟩,
  ⟨"TMU_INT_STATUS", 0x10, .w1c, 0x7F, 0, false, 1, 4⟩,
  ⟨"TMU_INT_ENABLE", 0x14, .rw, 0x7F, 0, false, 1, 4⟩,
  ⟨"TMU_TIME", 0x20, .ro, 0, 0, true, 1, 8⟩,
  ⟨"TMU_TIME_FRAC", 0x28, .ro, 0, 0, false, 1, 4⟩,
  ⟨"TMU_RAW", 0x30, .ro, 0, 0, true, 1, 8⟩,
  ⟨"TMU_RTC", 0x38, .ro, 0, 0, true, 1, 8⟩,
  ⟨"TMU_INC", 0x40, .ro, 0, 0, true, 1, 8⟩,
  ⟨"TMU_FREQ", 0x48, .ro, 0, 0, false, 1, 4⟩,
  ⟨"TMU_INTEG", 0x4C, .ro, 0, 0, false, 1, 4⟩,
  ⟨"TMU_LAST_OFS", 0x50, .ro, 0, 0, true, 1, 8⟩,
  ⟨"TMU_STEP_HELD", 0x58, .ro, 0, 0, true, 1, 8⟩,
  ⟨"TMU_RTC_RATE", 0x60, .ro, 0, 0, false, 1, 4⟩,
  ⟨"TMU_HOLD_TIME", 0x64, .ro, 0, 0, false, 1, 4⟩,
  ⟨"TMU_MEAS_OFS", 0x68, .wo, 0, 0, true, 1, 8⟩,
  ⟨"TMU_MEAS_CTL", 0x70, .wo, 0, 0, false, 1, 4⟩,
  ⟨"TMU_PPS_IN_TS", 0x78, .ro, 0, 0, true, 1, 8⟩,
  ⟨"TMU_STEP_THRESH", 0x80, .rw, m32, 0x3E8, false, 1, 4⟩,
  ⟨"TMU_COARSE_MAX", 0x84, .rw, m32, 0x989680, false, 1, 4⟩,
  ⟨"TMU_KP", 0x88, .rw, 0xFFFF, 0x51F, false, 1, 4⟩,
  ⟨"TMU_KI", 0x8C, .rw, 0xFFFF, 0x42, false, 1, 4⟩,
  ⟨"TMU_MAX_ADJ", 0x90, .rw, m32, 0xC350, false, 1, 4⟩,
  ⟨"TMU_LOCK_THRESH", 0x94, .rw, m32, 0x64, false, 1, 4⟩,
  ⟨"TMU_UNLOCK_THRESH", 0x98, .rw, m32, 0x1F4, false, 1, 4⟩,
  ⟨"TMU_COUNTS", 0x9C, .rw, 0xFFFF, 0x410, false, 1, 4⟩,
  ⟨"TMU_MEAS_TIMEOUT", 0xA0, .rw, m32, 0x7D0, false, 1, 4⟩,
  ⟨"TMU_HOLD_LIMIT", 0xA4, .rw, m32, 0x3840, false, 1, 4⟩,
  ⟨"TMU_SYNCE_CFG", 0xA8, .rw, 0x1F1F, 0, false, 1, 4⟩,
  ⟨"TMU_PPS_CFG", 0xAC, .rw, 0x10FFFFF, 0x186A0, false, 1, 4⟩,
  ⟨"TMU_PPS_IN_DELAY", 0xB0, .rw, m32, 0, false, 1, 4⟩,
  ⟨"TMU_PORT_RXD", 0x100, .rw, m32, 0, false, 9, 8⟩,
  ⟨"TMU_PORT_TXD", 0x104, .rw, m32, 0, false, 9, 8⟩,
  ⟨"TMU_TDD_PERIOD", 0x200, .rw, m32, 0, false, 1, 4⟩,
  ⟨"TMU_TDD_INIT", 0x204, .rw, 0xFFFF, 0, false, 1, 4⟩,
  ⟨"TMU_TDD_SAFE", 0x208, .rw, 0xFFFF, 0, false, 1, 4⟩,
  ⟨"TMU_TDD_NEV", 0x20C, .rw, 0xFF, 0, false, 1, 4⟩,
  ⟨"TMU_TDD_CMD", 0x210, .wo, 0, 0, false, 1, 4⟩,
  ⟨"TMU_TDD_ADV", 0x240, .rw, m32, 0, false, 16, 4⟩,
  ⟨"TMU_FRAME_OFS", 0x300, .rw, m64, 0, true, 1, 8⟩,
  ⟨"TMU_CNT", 0x800, .ro, 0, 0, true, 9, 8⟩,
  ⟨"TMU_TDD_EV", 0x1000, .rw, m64, 0, true, 128, 8⟩,
  ⟨"TMU_TDD_EV_ACT", 0x1400, .ro, 0, 0, true, 128, 8⟩]

/-- The registers of the memory controllers and integrity unit (R365 to R367). -/
def memRows : List RegRow := [
  ⟨"MEM_ID", 0x0, .ro, 0, 0x00010001, false, 1, 4⟩,
  ⟨"MEM_CTRL", 0x4, .rw, 3, 1, false, 1, 4⟩,
  ⟨"MEM_STATUS", 0x8, .ro, 0, 0, false, 1, 4⟩,
  ⟨"MEM_INT_STATUS", 0x10, .w1c, 0x7F, 0, false, 1, 4⟩,
  ⟨"MEM_INT_ENABLE", 0x14, .rw, 0x7F, 0, false, 1, 4⟩,
  ⟨"MEM_DDR_CFG", 0x20, .rw, 0xFFF, 0, false, 1, 4⟩,
  ⟨"MEM_DDR_VISIBLE", 0x24, .ro, 0, 0, false, 1, 4⟩,
  ⟨"MEM_GOAT_PERIOD", 0x30, .rw, 0x0FFF00FF, 0x003C0018, false, 1, 4⟩,
  ⟨"MEM_GOAT_POS", 0x38, .ro, 0, 0, true, 1, 8⟩,
  ⟨"MEM_LOG_PI", 0x40, .ro, 0, 0, false, 1, 4⟩,
  ⟨"MEM_LOG_CI", 0x44, .rw, m32, 0, false, 1, 4⟩,
  ⟨"MEM_POOL_RETIRE", 0x50, .rw, 0xFFFF, 0, false, 1, 4⟩,
  ⟨"MEM_CLUSTER_RETIRE", 0x54, .rw, 0xFFFFFF, 0, false, 1, 4⟩,
  ⟨"MEM_POOL_RETAIN", 0x58, .rw, 0xFFFF, 0, false, 1, 4⟩,
  ⟨"MEM_RET_RESULT", 0x5C, .ro, 0, 0, false, 1, 4⟩,
  ⟨"MEM_RETIRE_SEL", 0x60, .rw, 0xFF, 0, false, 1, 4⟩,
  ⟨"MEM_RETIRE_ENTRY", 0x68, .rw, 0x80000000007FFFFF, 0, true, 1, 8⟩,
  ⟨"MEM_CNT", 0x100, .ro, 0, 0, true, 14, 8⟩,
  ⟨"MEM_LOG", 0x10000, .ro, 0, 0, false, 8192, 4⟩]

/-- The power status registers (R479, R480). -/
def pwrRows : List RegRow := [
  ⟨"PWR_ID", 0x0, .ro, 0, 0x00010001, false, 1, 4⟩,
  ⟨"PWR_MODE", 0x4, .ro, 0, 0, false, 1, 4⟩,
  ⟨"PWR_STATUS", 0x8, .ro, 0, 0, false, 1, 4⟩,
  ⟨"PWR_INT_STATUS", 0x10, .w1c, 0x1F, 0, false, 1, 4⟩,
  ⟨"PWR_INT_ENABLE", 0x14, .rw, 0x1F, 0, false, 1, 4⟩,
  ⟨"PWR_VCORE", 0x20, .ro, 0, 0, false, 1, 4⟩,
  ⟨"PWR_CLUSTER", 0x40, .ro, 0, 0, false, 24, 4⟩,
  ⟨"PWR_CLASS", 0xC0, .ro, 0, 0, false, 8, 4⟩,
  ⟨"PWR_MOVERS", 0xE0, .ro, 0, 0, true, 1, 8⟩,
  ⟨"PWR_ENTRY_REC", 0x100, .ro, 0, 0, true, 1, 8⟩,
  ⟨"PWR_ENTRY_TIME", 0x108, .ro, 0, 0, true, 1, 8⟩,
  ⟨"PWR_WAKE_REC", 0x110, .ro, 0, 0, false, 8, 4⟩,
  ⟨"PWR_REFUSE_CNT", 0x200, .ro, 0, 0, true, 22, 8⟩,
  ⟨"PWR_CNT", 0x400, .ro, 0, 0, true, 7, 8⟩]

/-- The observation registers (R552). -/
def obsRows : List RegRow := [
  ⟨"OBS_ID", 0x0, .ro, 0, 0x00010001, false, 1, 4⟩,
  ⟨"OBS_CTRL", 0x4, .rw, 7, 0, false, 1, 4⟩,
  ⟨"OBS_STATUS", 0x8, .ro, 0, 0, false, 1, 4⟩,
  ⟨"OBS_INT_STATUS", 0x10, .w1c, 7, 0, false, 1, 4⟩,
  ⟨"OBS_INT_ENABLE", 0x14, .rw, 7, 0, false, 1, 4⟩,
  ⟨"OBS_TRACE_BASE", 0x20, .rw, m40, 0, true, 1, 8⟩,
  ⟨"OBS_TRACE_CFG", 0x28, .rw, 0x1F, 0x10, false, 1, 4⟩,
  ⟨"OBS_TRACE_WP", 0x30, .ro, 0, 0, true, 1, 8⟩,
  ⟨"OBS_TRACE_KINDS", 0x38, .rw, 0xFFFF, 0, false, 1, 4⟩,
  ⟨"OBS_TRACE_CORES", 0x40, .rw, m32, 0, false, 6, 4⟩,
  ⟨"OBS_SNAP", 0x60, .wo, 0, 0, false, 1, 4⟩,
  ⟨"OBS_SNAP_TIME", 0x68, .ro, 0, 0, true, 1, 8⟩,
  ⟨"OBS_CNT", 0x10000, .ro, 0, 0, true, 4096, 8⟩,
  ⟨"OBS_SNAP_CNT", 0x20000, .ro, 0, 0, true, 4096, 8⟩]

/-- The mailbox registers that BAR0 shows (R511). -/
def supRows : List RegRow := [
  ⟨"SUP_MB_ID", 0x0, .ro, 0, 0x00010001, false, 1, 4⟩,
  ⟨"SUP_MB_DOORBELL", 0x4, .wo, 0, 0, false, 1, 4⟩,
  ⟨"SUP_MB_STATUS", 0x8, .ro, 0, 0, false, 1, 4⟩,
  ⟨"SUP_MB_RESP_LEN", 0xC, .ro, 0, 0, false, 1, 4⟩,
  ⟨"SUP_MB_INT_STATUS", 0x10, .w1c, 0xF, 0, false, 1, 4⟩,
  ⟨"SUP_MB_INT_ENABLE", 0x14, .rw, 0xF, 0, false, 1, 4⟩,
  ⟨"SUP_MB_VECTOR", 0x18, .rw, 0x7FF, 0, false, 1, 4⟩,
  ⟨"SUP_MB_APERTURE", 0x1C, .rw, 0x1FF, 0, false, 1, 4⟩,
  ⟨"SUP_MB_NOTIFY_PI", 0x20, .ro, 0, 0, false, 1, 4⟩,
  ⟨"SUP_MB_NOTIFY_CI", 0x24, .rw, m32, 0, false, 1, 4⟩,
  ⟨"SUP_MB_CNT_BAR_ERR", 0x28, .ro, 0, 0, false, 1, 4⟩,
  ⟨"SUP_MB_CNT_NOTIFY_DROP", 0x2C, .ro, 0, 0, false, 1, 4⟩,
  ⟨"SUP_MB_REQ", 0x1000, .rw, m32, 0, false, 2048, 4⟩,
  ⟨"SUP_MB_RESP", 0x3000, .ro, 0, 0, false, 2048, 4⟩,
  ⟨"SUP_MB_NOTIFY", 0x5000, .ro, 0, 0, false, 2048, 4⟩,
  ⟨"MSIX_PBA", 0x7000, .ro, 0, 0, false, 64, 4⟩,
  ⟨"MSIX_TABLE", 0x8000, .rw, m32, 0, false, 8192, 4⟩]

/-! Window bases (R19, R200, R241, R272). -/

def smdBase : Nat := 0x300000000
def qmgBase : Nat := 0x300100000
def bmvBase (m : Nat) : Nat := 0x300200000 + m * 0x10000
def benBase (e : Nat) : Nat := 0x300400000 + e * 0x10000
def decBase (e : Nat) : Nat := 0x300500000 + e * 0x8000
def encBase (e : Nat) : Nat := 0x300560000 + e * 0x8000
def codecBase : Nat := 0x300580000
def xfuBase (u : Nat) : Nat := 0x300600000 + u * 0x8000
def wbuGBase (g : Nat) : Nat := 0x300700000 + g * 0x8000
def wbuRBase (r : Nat) : Nat := 0x300740000 + r * 0x8000
def cphBase (u : Nat) : Nat := 0x300800000 + u * 0x1000
def fhnBase : Nat := 0x300900000
def tmuBase : Nat := 0x300A00000
def memBase : Nat := 0x300B00000
def pwrBase : Nat := 0x300C00000
def obsBase : Nat := 0x300D00000
/-- BAR0 has no global address (R19); its registers are kept above the 40-bit address space. -/
def supBase : Nat := 0x10000000000

/-- Every register window with rows of its own. -/
def regWins : List RegWin := [
  ⟨smdBase, 0x100000, 1, smdRows⟩,
  ⟨qmgBase, 0x100000, 1, qmgRows⟩,
  ⟨bmvBase 0, 0x10000, 32, bmvRows⟩,
  ⟨benBase 0, 0x10000, 12, benRows⟩,
  ⟨decBase 0, 0x8000, 12, fecRows 0x00010100 true⟩,
  ⟨encBase 0, 0x8000, 4, fecRows 0x00010110 false⟩,
  ⟨codecBase, 0x8000, 1, fecRows 0x00010120 false⟩,
  ⟨xfuBase 0, 0x8000, 8, xfuRows⟩,
  ⟨wbuGBase 0, 0x8000, 4, wbuGRows⟩,
  ⟨wbuRBase 0, 0x8000, 4, wbuRRows⟩,
  ⟨cphBase 0, 0x1000, 64, cphRows⟩,
  ⟨fhnBase, 0x100000, 1, fhnRows⟩,
  ⟨tmuBase, 0x100000, 1, tmuRows⟩,
  ⟨memBase, 0x100000, 1, memRows⟩,
  ⟨pwrBase, 0x100000, 1, pwrRows⟩,
  ⟨obsBase, 0x100000, 1, obsRows⟩,
  ⟨supBase, 0x10000, 1, supRows⟩]

/-- The windows of R19, unmapped sub-windows included: base and size. -/
def windowSpans : List (Nat × Nat) := [
  (smdBase, 0x100000), (qmgBase, 0x100000), (bmvBase 0, 0x200000), (benBase 0, 0xC0000),
  (0x300500000, 0x100000), (0x300600000, 0x100000), (0x300700000, 0x100000), (cphBase 0, 0x40000),
  (fhnBase, 0x100000), (tmuBase, 0x100000), (memBase, 0x100000), (pwrBase, 0x100000), (obsBase, 0x100000)]

/-- An address lies in a register window of R19. -/
def inWindow (a : Nat) : Bool := windowSpans.any (fun w => decide (w.1 ≤ a) && decide (a < w.1 + w.2))

/-- A word offset lies in a row. -/
def RegRow.covers (r : RegRow) (o : Nat) : Bool :=
  decide (r.off ≤ o) && decide (o < r.off + r.stride * r.count)
    && decide ((o - r.off) % r.stride < (if r.wide then 8 else 4))

/-- Where a word lies: its window, its copy and its row. -/
structure RegPlace where
  win  : RegWin
  copy : Nat
  off  : Nat
  row  : RegRow
  deriving DecidableEq, Repr

/-- The register a word address names, if a map names one (R10). -/
def regPlace (a : Nat) : Option RegPlace :=
  match regWins.find? (fun w => decide (w.base ≤ a) && decide (a < w.base + w.span * w.copies)) with
  | none => none
  | some w =>
    let o := (a - w.base) % w.span
    match w.rows.find? (fun r => r.covers o) with
    | none => none
    | some r => some ⟨w, (a - w.base) / w.span, o, r⟩

/-- The element of its row that a place names. -/
def RegPlace.index (p : RegPlace) : Nat := (p.off - p.row.off) / p.row.stride

/-- The half of a 64-bit register that a place names: 0 low, 1 high. -/
def RegPlace.half (p : RegPlace) : Nat := if p.row.wide then ((p.off - p.row.off) % p.row.stride) / 4 else 0

/-- The writable bits of a word. -/
def RegPlace.mask (p : RegPlace) : BitVec 32 := BitVec.ofNat 32 (p.row.mask >>> (32 * p.half))

/-- The reset value of a word (R12); unmapped words read 0 (R10); FHN_PORT_MAC comes from fuses (R398);
the MSI-X vectors are masked, as PCIe has them (R511, assumption log 9). -/
def regReset (a : Nat) : BitVec 32 :=
  match regPlace a with
  | none => 0
  | some p =>
    if p.win.base = fhnBase && p.row.off = 0x1008 then
      BitVec.ofNat 32 ((Config.portMac p.index).toNat >>> (32 * p.half))
    else if p.win.base = supBase && p.row.off = 0x8000 then (if p.index % 4 = 3 then 1 else 0)
    else BitVec.ofNat 32 ((p.row.reset >>> (32 * p.half)) + (if p.off = 0 then p.copy else 0))

/-- Reset values of the core-local control registers by offset (R115, R121, R162). -/
def ctlReset (o : Nat) : BitVec 32 :=
  if o = 0x50 ∨ o = 0x54 then 0xFFFFFFFF else if o = 0x90 then 1 else 0

end Sys2Proof.Machine
end

