-- ==== Sys2Proof/Machine/Dev.lean ====
section
/-!
DEFINITION. The device's state but for the command queue and the vault: registers, memories and every unit.
-/
namespace Sys2Proof.Machine

/-- A Doze entry under way: the unit, the abort points passed, its state before, and a wake that came after A4 (R465). -/
structure DozeEntry where
  unit   : Nat
  passed : Nat
  before : Power
  wake   : Bool := false
  deriving DecidableEq, Repr

/-- Power, modes and gating (spec/15). -/
structure PowerState where
  mode : Nat := 0
  unit : Tab Power := []
  since : Tab Nat := []         -- raw count at which a unit entered Nap or Doze
  deadlineHit : Bool := false   -- an instance was cancelled with cause DEADLINE (R459)
  entering : List DozeEntry := []
  leaving  : Bool := false      -- a Service mode is being left for Standby (R457)
  dormStep : Option Nat := none -- Dormant entry under way: abort points passed
  wakeSrc  : Option Nat := none -- wake source that woke the device from Dormant (R471)
  sleepRtc : Nat := 0           -- TMU_RTC when Dormant was reached
  thermWarn : Bool := false
  thermTrip : Bool := false     -- THERM_TRIP_N is low
  wakeLow   : Bool := false     -- WAKE_N is driven low by the device
  faultLow  : Bool := false     -- FAULT_N is low
  refGone : Bool := false       -- REFCLK has been absent since Dormant was reached (R474)
  wakeStuck : Bool := false     -- a regulator failed during a Dormant wake (R476)
  quietFrom : Option Nat := none  -- raw count since which the busy fraction has been below the down threshold (R459)
  vcore : Nat := 750            -- VDD_CORE target, mV (R475, R557)
  vread : Nat := 750            -- VDD_CORE read-back, mV
  deriving DecidableEq, Repr

/-- An in-service calibration target (R483 to R492); temperatures in 1/8 °C. -/
structure CalTarget where
  inUse   : Bool := false
  tlast   : Option Int := none
  running : Bool := false
  began   : Nat := 0            -- raw count at which the last run began
  due     : Nat := 0            -- raw count since which the next step is due
  moves   : Nat := 0            -- tap moves of the run
  taps    : Tab (Option Int) := []  -- taps moved from their trained places
  rTime   : Nat := 0
  rStart  : Int := 0
  rStatus : Nat := 3
  rMoves  : Nat := 0
  deriving DecidableEq, Repr

/-- An analogue trim's record (R490, R491). -/
structure TrimState where
  time   : Nat := 0
  start  : Int := 0
  status : Nat := 0
  due    : Bool := false
  deriving DecidableEq, Repr

/-- Calibration and sensing (spec/16). -/
structure CalState where
  sensors : Tab (Option Int) := []   -- readings; none is invalid
  volts   : Tab Nat := []            -- monitor readings, mV
  targets : Tab CalTarget := []
  trims   : Tab TrimState := []
  trimRun : Option Nat := none       -- trims of a run started from Standby, by bit, while it is in progress
  deriving DecidableEq, Repr

/-- A parameter change that Supervisor notifies (R508): type code of R496 and value. -/
structure Notice where
  area : Nat
  item : Nat
  elem : Nat
  ty   : Nat
  val  : List (BitVec 8)
  deriving DecidableEq, Repr

/-- Segments of a BLOB write held until they are complete (R502). -/
structure HeldBlob where
  area : Nat
  item : Nat
  elem : Nat
  total : Nat
  data : List (BitVec 8)
  deriving DecidableEq, Repr

/-- A client's session (R504, R505, R512). -/
structure Session where
  id     : Nat := 0
  src    : Nat := 0               -- source address
  asked  : Nat := 0               -- privilege requested
  priv   : Nat := 0
  authed : Bool := false
  macced : Bool := false          -- messages carry a MAC
  chal   : List (BitVec 8) := []
  key    : List (BitVec 8) := []
  seq    : Nat := 0               -- previous SEQ
  lastReq  : List (BitVec 8) := []
  lastResp : List (BitVec 8) := []
  blob   : Option HeldBlob := none
  valid  : Nat := 0               -- raw count of the last valid message
  nseq   : Nat := 0               -- notifications sent
  deriving DecidableEq, Repr

/-- A message that Supervisor sent to a NAP source (R500). -/
structure NapOut where
  src : Nat
  msg : List (BitVec 8)
  deriving DecidableEq, Repr

/-- Supervisor: mailbox, sessions, credentials and profiles (spec/17). -/
structure SupState where
  slot    : Option Nat := none      -- active profile slot (R516)
  lastSlot : Option Nat := none     -- slot last loaded successfully, in the always-on domain (R516)
  pins    : Nat := 0                -- PROFILE[1:0] as sampled
  loadStatus : Nat := 0             -- P 0x02.0011
  loads   : List Nat := [0, 0, 0, 0]  -- P 0x02.0020 and 0x02.0021
  ready   : Bool := false           -- READY
  respValid : Bool := false
  linkUp  : Bool := false           -- the PCIe link is up
  perst   : Bool := true            -- PCIE_PERST_N is asserted
  mb      : Session := { id := 1 }  -- the mailbox session
  sessions : List Session := []
  nextId  : Nat := 0x100
  fails   : List (Nat × Nat) := []  -- AUTH_FAIL results: source, raw count
  blocked : List (Nat × Nat) := []  -- blocked sources: source, raw count at which the block began
  creds   : Tab (List (BitVec 8)) := []   -- credential keys by privilege
  out     : List NapOut := []
  images  : List (Nat × List (BitVec 8)) := []   -- what the signal bundle loads: addresses and bytes (R472, R527)
  bundleVer : Nat := 0              -- VERSION of the loaded signal bundle
  bundleOk : Bool := false          -- a signal bundle has been loaded
  fromPins : Bool := false          -- this start followed PORST_N: the profile of the pins is to be loaded (R516)
  supVer  : Nat := 0                -- VERSION of the running Supervisor image
  starts  : Nat := 0                -- starts of the boot chain so far
  deriving DecidableEq, Repr

/-- Update state held in Supervisor's private space (R529 to R532). -/
structure UpdState where
  state   : Nat := 0                -- codes of R530
  owner   : Nat := 0                -- session that holds the lock; 0 none, 2^32 - 1 the device
  target  : Nat := 0
  got     : Nat := 0                -- bytes received
  trialAt : Nat := 0                -- raw count of the trial boot's release of reset
  trial   : Bool := false           -- a trial boot runs
  checked : Bool := false           -- the built-in check has passed
  bootMode : Nat := 0               -- BOOT_MODE[2:0] as sampled
  recovery : Bool := false          -- the ROM recovery loader runs (R536)
  image   : List (BitVec 8) := []   -- image received by the ROM recovery loader, held in Pool
  backTo  : Nat := 0                -- state to return to when a schedule is cleared
  goal    : Nat := 0                -- what waits for Standby: 0 nothing, 1 an activation, 2 a restart after a fall-back
  badWrite : Bool := false          -- Mule will meet a second read-back mismatch (an input of ACTIVATE)
  answer  : Nat := 0                -- status of the last update command
  deriving DecidableEq, Repr

/-- The pins, straps and the test port (spec/20). -/
structure PinState where
  refFast : Bool := false       -- REFCLK frequency select: false 30.72 MHz, true 61.44 MHz
  porst   : Bool := true        -- PORST_N is low
  sysrst  : Bool := false       -- SYSRST_N is low
  b1      : Bool := false       -- bank B1 is enabled, TDD_CTL and GPIO apart (R563)
  tddOn   : Bool := false       -- TDD_CTL drives
  gpioOn  : Bool := false       -- GPIO drives
  gpioCfg : List Nat := []      -- applied GPIO configuration (R567)
  gpioDrive : BitVec 32 := 0
  gpioIn  : BitVec 32 := 0      -- levels as last sampled
  jtagIr  : Nat := 0            -- 0 none (Test-Logic-Reset), 1 BYPASS, 2 IDCODE, 3 SAMPLE/PRELOAD, 4 EXTEST
  jtagData : Nat := 0           -- the selected data register, as it is shifted out
  preload : Nat := 0            -- boundary-scan output cells
  extest  : Bool := false       -- the cells drive the balls
  deriving DecidableEq, Repr

structure Dev where
  regs   : Tab (BitVec 32) := []
  mem    : MemState := {}
  q      : QueueState := {}
  smd    : SmildaState := {}
  cores  : Tab Core := []
  cx     : Tab Attached := []
  movers : Tab Mover := []
  engs   : Tab Engine := []    -- by power index of the engine (class and number)
  cph    : CphState := {}
  wbr    : Tab Receiver4 := []
  fhn    : FhnState := {}
  time   : TimeState := {}
  obs    : ObsState := {}
  pwr    : PowerState := {}
  sup    : SupState := {}
  cal    : CalState := {}
  upd    : UpdState := {}
  pins   : PinState := {}
  dict    : Tab (List (BitVec 8)) := []   -- current values of the parameter dictionary (R498)
  fresh  : Nat := 0
  deriving DecidableEq, Repr

end Sys2Proof.Machine
end

