-- ==== Sys2Proof/Machine/Ops.lean ====
section
/-!
DEFINITION. The named operations over registers, device time, counters, free values, trace and fault records.
-/
namespace Sys2Proof.Machine

/-! ### Registers, as stored -/

/-- The stored value of a register word. -/
def Dev.reg (d : Dev) (a : Nat) : BitVec 32 := Tab.get regReset d.regs a

/-- The stored value of a register word as a number. -/
def Dev.regN (d : Dev) (a : Nat) : Nat := (d.reg a).toNat

/-- Store a register word. -/
def Dev.setReg (d : Dev) (a : Nat) (v : BitVec 32) : Dev := { d with regs := Tab.put regReset d.regs a v }

/-- Store a register word given as a number. -/
def Dev.setRegN (d : Dev) (a : Nat) (v : Nat) : Dev := d.setReg a (BitVec.ofNat 32 v)

/-- The stored value of a 64-bit register. -/
def Dev.reg64 (d : Dev) (a : Nat) : Nat := d.regN a + 2 ^ 32 * d.regN (a + 4)

/-- Store a 64-bit register. -/
def Dev.setReg64 (d : Dev) (a : Nat) (v : Nat) : Dev :=
  (d.setRegN a v).setRegN (a + 4) (v >>> 32)

/-- Add to a 64-bit wrapping counter. -/
def Dev.bumpBy (d : Dev) (a n : Nat) : Dev := d.setReg64 a ((d.reg64 a + n) % 2 ^ 64)

/-- Count one event in a 64-bit wrapping counter. -/
def Dev.bump (d : Dev) (a : Nat) : Dev := d.bumpBy a 1

/-- Count one event in a 32-bit wrapping counter. -/
def Dev.bump32 (d : Dev) (a : Nat) : Dev := d.setReg a (d.reg a + 1)

/-- Set bits of an interrupt status register. -/
def Dev.setBits (d : Dev) (a : Nat) (m : Nat) : Dev := d.setReg a (d.reg a ||| BitVec.ofNat 32 m)

/-- Store bytes in consecutive register words (staging entries, buffers, log entries). -/
def Dev.setRegBytes (d : Dev) (a : Nat) (bs : List Byte) : Dev :=
  (List.range (ceilDiv bs.length 4)).foldl (fun d i => d.setRegN (a + 4 * i) (leAt bs (4 * i) 4)) d

/-- Bytes of consecutive register words. -/
def Dev.regBytes (d : Dev) (a n : Nat) : List Byte :=
  ((List.range (ceilDiv n 4)).flatMap (fun i => leBytes 4 (d.regN (a + 4 * i)))).take n

/-! ### Units held in tables -/

/-- A core's state. -/
def Dev.core (d : Dev) (c : Nat) : Core := Tab.get (fun _ => {}) d.cores c

/-- Replace a core's state. -/
def Dev.setCore (d : Dev) (c : Nat) (k : Core) : Dev := { d with cores := Tab.put (fun _ => {}) d.cores c k }

/-- A mover's state. -/
def Dev.mover (d : Dev) (m : Nat) : Mover := Tab.get (fun _ => {}) d.movers m

/-- Replace a mover's state. -/
def Dev.setMover (d : Dev) (m : Nat) (v : Mover) : Dev := { d with movers := Tab.put (fun _ => {}) d.movers m v }

/-- A mover channel. -/
def Dev.chan (d : Dev) (m k : Nat) : Chan := Tab.get (fun _ => {}) (d.mover m).chans k

/-- Replace a mover channel. -/
def Dev.setChan (d : Dev) (m k : Nat) (c : Chan) : Dev :=
  let v := d.mover m
  d.setMover m { v with chans := Tab.put (fun _ => {}) v.chans k c }

/-- A queue. -/
def Dev.queue (d : Dev) (q : Nat) : Queue := Tab.get (fun _ => {}) d.q.queues q

/-- Replace a queue. -/
def Dev.setQueue (d : Dev) (q : Nat) (v : Queue) : Dev :=
  { d with q := { d.q with queues := Tab.put (fun _ => {}) d.q.queues q v } }

/-- An instance slot. -/
def Dev.slot (d : Dev) (i : Nat) : Slot := Tab.get (fun _ => {}) d.smd.slots i

/-- Replace an instance slot. -/
def Dev.setSlot (d : Dev) (i : Nat) (v : Slot) : Dev :=
  { d with smd := { d.smd with slots := Tab.put (fun _ => {}) d.smd.slots i v } }

/-- The attached units of a cluster. -/
def Dev.attached (d : Dev) (k : Nat) : Attached := Tab.get (fun _ => {}) d.cx k

/-- Replace the attached units of a cluster. -/
def Dev.setAttached (d : Dev) (k : Nat) (v : Attached) : Dev :=
  { d with cx := Tab.put (fun _ => {}) d.cx k v }

/-! ### Units and their numbers -/

/-- Engines of a Smilda class (R35): beam, decoder, encoder, codec, transform, generator, lite and bulk cipher. -/
def classSize (cls : Nat) : Nat :=
  match cls with
  | 0 => 12 | 1 => 12 | 2 => 4 | 3 => 1 | 4 => 8 | 5 => 4 | 6 => 8 | 7 => 4 | 8 => 32 | _ => 0

/-- The cipher engines' staging entries have no global address (R431); they are kept above the 40-bit address space. -/
def cphPrivate (e : Nat) : Nat := 0x20000000000 + e * 0x8000

/-- Register window of an engine of a class; class 8 is a mover. -/
def engBase (cls u : Nat) : Nat :=
  match cls with
  | 0 => benBase u | 1 => decBase u | 2 => encBase u | 3 => codecBase | 4 => xfuBase u | 5 => wbuGBase u
  | 6 => cphPrivate u | 7 => cphPrivate (8 + u) | 8 => bmvBase u | _ => 0

/-- Offset of the staging entries in an engine's window. -/
def stageOff (cls : Nat) : Nat := if cls = 0 ∨ cls = 8 then 0x8000 else 0x4000

/-- Where staging entry `k` of an engine is kept (R165). -/
def stageAddr (cls u k : Nat) : Nat := engBase cls u + stageOff cls + 0x100 * k

/-- The name of staging entry `k` in a job entry's DESC_ADDR: its address; for the cipher engines, which have no global
address for it, 256 × k (assumption log 11). -/
def stageName (cls u k : Nat) : Nat := if cls = 6 ∨ cls = 7 then 0x100 * k else stageAddr cls u k

/-- Index of a unit's power state: clusters 0 to 23, cores 32 on, engines 256 + 32 × class, movers as class 8,
burst receivers as class 9. -/
def pwrCluster (k : Nat) : Nat := k
def pwrCore (c : Nat) : Nat := 32 + c
def pwrEng (cls u : Nat) : Nat := 256 + 32 * cls + u

/-- Power state of a unit; unlisted units are Active. -/
def Dev.power (d : Dev) (i : Nat) : Power := Tab.get (fun _ => .active) d.pwr.unit i

/-- Elapsed whole ns since a raw count (R402). -/
def Dev.nsSince (d : Dev) (raw : Nat) : Nat := ((d.time.raw - raw) * d.time.inc) >>> 32

/-- Set a unit's power state; the time it spent in Nap or Doze is counted when it leaves (R460, R480). -/
def Dev.setPower (d : Dev) (i : Nat) (p : Power) : Dev :=
  let old := d.power i
  if old = p then d
  else
    let ns := d.nsSince (Tab.get (fun _ => 0) d.pwr.since i)
    let d := match old with
      | .nap => d.bumpBy (pwrBase + 0x428) ns
      | .doze => d.bumpBy (pwrBase + 0x430) ns
      | _ => d
    let since := if p = .nap || p = .doze then d.time.raw else 0
    { d with pwr := { d.pwr with
      unit := Tab.put (fun _ => .active) d.pwr.unit i p, since := Tab.put (fun _ => 0) d.pwr.since i since } }

/-- The codes of R460's states in status registers. -/
def Power.code : Power → Nat
  | .active => 0 | .nap => 1 | .doze => 2 | .off => 3

/-- A core's power state: its cluster's while that is Doze or Off, else its own (R460). -/
def Dev.corePower (d : Dev) (c : Nat) : Power :=
  match d.power (pwrCluster (c / 8)) with
  | .doze => .doze
  | .off => .off
  | _ => d.power (pwrCore c)

/-- Class and number of an agent in log entries and fault records (R358). -/
def Agent.code : Agent → Nat × Nat
  | .core c => (0, c)
  | .beam e => (1, e)
  | .decoder e => (2, e)
  | .encoder e => (3, e)
  | .xfu u => (4, u)
  | .wake u => (5, u)
  | .mover m => (6, m)
  | .queueMgr => (7, 0)
  | .smilda => (8, 0)
  | .fronthaul p => (9, p)
  | .cipher e => (10, e)
  | .host => (11, 0)
  | .supervisor => (12, 0)
  | .goat => (13, 0)
  | .walk => (14, 0)

/-- REQUESTER field of R358. -/
def Agent.word (a : Agent) : Nat := a.code.1 * 4096 + a.code.2

/-- The agent that an engine of a Smilda class is. -/
def engAgent (cls u : Nat) : Agent :=
  match cls with
  | 0 => .beam u | 1 => .decoder u | 2 => .encoder u | 3 => .encoder 4 | 4 => .xfu u | 5 => .wake u
  | 6 => .cipher u | 7 => .cipher (8 + u) | _ => .mover u

/-- An engine's jobs. -/
def Dev.eng (d : Dev) (cls u : Nat) : Engine := Tab.get (fun _ => {}) d.engs (pwrEng cls u)

/-- Replace an engine's jobs. -/
def Dev.setEng (d : Dev) (cls u : Nat) (e : Engine) : Dev :=
  { d with engs := Tab.put (fun _ => {}) d.engs (pwrEng cls u) e }

/-! ### Device time (R401, R402) -/

/-- Device time with 32 fractional bits, modulo 2^96. -/
def TimeState.fix (t : TimeState) : Nat := (t.base + (t.raw + 2 ^ 64 - t.cbase) % 2 ^ 64 * t.inc) % 2 ^ 96

/-- Device time in ns, modulo 2^64 (R402). -/
def Dev.now (d : Dev) : Nat := (d.time.fix >>> 32) % 2 ^ 64

/-- The time state is locked (R405). -/
def TimeState.locked (t : TimeState) : Bool := t.state = .locked || t.state = .holdover

/-- Code of a time state (R405). -/
def TState.code : TState → Nat
  | .freeRun => 0 | .acquiring => 1 | .locked => 2 | .holdover => 3 | .expired => 4 | .coarse => 5

/-- No deadline (R39). -/
def noDeadline : Nat := 2 ^ 64 - 1

/-- DEADLINE minus TIME, signed (R41). -/
def marginOf (deadline time : Nat) : Int := (deadline : Int) - (time : Int)

/-! ### Free values -/

/-- The next free value of `w` bits: it depends on the state's counter alone (assumption log 2). -/
def Dev.freeBits (d : Dev) (w : Nat) : BitVec w := Config.free d.fresh w

/-- Count a free value used. -/
def Dev.used (d : Dev) : Dev := { d with fresh := d.fresh + 1 }

/-- A free choice among `n` positions (0 when `n` is 0). -/
def Dev.freeBelow (d : Dev) (n : Nat) : Nat := if n = 0 then 0 else (Config.choose d.fresh (n - 1)).val

/-! ### Trace (R540 to R542) -/

/-- Add to a counter that the observation fabric keeps at 64 bits, by its catalogue index (R538, R539). -/
def Dev.catCount (d : Dev) (i n : Nat) : Dev :=
  let v := Tab.get (fun _ => 0) d.obs.cnt i + BitVec.ofNat 64 n
  { d with obs := { d.obs with cnt := Tab.put (fun _ => 0) d.obs.cnt i v } }

/-- Counters of the observation unit: 0 TRACE_RECORDS, 1 TRACE_DROP, 2 FAULT_RECORDS, 3 FAULT_COALESCED, 4 FAULT_OVF,
5 DUMPS (R538). -/
def Dev.obsCount (d : Dev) (i n : Nat) : Dev := d.catCount (0xE0 + i) n

/-- Count an event of a core: 0 CTK_EXC_CNT, 1 CTK_IRQ_CNT, 2 CXU_BUSY_CNT, 3 CXU_KILL_CNT (R538, R539). -/
def Dev.coreCount (d : Dev) (c i n : Nat) : Dev :=
  let off := match i with | 0 => 0x80 | 1 => 0x84 | 2 => 0x114 | _ => 0x118
  let k := d.core c
  let v := Tab.get ctlReset k.ctl off + BitVec.ofNat 32 n
  (d.setCore c { k with ctl := Tab.put ctlReset k.ctl off v }).catCount (0xA00 + 4 * c + i) n

/-- Tracing runs: a sink is selected and the ring has not stopped it (R542). -/
def Dev.tracing (d : Dev) : Bool :=
  decide (d.regN (obsBase + 0x4) % 4 = 1 ∨ d.regN (obsBase + 0x4) % 4 = 2) && !d.obs.full

/-- Put a record in the trace FIFO; a full FIFO drops it and counts it (R542). -/
def Dev.tracePush (d : Dev) (r : TraceRec) : Dev :=
  if d.obs.fifo.length < 4096 then
    let d := d.obsCount 0 1
    { d with obs := { d.obs with fifo := d.obs.fifo ++ [r], traced := d.obs.traced + 1 } }
  else
    let d := d.obsCount 1 1
    let d := d.setBits (obsBase + 0x10) 1
    { d with obs := { d.obs with lost := d.obs.lost + 1 } }

/-- The SYNC record (R541). -/
def Dev.syncRec (d : Dev) : TraceRec :=
  ⟨d.now % 2 ^ 48, 1, 0, 0xA5A5A5A5A5A5 + 2 ^ 48 * (d.now >>> 48)⟩

/-- An OVERFLOW record follows once space returns (R542). -/
def Dev.traceOverflow (d : Dev) : Dev :=
  if d.obs.lost > 0 && decide (d.obs.fifo.length < 4096) then
    let n := d.obs.lost
    let d := { d with obs := { d.obs with lost := 0 } }
    d.tracePush ⟨d.now % 2 ^ 48, 8, 0, n % 2 ^ 32⟩
  else d

/-- A trace event of KIND `kind`, recorded while tracing is on and the kind is enabled; kinds 2, 3, 5 and 6 only for
cores marked in OBS_TRACE_CORES; every 4,096th record is followed by a SYNC (R541). -/
def Dev.trace (d : Dev) (kind unit data : Nat) : Dev :=
  if d.tracing && bit (d.regN (obsBase + 0x38)) kind &&
      (!(kind = 2 || kind = 3 || kind = 5 || kind = 6) || bit (d.regN (obsBase + 0x40 + 4 * (unit / 32))) (unit % 32)) then
    let d := d.traceOverflow
    let d := d.tracePush ⟨d.now % 2 ^ 48, kind, unit, data % 2 ^ 64⟩
    if (d.obs.traced + 1) % 4096 = 0 then d.tracePush d.syncRec else d
  else d

/-! ### Notifications and fault records (R508, R544, R545) -/

/-- An MSI-X vector is sent, or becomes pending while its table entry masks it (R307, R511). -/
def Dev.sendMsix (d : Dev) (v : Nat) : Dev :=
  if bit (d.regN (supBase + 0x8000 + 16 * v + 12)) 0 then
    d.setBits (supBase + 0x7000 + 4 * (v / 32)) (2 ^ (v % 32))
  else { d with q := { d.q with msix := d.q.msix ++ [v] } }

/-- The mailbox interrupt: SUP_MB_VECTOR is sent at each new setting of a bit that is set in both registers (R511). -/
def Dev.supInt (d : Dev) (b : Nat) : Dev :=
  let was := bit (d.regN (supBase + 0x10)) b
  let d := d.setBits (supBase + 0x10) (2 ^ b)
  if !was && bit (d.regN (supBase + 0x14)) b then d.sendMsix (d.regN (supBase + 0x18)) else d

/-- Bytes brought to a multiple of 8 by zeros. -/
def pad8 (bs : List Byte) : List Byte := bs ++ zeros ((8 - bs.length % 8) % 8)

/-- A record of R502: header, then the value padded to a multiple of 8. -/
def napRecord (area elem item ty rstatus : Nat) (val : List Byte) : List Byte :=
  leBytes 1 area ++ leBytes 1 elem ++ leBytes 2 item ++ leBytes 2 val.length ++ leBytes 1 ty ++ leBytes 1 rstatus ++ pad8 val

/-- A message header of R501. -/
def napHeader (op flags session seq status count : Nat) : List Byte :=
  leBytes 1 1 ++ leBytes 1 op ++ leBytes 2 flags ++ leBytes 4 session ++ leBytes 4 seq ++ leBytes 2 status ++ leBytes 2 count

/-- A BLOB's value bytes: OFFSET, TOTAL, data (R502). -/
def blobValue (off total : Nat) (data : List Byte) : List Byte := leBytes 2 off ++ leBytes 2 total ++ data

/-- The bytes as numbers, and back. -/
def toNats (bs : List Byte) : List Nat := bs.map (·.toNat)
def ofNats (ns : List Nat) : List Byte := ns.map (fun n => BitVec.ofNat 8 n)

/-- AES-128-CMAC of a message under a session key: 16 bytes (R504). -/
def napMac (key msg : List Byte) : List Byte :=
  ofNats (beN 16 (cmac (aesKeys (toNats key)) (toNats msg) (8 * msg.length)))

/-- A message with its MAC where the session carries one. -/
def Session.seal (s : Session) (msg : List Byte) : List Byte := if s.macced then msg ++ napMac s.key msg else msg

/-- The NOTIFY message of a change for a session (R508). -/
def Session.notice (s : Session) (n : Notice) : List Byte :=
  let val := if n.ty = 9 then blobValue 0 n.val.length n.val else n.val
  s.seal (napHeader 0x20 (b2n s.macced) s.id (s.nseq + 1) 0 1 ++ napRecord n.area n.elem n.item n.ty 0 val)

/-- The mailbox notification ring takes a message, or drops and counts it when it holds 64 (R513). -/
def Dev.ringNotify (d : Dev) (msg : List Byte) : Dev :=
  let pi := d.reg (supBase + 0x20)
  if 64 ≤ (pi - d.reg (supBase + 0x24)).toNat then (d.bump32 (supBase + 0x2C)).catCount 0xD04 1
  else
    let d := d.setRegBytes (supBase + 0x5000 + 128 * (pi.toNat % 64)) (padTo 128 msg)
    (d.bump32 (supBase + 0x20)).supInt 1

/-- Supervisor sends a NOTIFY of a changed parameter to the mailbox ring and to every authenticated session (R508). -/
def Dev.notify (d : Dev) (n : Notice) : Dev :=
  if !d.sup.ready then d
  else
    let d := d.ringNotify (d.sup.mb.notice n)
    let d := { d with sup := { d.sup with mb := { d.sup.mb with nseq := d.sup.mb.nseq + 1 } } }
    let go := d.sup.sessions.filter (fun s => s.authed)
    let out := go.map (fun s => (⟨s.src, s.notice n⟩ : NapOut))
    let bumpS := fun s : Session => if s.authed then { s with nseq := s.nseq + 1 } else s
    { d with sup := { d.sup with out := d.sup.out ++ out, sessions := d.sup.sessions.map bumpS } }

/-- The 32 bytes of a fault record (R544). -/
def FaultRec.bytes (r : FaultRec) : List Byte :=
  leBytes 8 r.time ++ leBytes 4 r.seq ++ leBytes 1 r.sev ++ leBytes 1 r.code ++ leBytes 2 (r.cls * 4096 + r.num)
    ++ leBytes 4 (min r.rep (2 ^ 32 - 1)) ++ leBytes 8 r.detail ++ zeros 4

/-- Place of a full ring's victim: the oldest non-fatal unacknowledged record, or the oldest one (R544). -/
def faultVictim (l : List FaultRec) : Option Nat :=
  let un := l.filter (fun r => !r.acked)
  match un.find? (fun r => decide (r.sev ≠ 2)) with
  | some r => some r.seq
  | none => un.head?.map (·.seq)

/-- An event becomes a fault record, or adds to the held unacknowledged record of its CODE and SOURCE (R544). -/
def Dev.fault (d : Dev) (code sev cls num detail : Nat) : Dev :=
  let same := fun r : FaultRec => r.code = code && r.cls = cls && r.num = num && !r.acked
  if d.obs.faults.any same then
    let d := d.obsCount 3 1
    let more := fun r : FaultRec => { r with rep := min (r.rep + 1) (2 ^ 32 - 1), detail := r.detail ||| detail }
    { d with obs := { d.obs with faults := d.obs.faults.map (fun r => if same r then more r else r) } }
  else
    let d := d.obsCount 2 1
    let held := d.obs.faults.filter (fun r => !r.acked)
    let (d, kept) :=
      if held.length ≥ 256 then
        (d.obsCount 4 1, d.obs.faults.filter (fun r => decide (some r.seq ≠ faultVictim d.obs.faults)))
      else (d, d.obs.faults)
    let r : FaultRec := ⟨d.now, d.obs.faultSeq + 1, sev, code, cls, num, 1, detail, false⟩
    let kept := kept.filter (fun o => decide (o.seq % 256 ≠ r.seq % 256) || !o.acked)
    let d := { d with obs := { d.obs with faults := kept ++ [r], faultSeq := r.seq } }
    d.notify ⟨0xA0, 2, r.seq % 256, 9, r.bytes⟩

end Sys2Proof.Machine
end

