-- ==== Sys2Proof/Machine/Memory.lean ====
section
/-!
DEFINITION. Memories and Lattice Check: the address map, reads, writes, decode, poison, the combining buffer and the error
log (R15 to R20, R336 to R364).
-/
namespace Sys2Proof.Machine

/-! ### The address map (R15 to R20) -/

/-- What lies at a global address. -/
inductive Region where
  | ldm | lpm | cluster | pool | ddr | regs | hole
  deriving DecidableEq, Repr

/-- Cluster-window address of a core's local memories (R16). -/
def lmBase (c : Nat) : Nat := 0x100000000 + (c / 8) * 0x1000000 + 0x800000 + (c % 8) * 0x80000

/-- Pool base (R15). -/
def poolBase : Nat := 0x200000000
/-- DDR5 base (R15). -/
def ddrBase : Nat := 0x1000000000

/-- Installed DDR5 capacity in GiB from MEM_DDR_CFG (R338). -/
def Dev.installedGiB (d : Dev) : Nat :=
  let cfg := d.regN (memBase + 0x20)
  let nch := match fld cfg 2 0 with | 1 => 1 | 2 => 2 | 3 => 3 | 6 => 6 | _ => 0
  let size := match fld cfg 6 3 with | 0 => 16 | 1 => 24 | 2 => 32 | 3 => 48 | 4 => 64 | _ => 0
  nch * size

/-- Populated DDR5 channels. -/
def Dev.nch (d : Dev) : Nat := max 1 (fld (d.regN (memBase + 0x20)) 2 0)

/-- Visible capacity: the largest multiple of 64 KiB within installed × 8/9 (R20). -/
def visibleOf (installedGiB : Nat) : Nat := (installedGiB * 2 ^ 30 * 8 / 9) / 65536 * 65536

/-- Visible capacity in bytes (R20). -/
def Dev.visible (d : Dev) : Nat := visibleOf d.installedGiB

/-- A DDR5 address lies in a retired page (R360). -/
def Dev.pageRetired (d : Dev) (a : Nat) : Bool :=
  d.mem.retire.any (fun e => e.2.getLsbD 63 && decide (e.2.toNat % 2 ^ 23 = (a - ddrBase) / 65536))

/-- The region of an address as an agent sees it, and the address of the cells it reaches (R15 to R18, R360, R363). -/
def Dev.locate (d : Dev) (ag : Agent) (a : Nat) : Region × Nat :=
  if a < 0x50000 then
    match ag with
    | .core c =>
      if bit (d.regN (memBase + 0x54)) (c / 8) then (.hole, a)
      else if a < 0x40000 then (.ldm, lmBase c + a) else (.lpm, lmBase c + a)
    | _ => (.hole, a)
  else if 0x100000000 ≤ a ∧ a < 0x100000000 + 24 * 0x1000000 then
    let k := (a - 0x100000000) / 0x1000000
    let o := (a - 0x100000000) % 0x1000000
    if bit (d.regN (memBase + 0x54)) k then (.hole, a)
    else if o < 0x400000 then (.cluster, a)
    else if 0x800000 ≤ o ∧ o < 0xC00000 then
      let r := (o - 0x800000) % 0x80000
      if r < 0x40000 then (.ldm, a) else if r < 0x50000 then (.lpm, a) else (.hole, a)
    else (.hole, a)
  else if poolBase ≤ a ∧ a < poolBase + 0x8000000 then
    if bit (d.regN (memBase + 0x50)) ((a - poolBase) / 0x800000) then (.hole, a) else (.pool, a)
  else if inWindow a then (.regs, a)
  else if ddrBase ≤ a ∧ a < ddrBase + d.visible then
    if d.mem.filled && !d.pageRetired a then (.ddr, a) else (.hole, a)
  else (.hole, a)

/-- MEMORY field of R358. -/
def Region.code : Region → Nat
  | .ldm => 0 | .lpm => 1 | .cluster => 2 | .pool => 3 | _ => 4

/-! ### Stored bytes -/

/-- A stored byte. -/
def MemState.byte (m : MemState) (a : Nat) : Byte := Tab.get (fun _ => 0) m.data a

/-- Store one byte in the table of stored bytes. -/
def MemState.putByte (m : MemState) (a : Nat) (v : Byte) : MemState :=
  { m with data := Tab.put (fun _ => 0) m.data a v }

/-- Store consecutive bytes. -/
def MemState.putBytes (m : MemState) (a : Nat) : List Byte → MemState
  | [] => m
  | b :: bs => (m.putByte a b).putBytes (a + 1) bs

/-- Consecutive stored bytes. -/
def MemState.bytes (m : MemState) (a n : Nat) : List Byte := (List.range n).map (fun i => m.byte (a + i))

/-- Parity failures of a line's data bytes. -/
def MemState.bad (m : MemState) (l : Nat) : BitVec 64 := Tab.get (fun _ => 0) m.badPar l
/-- Syndrome of a group. -/
def MemState.syndrome (m : MemState) (g : Nat) : BitVec 512 := Tab.get (fun _ => 0) m.syn g
/-- Parity failures of a group's check unit. -/
def MemState.chk (m : MemState) (g : Nat) : BitVec 64 := Tab.get (fun _ => 0) m.chkBad g

def MemState.setBad (m : MemState) (l : Nat) (v : BitVec 64) : MemState :=
  { m with badPar := Tab.put (fun _ => 0) m.badPar l v }
def MemState.setSyn (m : MemState) (g : Nat) (v : BitVec 512) : MemState :=
  { m with syn := Tab.put (fun _ => 0) m.syn g v }
def MemState.setChk (m : MemState) (g : Nat) (v : BitVec 64) : MemState :=
  { m with chkBad := Tab.put (fun _ => 0) m.chkBad g v }

/-- A line reads as the poison pattern: 64 zero bytes, each with parity bit 0 (R344). -/
def MemState.poisoned (m : MemState) (l : Nat) : Bool :=
  decide (m.bad l = BitVec.allOnes 64) && (m.bytes (64 * l) 64).all (fun b => decide (b = 0))

/-! ### Decode (R342) -/

/-- A protected group as the decoder sees it: nine units of `cols` bytes; unit 8 is the check unit. -/
structure Group where
  cols   : Nat
  flag   : Nat → Nat → Bool
  syn    : Nat → Byte
  poison : Nat → Bool

/-- Outcomes of the decode. -/
inductive Verdict where
  | clean | corrected | erasure (u : Nat) | uncorrectable | poison
  deriving DecidableEq, Repr

/-- Bytes of F in one column. -/
def Group.inCol (g : Group) (j : Nat) : Nat :=
  ((List.range 9).filter (fun u => g.flag u j && !g.poison u)).length

/-- A column is open: its syndrome is nonzero with no flagged byte, or it holds two flagged bytes. -/
def Group.isOpen (g : Group) (j : Nat) : Bool :=
  (decide (g.syn j ≠ 0) && decide (g.inCol j = 0)) || decide (2 ≤ g.inCol j)

/-- Units that hold a byte of F. -/
def Group.units (g : Group) : List Nat :=
  (List.range 9).filter (fun u => !g.poison u && (List.range g.cols).any (fun j => g.flag u j))

/-- The decode procedure of R342. -/
def Group.decode (g : Group) (target : Option Nat) : Verdict :=
  if (match target with | some t => g.poison t | none => false) || (List.range 8).all g.poison then .poison
  else
    let opened := (List.range g.cols).any g.isOpen
    let us := g.units
    if us = [] && !opened then .clean
    else if !opened then .corrected
    else match us with
      | [u] => .erasure u
      | _ => .uncorrectable

/-- A byte after the decode: rebuilt where the verdict says so. -/
def Group.rebuild (g : Group) (v : Verdict) (u j : Nat) (b : Byte) : Byte :=
  match v with
  | .corrected => if g.flag u j && !g.poison u then g.syn j ^^^ b else b
  | .erasure w => if u = w then b ^^^ g.syn j else b
  | _ => b

/-- The group of an on-chip line: its eight words and check word (R340). -/
def MemState.lineGroup (m : MemState) (l : Nat) : Group where
  cols := 8
  flag := fun u j => if u < 8 then (m.bad l).getLsbD (8 * u + j) else (m.chk l).getLsbD j
  syn := fun j => (m.syndrome l).extractLsb' (8 * j) 8
  poison := fun u => decide (u < 8) && m.poisoned l

/-- The group of a DDR5 octet whose first line is `l` (R340). -/
def MemState.octetGroup (m : MemState) (l : Nat) : Group where
  cols := 64
  flag := fun u j => if u < 8 then (m.bad (l + u)).getLsbD j else (m.chk l).getLsbD j
  syn := fun j => (m.syndrome l).extractLsb' (8 * j) 8
  poison := fun u => decide (u < 8) && m.poisoned (l + u)

/-- Nothing damaged is stored for a line's group. -/
def MemState.lineQuiet (m : MemState) (l : Nat) : Bool :=
  decide (m.bad l = 0) && decide (m.chk l = 0) && decide (m.syndrome l = 0)

/-- Decode of an on-chip line: the verdict and the 64 bytes it gives. -/
def MemState.decodeLine (m : MemState) (l : Nat) : Verdict × List Byte :=
  let bs := m.bytes (64 * l) 64
  if m.lineQuiet l then (.clean, bs)
  else
    let g := m.lineGroup l
    let v := g.decode (some 0)
    (v, (List.range 64).map (fun i => g.rebuild v (i / 8) (i % 8) (m.byte (64 * l + i))))

/-- Bytes of F in a group, and the columns with a nonzero syndrome or a failing byte (R358). -/
def Group.nflag (g : Group) : Nat :=
  ((List.range g.cols).map g.inCol).sum
def Group.colmap (g : Group) : Nat :=
  (List.range g.cols).foldl (fun acc j => acc + (if decide (g.syn j ≠ 0) || decide (0 < g.inCol j) then 2 ^ j else 0)) 0
/-- UNIT field: the one unit that holds every byte of F, else 0xFF (R358). -/
def Group.unitField (g : Group) : Nat :=
  match g.units with
  | [u] => u
  | _ => 0xFF

/-! ### Counters and the error log (R357 to R359, R367) -/

/-- Address of memory counter `i` of R367. -/
def memCnt (i : Nat) : Nat := memBase + 0x100 + 8 * i

/-- The source buffer of a location: DDR5 channels 0 to 5, Pool banks from 6, clusters from 22 (assumption log 7). -/
def Dev.ctlOf (d : Dev) (r : Region) (a : Nat) : Nat :=
  match r with
  | .ddr => ((a - ddrBase) / 64) % d.nch
  | .pool => 6 + (a - poolBase) / 0x800000
  | _ => 22 + (a - 0x100000000) / 0x1000000

/-- Queue an event in its source buffer; corrections whose address the filter holds are counted only (R359). -/
def Dev.logEvent (d : Dev) (r : Region) (a : Nat) (e : LogEvent) : Dev :=
  let ce := e.kind = 1 ∨ e.kind = 2
  if ce ∧ d.mem.filter.contains e.addr then d
  else
    let c := d.ctlOf r a
    if (d.mem.srcBuf.filter (fun p => p.1 = c)).length ≥ 8 then
      (d.bump (memCnt (if ce then 5 else 6))).setBits (memBase + 0x10) 4
    else
      let f := if ce then (d.mem.filter ++ [e.addr]) else d.mem.filter
      let f := if f.length > 64 then f.drop 1 else f
      { d with mem := { d.mem with srcBuf := d.mem.srcBuf ++ [(c, e)], filter := f } }

/-- Remove an address from the filter (R359). -/
def Dev.unfilter (d : Dev) (a : Nat) : Dev :=
  { d with mem := { d.mem with filter := d.mem.filter.filter (fun x => decide (x ≠ a)) } }

/-- Log an event of a group with the group's fields. -/
def Dev.logGroup (d : Dev) (r : Region) (a : Nat) (kind source req : Nat) (g : Group) : Dev :=
  d.logEvent r a ⟨d.now, a, kind, source, r.code, min g.nflag 255, g.colmap, req, g.unitField⟩

/-- Log an event without group fields. -/
def Dev.logPlain (d : Dev) (r : Region) (a : Nat) (kind source req : Nat) : Dev :=
  d.logEvent r a ⟨d.now, a, kind, source, r.code, 0, 0, req, 0xFF⟩

/-! ### On-chip lines -/

/-- The check word of a line as stored (R340). -/
def MemState.checkWord (m : MemState) (l : Nat) : BitVec 64 :=
  (List.range 8).foldl (fun acc u => acc ^^^ BitVec.ofNat 64 (leNat (m.bytes (64 * l + 8 * u) 8)))
    ((m.syndrome l).setWidth 64)

/-- Pool bank of a line, if it lies in Pool. -/
def poolBankOf (l : Nat) : Option Nat :=
  if poolBase ≤ 64 * l ∧ 64 * l < poolBase + 0x8000000 then some ((64 * l - poolBase) / 0x800000) else none

/-- Retention signature of a bank. -/
def MemState.signature (m : MemState) (b : Nat) : BitVec 64 := Tab.get (fun _ => 0) m.sig b

/-- Update the retention signature for a line whose check word changed (R362). -/
def MemState.resign (m : MemState) (l : Nat) (old : BitVec 64) : MemState :=
  match poolBankOf l with
  | none => m
  | some b =>
    let s := m.signature b ^^^ (old ^^^ m.checkWord l).rotateLeft (l % 64)
    { m with sig := Tab.put (fun _ => 0) m.sig b s }

/-- Write a whole on-chip line with correct checks (R349). -/
def MemState.storeLine (m : MemState) (l : Nat) (bs : List Byte) : MemState :=
  let old := m.checkWord l
  ((((m.putBytes (64 * l) (padTo 64 bs)).setBad l 0).setSyn l 0).setChk l 0).resign l old

/-- Write the poison pattern over an on-chip line (R344). -/
def MemState.poisonLine (m : MemState) (l : Nat) : MemState :=
  let old := m.checkWord l
  ((((m.putBytes (64 * l) (zeros 64)).setBad l (BitVec.allOnes 64)).setSyn l 0).setChk l 0).resign l old

/-- Count, log and poison an uncorrectable on-chip line (R346). -/
def Dev.ueLine (d : Dev) (r : Region) (l source req : Nat) : Dev :=
  let g := d.mem.lineGroup l
  let d := { d with mem := d.mem.poisonLine l }
  let d := (d.bump (memCnt 2)).setBits (memBase + 0x10) 2
  d.logEvent r (64 * l) ⟨d.now, 64 * l, 3, source, r.code, min g.nflag 255, g.colmap, req, g.unitField⟩

/-- Count and log a correction of an on-chip line (R345). -/
def Dev.ceLine (d : Dev) (r : Region) (l : Nat) (v : Verdict) (source req : Nat) : Dev :=
  match v with
  | .corrected => (d.bump (memCnt 0)).logGroup r (64 * l) 1 source req (d.mem.lineGroup l)
  | .erasure _ => (d.bump (memCnt 1)).logGroup r (64 * l) 2 source req (d.mem.lineGroup l)
  | _ => d

/-- What a read of one line answers. -/
inductive LineResp where
  | ok (bs : List Byte)
  | poison
  deriving DecidableEq, Repr

/-- A requester's read of an on-chip line (R342, R345 to R347). -/
def Dev.readSram (d : Dev) (ag : Agent) (r : Region) (l : Nat) : Dev × LineResp :=
  match d.mem.decodeLine l with
  | (.poison, _) => (d.bump (memCnt 3), .poison)
  | (.uncorrectable, _) => ((d.ueLine r l 0 ag.word).bump (memCnt 3), .poison)
  | (v, bs) => (d.ceLine r l v 0 ag.word, .ok bs)

/-- Count and log the refusal of a partial write to a poisoned line (R348). -/
def Dev.pwPoison (d : Dev) (r : Region) (l req : Nat) : Dev :=
  ((d.bump (memCnt 4)).setBits (memBase + 0x10) 0x20).logPlain r (64 * l) 6 2 req

/-- A write to bytes `off` on of an on-chip line; false when the write is refused (R348, R349). -/
def Dev.writeSram (d : Dev) (ag : Agent) (r : Region) (l off : Nat) (bs : List Byte) : Dev × Bool :=
  if bs.length = 64 then
    (({ d with mem := d.mem.storeLine l bs }).unfilter (64 * l), true)
  else
    let d := d.bump (memCnt 9)
    match d.mem.decodeLine l with
    | (.poison, _) => (d.pwPoison r l ag.word, false)
    | (.uncorrectable, _) => ((d.ueLine r l 2 ag.word).pwPoison r l ag.word, false)
    | (v, old) =>
      let d := d.ceLine r l v 2 ag.word
      (({ d with mem := d.mem.storeLine l (spliceAt old off bs) }).unfilter (64 * l), true)

/-! ### DDR5 octets -/

/-- First line of a line's octet. -/
def octetLine (l : Nat) : Nat := l / 8 * 8

/-- Global address of an octet's first line. -/
def octetAddr (l : Nat) : Nat := 64 * octetLine l

/-- Decode of a DDR5 octet for a target line, none for Goat (R341, R342). -/
def MemState.decodeOctet (m : MemState) (l0 : Nat) (target : Option Nat) : Verdict :=
  if (List.range 8).all (fun u => decide (m.bad (l0 + u) = 0)) && decide (m.chk l0 = 0)
      && decide (m.syndrome l0 = 0) then .clean
  else (m.octetGroup l0).decode target

/-- Bytes of a DDR5 line after a verdict. -/
def MemState.octetLineBytes (m : MemState) (l : Nat) (v : Verdict) : List Byte :=
  let g := m.octetGroup (octetLine l)
  match v with
  | .corrected | .erasure _ => (List.range 64).map (fun j => g.rebuild v (l % 8) j (m.byte (64 * l + j)))
  | _ => m.bytes (64 * l) 64

/-- Write the poison pattern over a DDR5 line; its check line stays consistent with zero data (R344). -/
def MemState.poisonDdr (m : MemState) (l : Nat) : MemState :=
  (m.putBytes (64 * l) (zeros 64)).setBad l (BitVec.allOnes 64)

/-- Poison an uncorrectable octet: the lines that hold F when every column with a syndrome holds a byte of F, else all
eight; the check line is rewritten from what remains (R346). -/
def MemState.poisonOctet (m : MemState) (l0 : Nat) : MemState :=
  let g := m.octetGroup l0
  let located := (List.range 64).all (fun j => decide (g.syn j = 0) || decide (0 < g.inCol j))
  let lines := (List.range 8).filter (fun u => !located || g.units.contains u)
  ((lines.foldl (fun m u => m.poisonDdr (l0 + u)) m).setSyn l0 0).setChk l0 0

/-- Count, log and poison an uncorrectable octet (R346). -/
def Dev.ueOctet (d : Dev) (l0 source req : Nat) : Dev :=
  let g := d.mem.octetGroup l0
  let d := { d with mem := d.mem.poisonOctet l0 }
  let d := (d.bump (memCnt 2)).setBits (memBase + 0x10) 2
  d.logEvent .ddr (64 * l0) ⟨d.now, 64 * l0, 3, source, 4, min g.nflag 255, g.colmap, req, g.unitField⟩

/-- Count and log a correction in an octet (R345). -/
def Dev.ceOctet (d : Dev) (l0 : Nat) (v : Verdict) (source req : Nat) : Dev :=
  match v with
  | .corrected => (d.bump (memCnt 0)).logGroup .ddr (64 * l0) 1 source req (d.mem.octetGroup l0)
  | .erasure _ => (d.bump (memCnt 1)).logGroup .ddr (64 * l0) 2 source req (d.mem.octetGroup l0)
  | _ => d

/-- The stored line as a read or a merge finds it: none when it is poisoned (R341, R342, R346). -/
def Dev.fetchDdr (d : Dev) (l source req : Nat) : Dev × Option (List Byte) :=
  if d.mem.poisoned l then (d, none)
  else if d.mem.bad l = 0 then (d, some (d.mem.bytes (64 * l) 64))
  else
    match d.mem.decodeOctet (octetLine l) (some (l % 8)) with
    | .uncorrectable => (d.ueOctet (octetLine l) source req, none)
    | .poison => (d, none)
    | v => (d.ceOctet (octetLine l) v source req, some (d.mem.octetLineBytes l v))

/-- The combining-buffer entry of an octet. -/
def MemState.combOf (m : MemState) (oct : Nat) : Option CombEntry := m.comb.find? (fun e => e.octet = oct)

/-- Byte `i` of an entry, if it has been written. -/
def CombEntry.byte (e : CombEntry) (i : Nat) : Option Byte := Tab.get (fun _ => none) e.bytes i

/-- Buffered bytes of a line merged over given bytes (R350). -/
def CombEntry.overlay (e : CombEntry) (u : Nat) (bs : List Byte) : List Byte :=
  (List.range 64).map (fun i => (e.byte (64 * u + i)).getD (bs.getD i 0))

/-- Buffered bytes of a line. -/
def CombEntry.count (e : CombEntry) (u : Nat) : Nat :=
  ((List.range 64).filter (fun i => (e.byte (64 * u + i)).isSome)).length

/-- A requester's read of a DDR5 line: the buffer is the point of coherence (R341, R347, R350). -/
def Dev.readDdr (d : Dev) (ag : Agent) (l : Nat) : Dev × LineResp :=
  let ent := d.mem.combOf (l / 8)
  match ent with
  | some e =>
    if e.count (l % 8) = 64 then (d, .ok (e.overlay (l % 8) []))
    else
      match d.fetchDdr l 0 ag.word with
      | (d, none) => (d.bump (memCnt 3), .poison)
      | (d, some bs) => (d, .ok (e.overlay (l % 8) bs))
  | none =>
    match d.fetchDdr l 0 ag.word with
    | (d, none) => (d.bump (memCnt 3), .poison)
    | (d, some bs) => (d, .ok bs)

/-- XOR of old and new stored bytes of a line into a group's syndrome. -/
def xorBytes (a b : List Byte) : BitVec 512 :=
  BitVec.ofNat 512 (leNat (List.zipWith (· ^^^ ·) (padTo 64 a) (padTo 64 b)))

/-- Store a DDR5 line with `check := check ^ old ^ new`, `old` being the line as the controller corrected it (R350). -/
def MemState.storeDdr (m : MemState) (l : Nat) (old new : List Byte) : MemState :=
  let s := m.syndrome (octetLine l) ^^^ xorBytes (m.bytes (64 * l) 64) old
  ((m.putBytes (64 * l) (padTo 64 new)).setBad l 0).setSyn (octetLine l) s

/-- An access of the check-line cache by an octet's update (R351); the victim of a full set is a free choice
(assumption log 8). -/
def Dev.clcAccess (d : Dev) (oct : Nat) : Dev :=
  if d.mem.clc.any (fun c => c.octet = oct) then
    let hit := fun c : ClcLine => if c.octet = oct then { c with dirty := true } else c
    { d with mem := { d.mem with clc := d.mem.clc.map hit } }.bump (memCnt 11)
  else
    let d := d.bump (memCnt 12)
    let ways := d.mem.clc.filter (fun c => decide (Config.clcSet c.octet = Config.clcSet oct))
    let (d, kept) :=
      if ways.length ≥ 16 then
        let v := ways[d.freeBelow ways.length]?
        (d.used, d.mem.clc.filter (fun c => decide (some c ≠ v)))
      else (d, d.mem.clc)
    { d with mem := { d.mem with clc := kept ++ [⟨oct, true⟩] } }

/-- Merge one touched line of a flushed entry; `full` lines replace poison, other poisoned lines discard their bytes
(R348, R350). -/
def Dev.flushLine (d : Dev) (e : CombEntry) (u : Nat) : Dev :=
  let l := 8 * e.octet + u
  if e.count u = 0 then d
  else
    let d := d.bump (memCnt 9)
    match d.fetchDdr l 2 e.req with
    | (d, some old) => { d with mem := d.mem.storeDdr l old (e.overlay u old) }
    | (d, none) =>
      if e.count u = 64 then { d with mem := d.mem.storeDdr l (zeros 64) (e.overlay u []) }
      else d.pwPoison .ddr l e.req

/-- Flush of a combining-buffer entry (R350). -/
def Dev.flushEntry (d : Dev) (e : CombEntry) : Dev :=
  let l0 := 8 * e.octet
  let d := { d with mem := { d.mem with comb := d.mem.comb.filter (fun x => decide (x.octet ≠ e.octet)) } }
  if (List.range 8).all (fun u => e.count u = 64) then
    let m := (List.range 8).foldl (fun m u => (m.putBytes (64 * (l0 + u)) (e.overlay u [])).setBad (l0 + u) 0) d.mem
    let m := (m.setSyn l0 0).setChk l0 0
    let clean := fun c : ClcLine => if c.octet = e.octet then { c with dirty := false } else c
    let m := { m with clc := m.clc.map clean }
    (({ d with mem := m }).bump (memCnt 10)).unfilter (64 * l0)
  else
    let d := d.clcAccess e.octet
    ((List.range 8).foldl (fun d u => d.flushLine e u) d).unfilter (64 * l0)

/-- A write to bytes `off` on of a DDR5 line goes into the combining buffer (R350). -/
def Dev.writeDdr (d : Dev) (ag : Agent) (l off : Nat) (bs : List Byte) : Dev :=
  let oct := l / 8
  let d : Dev :=
    match d.mem.combOf oct with
    | some _ => d
    | none =>
      let d : Dev :=
        if d.mem.comb.length ≥ 64 then
          match d.mem.comb.head? with
          | some e => d.flushEntry e
          | none => d
        else d
      { d with mem := { d.mem with comb := d.mem.comb ++ [⟨oct, [], d.time.raw, ag.word⟩] } }
  let add := fun (e : CombEntry) => { e with
    req := ag.word
    bytes := (List.range bs.length).foldl
      (fun t i => Tab.put (fun _ => none) t (64 * (l % 8) + off + i) (some (bs.getD i 0))) e.bytes }
  { d with mem := { d.mem with comb := d.mem.comb.map (fun e => if e.octet = oct then add e else e) } }

/-! ### Accesses -/

/-- What a read answers: bytes, a decode error or poison, with the failing address (R18, R347). -/
inductive RResp where
  | ok (bs : List Byte)
  | decode (a : Nat)
  | poison (a : Nat)
  deriving DecidableEq, Repr

/-- What a write answers: a write response, a decode error, or a refusal (R18, R348). -/
inductive WResp where
  | ok
  | decode (a : Nat)
  | error (a : Nat)
  deriving DecidableEq, Repr

/-- A read within one 64-byte line. -/
def Dev.readLine (d : Dev) (ag : Agent) (a n : Nat) : Dev × RResp :=
  let (r, p) := d.locate ag a
  let resp := fun (x : Dev × LineResp) =>
    match x with
    | (d, .ok bs) => (d, RResp.ok ((bs.drop (p % 64)).take n))
    | (d, .poison) => (d, RResp.poison (a / 64 * 64))
  match r with
  | .hole | .regs => (d, .decode a)
  | .ddr => resp (d.readDdr ag (p / 64))
  | r => resp (d.readSram ag r (p / 64))

/-- A write within one 64-byte line. -/
def Dev.writeLine (d : Dev) (ag : Agent) (a : Nat) (bs : List Byte) : Dev × WResp :=
  let (r, p) := d.locate ag a
  match r with
  | .hole | .regs => (d, .decode a)
  | .ddr => (d.writeDdr ag (p / 64) (p % 64) bs, .ok)
  | r =>
    match d.writeSram ag r (p / 64) (p % 64) bs with
    | (d, true) => (d, .ok)
    | (d, false) => (d, .error a)

/-- The pieces of an access by 64-byte line: offset into the access, and length. -/
def linePieces (a n : Nat) : List (Nat × Nat) :=
  let first := min n (64 - a % 64)
  if n = 0 then []
  else (0, first) :: (List.range (ceilDiv (n - first) 64)).map (fun i => (first + 64 * i, min 64 (n - first - 64 * i)))

/-- A read of memory, line by line in ascending order; the first failing line decides the answer. -/
def Dev.memRead (d : Dev) (ag : Agent) (a n : Nat) : Dev × RResp :=
  (linePieces a n).foldl (fun (acc : Dev × RResp) p =>
    match acc with
    | (d, .ok bs) =>
      match d.readLine ag (a + p.1) p.2 with
      | (d, .ok more) => (d, .ok (bs ++ more))
      | (d, e) => (d, e)
    | other => other) (d, .ok [])

/-- A write of memory, line by line in ascending order; every line is attempted and the first failure is answered. -/
def Dev.memWrite (d : Dev) (ag : Agent) (a : Nat) (bs : List Byte) : Dev × WResp :=
  (linePieces a bs.length).foldl (fun (acc : Dev × WResp) p =>
    match acc.1.writeLine ag (a + p.1) ((bs.drop p.1).take p.2) with
    | (d, w) => (d, if acc.2 = .ok then w else acc.2)) (d, .ok)

end Sys2Proof.Machine
end

