-- ==== Sys2Proof/Machine/Params.lean ====
section
/-!
DEFINITION. The parameter dictionary: its catalogue of items and the current value of every element (R13, R496 to R499).
Types and defaults that the manual does not state are in assumption log 15.
-/
namespace Sys2Proof.Machine

open Sys2Proof.Config (PItem UnitItem)

/-- Area 0x00, identity (R2, R499, R509). -/
def items00 : List PItem := [
  ⟨0, 1, 1, 3, 4, 0, 0x7192001, false, [], 1⟩,
  ⟨0, 2, 1, 7, 2, 0, 2, false, [], 1⟩,
  ⟨0, 3, 1, 2, 2, 0, 0x102, false, [], 1⟩,
  ⟨0, 4, 1, 9, 16, 0, 0, false, [], 1⟩,
  ⟨0, 5, 1, 2, 2, 0, 0, false, [], 1⟩,
  ⟨0, 0x10, 1, 9, 16, 1, 0, true, [], 1⟩,
  ⟨0, 0x11, 1, 3, 4, 1, 0, true, [], 1⟩,
  ⟨0, 0x12, 1, 1, 1, 1, 0, true, [], 1⟩,
  ⟨0, 0x13, 1, 4, 8, 0, 0, false, [], 1⟩,
  ⟨0, 0x20, 1, 6, 1, 1, 0, true, [], 1⟩,
  ⟨0, 0x21, 1, 7, 2, 1, 1, true, [(0, 1)], 1⟩,
  ⟨0, 0x22, 2, 9, 32, 3, 0, false, [], 1⟩]

/-- Area 0x01, modes (R457, R499). -/
def items01 : List PItem := [
  ⟨1, 1, 1, 7, 2, 3, 0, false, [(2, 6)], 0⟩,
  ⟨1, 2, 1, 7, 2, 0, 0, false, [], 1⟩,
  ⟨1, 3, 1, 7, 2, 0, 0xff, false, [], 1⟩]

/-- Area 0x02, profiles (R499). -/
def items02 : List PItem := [
  ⟨2, 1, 1, 1, 1, 0, 0, false, [], 1⟩,
  ⟨2, 2, 1, 1, 1, 0, 0xff, false, [], 1⟩,
  ⟨2, 3, 4, 9, 48, 0, 0, false, [], 1⟩,
  ⟨2, 0x10, 1, 1, 1, 3, 0, false, [(0, 3)], 1⟩,
  ⟨2, 0x11, 1, 1, 1, 0, 0, false, [], 1⟩,
  ⟨2, 0x20, 2, 4, 8, 0, 0, false, [], 1⟩,
  ⟨2, 0x21, 2, 4, 8, 0, 0, false, [], 1⟩]

/-- Area 0x10, power (R478, R567). -/
def items10 : List PItem := [
  ⟨0x10, 2, 1, 6, 1, 1, 0, false, [], 1⟩,
  ⟨0x10, 3, 1, 1, 1, 1, 0x28, false, [], 1⟩,
  ⟨0x10, 4, 1, 1, 1, 1, 15, false, [], 1⟩,
  ⟨0x10, 5, 1, 3, 4, 1, 0x3e8, false, [], 1⟩,
  ⟨0x10, 0x10, 1, 3, 4, 1, 0xc8, false, [], 1⟩,
  ⟨0x10, 0x11, 1, 3, 4, 1, 10, false, [], 1⟩,
  ⟨0x10, 0x12, 1, 3, 4, 1, 0x64, false, [], 1⟩,
  ⟨0x10, 0x13, 41, 1, 1, 1, 1, false, [], 1⟩,
  ⟨0x10, 0x14, 1, 3, 4, 1, 5, false, [], 1⟩,
  ⟨0x10, 0x15, 1, 3, 4, 2, 0, false, [(0, 0xffffff)], 1⟩,
  ⟨0x10, 0x16, 1, 3, 4, 1, 0x3e8, false, [], 1⟩,
  ⟨0x10, 0x20, 8, 1, 1, 2, 0, false, [], 1⟩,
  ⟨0x10, 0x30, 1, 1, 1, 1, 0x8c, false, [], 1⟩,
  ⟨0x10, 0x31, 1, 1, 1, 1, 0x7d, false, [], 1⟩,
  ⟨0x10, 0x32, 1, 6, 1, 1, 1, false, [], 1⟩,
  ⟨0x10, 0x40, 1, 1, 1, 1, 7, false, [], 1⟩,
  ⟨0x10, 0x41, 1, 4, 8, 1, 0xffffffffffffffff, false, [], 1⟩,
  ⟨0x10, 0x50, 1, 9, 32, 0, 0, false, [], 1⟩,
  ⟨0x10, 0x60, 32, 7, 2, 1, 0, false, [(0, 3)], 1⟩,
  ⟨0x10, 0x61, 1, 3, 4, 0, 0, false, [], 1⟩,
  ⟨0x10, 0x62, 1, 3, 4, 1, 0, false, [], 1⟩]

/-- Area 0x11, calibration (R495). -/
def items11 : List PItem := [
  ⟨0x11, 1, 1, 1, 1, 3, 0, false, [], 1⟩,
  ⟨0x11, 2, 1, 3, 4, 0, 0, false, [], 1⟩,
  ⟨0x11, 3, 1, 4, 8, 0, 0, false, [], 1⟩,
  ⟨0x11, 0x10, 1, 1, 1, 1, 6, false, [(1, 0x1e)], 1⟩,
  ⟨0x11, 0x11, 1, 3, 4, 1, 0x3c, false, [], 1⟩,
  ⟨0x11, 0x12, 1, 3, 4, 1, 10, false, [(1, 0x3e8)], 1⟩,
  ⟨0x11, 0x13, 1, 4, 8, 2, 0x1fffffffff, false, [(0, 0x1fffffffff)], 1⟩,
  ⟨0x11, 0x20, 1, 1, 1, 1, 0x28, false, [], 1⟩,
  ⟨0x11, 0x30, 37, 9, 16, 0, 0, false, [], 1⟩,
  ⟨0x11, 0x31, 7, 9, 16, 0, 0, false, [], 1⟩,
  ⟨0x11, 0x100, 64, 5, 4, 0, 0, false, [], 1⟩,
  ⟨0x11, 0x101, 16, 2, 2, 0, 0, false, [], 1⟩,
  ⟨0x11, 0x102, 64, 6, 1, 0, 0, false, [], 1⟩]

/-- Area 0x20, time (R427). -/
def items20 : List PItem := [
  ⟨0x20, 1, 1, 7, 2, 0, 0, false, [], 1⟩,
  ⟨0x20, 2, 1, 8, 10, 0, 0, false, [], 1⟩,
  ⟨0x20, 3, 1, 5, 4, 0, 0, false, [], 1⟩,
  ⟨0x20, 4, 1, 6, 1, 3, 0, false, [], 1⟩,
  ⟨0x20, 0x10, 1, 7, 2, 2, 0, false, [(0, 3)], 1⟩,
  ⟨0x20, 0x11, 1, 7, 2, 2, 0, false, [(0, 1)], 1⟩,
  ⟨0x20, 0x12, 1, 1, 1, 2, 0x18, false, [], 1⟩,
  ⟨0x20, 0x13, 9, 7, 2, 2, 0, false, [(0, 2)], 1⟩,
  ⟨0x20, 0x14, 9, 5, 4, 1, 0, false, [], 1⟩,
  ⟨0x20, 0x20, 9, 5, 4, 1, 0, false, [], 1⟩,
  ⟨0x20, 0x21, 9, 5, 4, 1, 0, false, [], 1⟩,
  ⟨0x20, 0x30, 1, 3, 4, 1, 0x3e8, false, [], 1⟩,
  ⟨0x20, 0x31, 1, 3, 4, 1, 0x3840, false, [], 1⟩,
  ⟨0x20, 0x40, 1, 5, 4, 2, 0, false, [], 1⟩,
  ⟨0x20, 0x50, 1, 9, 1096, 1, 0, false, [], 1⟩,
  ⟨0x20, 0x51, 1, 2, 2, 1, 0, false, [], 1⟩,
  ⟨0x20, 0x52, 1, 6, 1, 1, 0, false, [], 1⟩,
  ⟨0x20, 0x60, 1, 3, 4, 1, 0x186a0, false, [(1, 0x7a120)], 1⟩,
  ⟨0x20, 0x61, 1, 6, 1, 1, 0, false, [], 1⟩,
  ⟨0x20, 0x62, 1, 5, 4, 1, 0, false, [], 1⟩,
  ⟨0x20, 0x63, 1, 2, 2, 1, 0, false, [(0, 0x1fff)], 1⟩]

/-- Area 0x30, fronthaul (R395, R396, R499). -/
def items30 : List PItem := [
  ⟨0x30, 1, 1, 1, 1, 2, 0, false, [], 1⟩,
  ⟨0x30, 0x20, 8, 6, 1, 1, 0, false, [], 1⟩,
  ⟨0x30, 0x21, 8, 4, 8, 1, 0xc0000000, false, [], 1⟩,
  ⟨0x30, 0x30, 1, 3, 4, 2, 0, false, [(0, 0x3f)], 1⟩]

/-- Area 0x40, Smilda (R499). -/
def items40 : List PItem := [
  ⟨0x40, 1, 1, 4, 8, 2, 0, false, [], 1⟩,
  ⟨0x40, 2, 1, 4, 8, 2, 0, false, [], 1⟩,
  ⟨0x40, 3, 1, 1, 1, 2, 10, false, [], 1⟩,
  ⟨0x40, 4, 1, 2, 2, 1, 0x190, false, [], 1⟩,
  ⟨0x40, 5, 1, 2, 2, 1, 0x96, false, [], 1⟩,
  ⟨0x40, 0x10, 192, 1, 1, 2, 0xff, false, [(0, 0x1f), (0xff, 0xff)], 1⟩]

/-- Area 0x41, cores (R499). -/
def items41 : List PItem := [
  ⟨0x41, 1, 192, 7, 2, 0, 0, false, [], 1⟩,
  ⟨0x41, 2, 192, 3, 4, 0, 0, false, [], 1⟩]

/-- Area 0x60, memory (R499). -/
def items60 : List PItem := [
  ⟨0x60, 1, 1, 3, 4, 2, 0, true, [], 1⟩,
  ⟨0x60, 2, 1, 3, 4, 1, 0x3c0018, false, [], 1⟩,
  ⟨0x60, 0x10, 256, 3, 4, 1, 0xffffffff, true, [], 1⟩,
  ⟨0x60, 0x11, 1, 2, 2, 1, 0, true, [], 1⟩,
  ⟨0x60, 0x12, 1, 3, 4, 1, 0, true, [], 1⟩,
  ⟨0x60, 0x13, 1, 2, 2, 2, 0, false, [], 1⟩]

/-- Area 0x70, cipher (R431 to R454). -/
def items70 : List PItem := [
  ⟨0x70, 1, 1, 6, 1, 2, 0, false, [], 1⟩,
  ⟨0x70, 2, 12, 3, 4, 2, 0, false, [(0, 0x3ffff)], 1⟩,
  ⟨0x70, 0x10, 64, 3, 4, 1, 0, false, [], 1⟩,
  ⟨0x70, 0x11, 256, 4, 8, 1, 0, false, [], 1⟩,
  ⟨0x70, 0x12, 256, 1, 1, 1, 0xff, false, [(0, 0x3f), (0xff, 0xff)], 1⟩,
  ⟨0x70, 0x13, 256, 1, 1, 1, 0xff, false, [(0, 0x3f), (0xff, 0xff)], 1⟩,
  ⟨0x70, 0x14, 256, 1, 1, 1, 0xff, false, [(0, 0x3f), (0xff, 0xff)], 1⟩,
  ⟨0x70, 0x15, 256, 1, 1, 1, 0xff, false, [(0, 0x3f), (0xff, 0xff)], 1⟩,
  ⟨0x70, 0x20, 12, 3, 4, 0, 0, false, [], 1⟩,
  ⟨0x70, 0x21, 12, 3, 4, 0, 0, false, [], 1⟩,
  ⟨0x70, 0x22, 64, 3, 4, 0, 0, false, [], 1⟩]

/-- Area 0x80, update (R524 to R532). -/
def items80 : List PItem := [
  ⟨0x80, 1, 1, 7, 2, 0, 0, false, [], 1⟩,
  ⟨0x80, 2, 1, 3, 4, 0, 0, false, [], 1⟩,
  ⟨0x80, 3, 1, 9, 32, 0, 0, false, [], 1⟩,
  ⟨0x80, 5, 1, 3, 4, 0, 0, false, [], 1⟩,
  ⟨0x80, 0x10, 1, 1, 1, 3, 0, false, [(1, 8)], 1⟩,
  ⟨0x80, 0x11, 1, 9, 4096, 3, 0, false, [], 1⟩,
  ⟨0x80, 0x12, 1, 9, 16, 3, 0, false, [], 1⟩,
  ⟨0x80, 0x15, 1, 8, 10, 3, 0, false, [], 1⟩,
  ⟨0x80, 0x20, 1, 6, 1, 1, 0, true, [], 1⟩,
  ⟨0x80, 0x21, 1, 3, 4, 1, 0x3c, true, [], 1⟩,
  ⟨0x80, 0x30, 1, 9, 60, 3, 0, false, [], 1⟩,
  ⟨0x80, 0x32, 4, 4, 8, 0, 0, false, [], 1⟩,
  ⟨0x80, 0x40, 1, 1, 1, 0, 0, false, [], 1⟩]

/-- Area 0x90, counters (R539, R552). -/
def items90 : List PItem := [
  ⟨0x90, 1, 256, 4, 8, 0, 0, false, [], 1⟩,
  ⟨0x90, 2, 256, 4, 8, 0, 0, false, [], 1⟩,
  ⟨0x90, 3, 256, 4, 8, 0, 0, false, [], 1⟩,
  ⟨0x90, 4, 256, 4, 8, 0, 0, false, [], 1⟩,
  ⟨0x90, 5, 256, 4, 8, 0, 0, false, [], 1⟩,
  ⟨0x90, 6, 256, 4, 8, 0, 0, false, [], 1⟩,
  ⟨0x90, 7, 256, 4, 8, 0, 0, false, [], 1⟩,
  ⟨0x90, 8, 256, 4, 8, 0, 0, false, [], 1⟩,
  ⟨0x90, 9, 256, 4, 8, 0, 0, false, [], 1⟩,
  ⟨0x90, 10, 256, 4, 8, 0, 0, false, [], 1⟩,
  ⟨0x90, 11, 256, 4, 8, 0, 0, false, [], 1⟩,
  ⟨0x90, 12, 256, 4, 8, 0, 0, false, [], 1⟩,
  ⟨0x90, 13, 256, 4, 8, 0, 0, false, [], 1⟩,
  ⟨0x90, 14, 256, 4, 8, 0, 0, false, [], 1⟩,
  ⟨0x90, 15, 256, 4, 8, 0, 0, false, [], 1⟩,
  ⟨0x90, 0x10, 256, 4, 8, 0, 0, false, [], 1⟩,
  ⟨0x90, 0x100, 1, 7, 2, 1, 0, false, [(0, 2)], 1⟩,
  ⟨0x90, 0x101, 1, 3, 4, 1, 0, false, [], 1⟩,
  ⟨0x90, 0x102, 6, 3, 4, 1, 0, false, [], 1⟩,
  ⟨0x90, 0x103, 1, 4, 8, 1, 0, false, [], 1⟩,
  ⟨0x90, 0x104, 1, 1, 1, 1, 0x10, false, [(0x10, 0x1e)], 1⟩,
  ⟨0x90, 0x105, 1, 6, 1, 1, 0, false, [], 1⟩]

/-- Area 0xA0, faults (R544 to R550). -/
def itemsA0 : List PItem := [
  ⟨0xa0, 1, 1, 3, 4, 0, 0, false, [], 1⟩,
  ⟨0xa0, 2, 256, 9, 32, 0, 0, false, [], 1⟩,
  ⟨0xa0, 3, 1, 3, 4, 3, 0, false, [], 1⟩,
  ⟨0xa0, 4, 1, 6, 1, 3, 0, false, [], 1⟩,
  ⟨0xa0, 5, 1, 6, 1, 3, 0, false, [], 1⟩,
  ⟨0xa0, 0x10, 256, 9, 32, 0, 0, false, [], 1⟩,
  ⟨0xa0, 0x20, 1, 6, 1, 1, 0, false, [], 1⟩,
  ⟨0xa0, 0x21, 1, 7, 2, 0, 0, false, [], 1⟩,
  ⟨0xa0, 0x22, 1, 6, 1, 3, 0, false, [], 1⟩,
  ⟨0xa0, 0x23, 1, 4, 8, 0, 0, false, [], 1⟩]

/-- The items of an area that the manual numbers. -/
def areaItems (a : Nat) : List PItem :=
  match a with
  | 0 => items00
  | 1 => items01
  | 2 => items02
  | 0x10 => items10
  | 0x11 => items11
  | 0x20 => items20
  | 0x30 => items30
  | 0x40 => items40
  | 0x41 => items41
  | 0x60 => items60
  | 0x70 => items70
  | 0x80 => items80
  | 0x90 => items90
  | 0xa0 => itemsA0
  | _ => []

/-- The areas of R499. -/
def isArea (a : Nat) : Bool :=
  [0, 1, 2, 0x10, 0x11, 0x20, 0x30, 0x40, 0x41, 0x50, 0x51, 0x52, 0x53, 0x54, 0x55, 0x56, 0x60, 0x70, 0x80, 0x90,
    0xA0].contains a

/-- Areas that hold unit registers under items that the manual does not number (assumption log 16). -/
def unitArea (a : Nat) : Bool := a = 0x30 || a = 0x40 || a = 0x60 || (decide (0x50 ≤ a) && decide (a ≤ 0x54))

/-- The attributes of an item, if it is present. -/
def findItem (a i : Nat) : Option PItem :=
  match (areaItems a).find? (fun p => p.item = i) with
  | some p => some p
  | none =>
    if unitArea a then (Config.unitItems.find? (fun u => u.attr.area = a && u.attr.item = i)).map (fun u => u.attr) else none

/-- Key of an element in the table of current values. -/
def paramKey (a i e : Nat) : Nat := a * 2 ^ 24 + i * 2 ^ 8 + e

/-- The default of an element (R496); an absent item has no bytes. -/
def paramDefault (k : Nat) : List Byte :=
  match findItem (k / 2 ^ 24) (k / 2 ^ 8 % 2 ^ 16) with
  | some p => leBytes p.size p.dflt
  | none => []

/-- The current value of an element (R498). -/
def Dev.param (d : Dev) (a i e : Nat) : List Byte := Tab.get paramDefault d.dict (paramKey a i e)

/-- The current value of an element as a number. -/
def Dev.par (d : Dev) (a i e : Nat) : Nat := leNat (d.param a i e)

/-- Replace the current value of an element. -/
def Dev.setParam (d : Dev) (a i e : Nat) (v : List Byte) : Dev :=
  { d with dict := Tab.put paramDefault d.dict (paramKey a i e) v }

/-- At reset each element takes its default, or its stored value (R498). -/
def Dev.resetParams (d : Dev) (stored : Tab (List Byte)) : Dev := { d with dict := stored }

end Sys2Proof.Machine
end

