-- ==== Sys2Proof/Machine/CipherCtl.lean ====
section
/-!
DEFINITION. Cipher pages and key slots: access lists, submission, LOAD, ZEROISE and the page registers' views
(R431, R432, R439 to R445, R453, R454).
-/
namespace Sys2Proof.Machine

/-- A key slot. -/
def Dev.keySlot (d : Dev) (k : Nat) : KeySlot := Tab.get (fun _ => {}) d.cph.slots k

/-- Replace a key slot. -/
def Dev.setKeySlot (d : Dev) (k : Nat) (s : KeySlot) : Dev :=
  { d with cph := { d.cph with slots := Tab.put (fun _ => {}) d.cph.slots k s } }

/-- A cipher engine. -/
def Dev.ceng (d : Dev) (e : Nat) : CEng := Tab.get (fun _ => {}) d.cph.engs e

/-- Replace a cipher engine. -/
def Dev.setCeng (d : Dev) (e : Nat) (v : CEng) : Dev :=
  { d with cph := { d.cph with engs := Tab.put (fun _ => {}) d.cph.engs e v } }

/-- A user page. -/
def Dev.cpage (d : Dev) (u : Nat) : CPage := Tab.get (fun _ => {}) d.cph.pages u

/-- Replace a user page. -/
def Dev.setCpage (d : Dev) (u : Nat) (v : CPage) : Dev :=
  { d with cph := { d.cph with pages := Tab.put (fun _ => {}) d.cph.pages u v } }

/-- Address of a page's counter: 0 JOBS, 1 ERR, 2 AUTH_FAIL, 3 BYTES, 4 EXHAUSTED, 5 ZEROISE_ABORT, 6 SUBMIT_DROP (R453). -/
def cphCnt (u i : Nat) : Nat := cphBase u + 0x100 + 8 * i

/-- Set a bit of CPH_INT_STATUS. -/
def Dev.cphInt (d : Dev) (u b : Nat) : Dev := d.setBits (cphBase u + 0x10) (2 ^ b)

/-- A page's access list (R432). -/
def Dev.cphAccess (d : Dev) (u : Nat) : Nat := d.par 0x70 0x10 u

/-- The access list admits a requester; Supervisor may always reach every page (R432). -/
def Dev.cphAdmits (d : Dev) (ag : Agent) (u : Nat) : Bool :=
  match ag with
  | .supervisor => true
  | .core c => bit (d.cphAccess u) 31 && decide (c / 8 < 24) && bit (d.cphAccess u) (c / 8)
  | _ => false

/-- A refused register access is counted in P 0x70.0022 (R432). -/
def Dev.cphDeny (d : Dev) (u : Nat) : Dev :=
  d.setCpage u { d.cpage u with denied := ((d.cpage u).denied + 1) % 2 ^ 32 }

/-- The page that owns a slot (R439). -/
def Dev.slotOwner (d : Dev) (k : Nat) : Option Nat :=
  let o := d.par 0x70 (0x12 + k / 256) (k % 256)
  if o = 0xFF then none else some o

/-- A submission (R431): dropped and counted when the FIFO is full. -/
def Dev.cphSubmit (d : Dev) (u addr : Nat) : Dev :=
  let p := d.cpage u
  if 16 ≤ p.fifo.length then (d.cphInt u 2).bump (cphCnt u 6)
  else d.setCpage u { p with fifo := p.fifo ++ [addr % 2 ^ 40] }

/-- A job that latched from the slot and has not ended with an error is aborted with KEY_ZEROISED (R443). -/
def CJob.zeroised (j : CJob) (k : Nat) : CJob :=
  if j.slot = some k && (j.status.isNone || decide ((j.status.map (·.1)).getD 0 ≤ 1)) then
    { j with status := some (0x32, none) }
  else j

/-- ZEROISE of a slot (R443). -/
def Dev.zeroiseSlot (d : Dev) (k : Nat) : Dev :=
  let s := d.keySlot k
  let d := d.setKeySlot k { s with st := 0, key := zeros s.key.length, badPar := false }
  (List.range 12).foldl (fun (d : Dev) e =>
    match (d.ceng e).run with
    | some j => d.setCeng e { d.ceng e with run := some (j.zeroised k) }
    | none => d) d

/-- Every slot that holds anything is zeroised (R445). -/
def Dev.zeroiseAll (d : Dev) : Dev := (d.cph.slots.map (fun e => e.1)).foldl (fun (d : Dev) k => d.zeroiseSlot k) d

/-- LOAD (R441, R442): refused when the start is not below LIMIT, or for a 3GPP key with HWCTR and LIMIT above 2^32. -/
def Dev.loadSlot (d : Dev) (u ktype : Nat) (hwctr : Bool) : Dev :=
  let b := cphBase u
  let k := d.regN (b + 0x30)
  let start := d.reg64 (b + 0x40)
  let limit := d.reg64 (b + 0x48)
  if limit ≤ start || (hwctr && decide (2 ≤ ktype) && decide (2 ^ 32 < limit)) then
    d.setCpage u { d.cpage u with refused := true }
  else
    let key := d.regBytes (b + 0x80) (if ktype = 1 then 32 else 16)
    let d := d.setKeySlot k {
      st := 1, ktype := ktype, hwctr := hwctr, key := key, fixed := d.reg (b + 0x38),
      next := BitVec.ofNat 64 start, limit := BitVec.ofNat 64 limit }
    let d := d.setRegBytes (b + 0x80) (zeros 32)
    d.setCpage u { d.cpage u with refused := false }

/-- A write of CPH_KEY_CMD: no effect on a slot that the page does not own (R439, R454). -/
def Dev.keyCommand (d : Dev) (u v : Nat) : Dev :=
  let k := d.regN (cphBase u + 0x30)
  if d.slotOwner k ≠ some u then d
  else match fld v 1 0 with
    | 1 => d.loadSlot u (fld v 3 2) (bit v 4)
    | 2 => d.zeroiseSlot k
    | _ => d

/-- The values a page's registers show of its state (R454). -/
def Dev.cphView (d : Dev) (u o : Nat) : Option Nat :=
  let k := d.regN (cphBase u + 0x30)
  let s := d.keySlot k
  let mine := decide (d.slotOwner k = some u)
  if o = 0x4 then some (16 - (d.cpage u).fifo.length + 32 * b2n (bit (d.cphAccess u) 31))
  else if o = 0x50 then
    some ((if mine then s.st else 0) + 4 * s.ktype + 16 * b2n s.hwctr + 32 * b2n (!mine)
      + 64 * b2n (d.cpage u).refused)
  else if o = 0x58 ∨ o = 0x5C then some (if mine then (s.next.toNat >>> (8 * (o % 8))) % 2 ^ 32 else 0)
  else none

end Sys2Proof.Machine
end

