-- ==== Sys2Proof/Machine/FronthaulCtl.lean ====
section
/-!
DEFINITION. Fronthaul control: ports, link state, rule commit, enable and the registers' views (R369 to R374, R380, R385,
R391, R392, R398 to R400).
-/
namespace Sys2Proof.Machine

/-- A port; port 8 is the management port. -/
def Dev.port (d : Dev) (p : Nat) : FhPort := Tab.get (fun _ => {}) d.fhn.ports p

/-- Replace a port. -/
def Dev.setPort (d : Dev) (p : Nat) (v : FhPort) : Dev :=
  { d with fhn := { d.fhn with ports := Tab.put (fun _ => {}) d.fhn.ports p v } }

/-- A port is up: PCS aligned, FEC locked, no fault, powered (R373); the management port has no FEC (R372). -/
def FhPort.up (v : FhPort) : Bool := v.align && v.lock && !v.fault && !v.off

/-- Address of a port's counter, in the order of R400. -/
def fhnCnt (p i : Nat) : Nat := fhnBase + 0x8000 + 0x100 * p + 8 * i

/-- Positions of counters in R400. -/
def rxFrames : Nat := 0
def rxBytes : Nat := 1
def rxFcsErr : Nat := 2
def rxFecUncorr : Nat := 4
def rxFiltered : Nat := 5
def rxUnmatched : Nat := 6
def rxUnsupported : Nat := 7
def rxMalformed : Nat := 8
def rxMacsecFail : Nat := 9
def rxLate : Nat := 10
def rxEarly : Nat := 11
def rxSeqGap : Nat := 12
def rxQfull : Nat := 13
def txFrames : Nat := 15
def txBytes : Nat := 16
def txLate : Nat := 17
def txGated : Nat := 18
def txLinkdown : Nat := 19
def txPnExhausted : Nat := 20
def txBad : Nat := 21
def linkDown : Nat := 22

/-- Set a bit of FHN_INT_STATUS. -/
def Dev.fhnInt (d : Dev) (b : Nat) : Dev := d.setBits (fhnBase + 0x10) (2 ^ b)

/-- A received frame or section is dropped and counted; RX_DROP for every reason except R371 (R399). -/
def Dev.rxDrop (d : Dev) (p i : Nat) : Dev := (d.bump (fhnCnt p i)).fhnInt 1

/-- A launch is dropped and counted (R399). -/
def Dev.txDrop (d : Dev) (p i : Nat) : Dev := (d.bump (fhnCnt p i)).fhnInt 2

/-- MODE of a port (R369). -/
def Dev.portMode (d : Dev) (p : Nat) : Nat := d.regN (fhnBase + 0x1000 + 0x100 * p) % 8

/-- FHN_CTRL.ENABLE. -/
def Dev.fhnOn (d : Dev) : Bool := bit (d.regN (fhnBase + 4)) 0

/-- The link state of a port changes (R373); port 8 is the management port. -/
def Dev.linkChange (d : Dev) (p : Nat) (align lock fault : Bool) : Dev :=
  let old := d.port p
  let new := { old with align := align, lock := lock, fault := fault }
  let d := d.setPort p new
  if p = 8 || old.up = new.up then d
  else
    let d := d.fhnInt 0
    if old.up then d.bump (fhnCnt p linkDown) else d

/-- A port loses or gains power (R374); losing it takes the link down. -/
def Dev.portPower (d : Dev) (p : Nat) (on : Bool) : Dev :=
  let old := d.port p
  let new := if on then { old with off := false } else { old with off := true, align := false, lock := false, fault := false }
  let d := d.setPort p new
  if p = 8 || old.up = new.up then d
  else
    let d := d.fhnInt 0
    if old.up then d.bump (fhnCnt p linkDown) else d

/-- The 32 bytes of staged rule `r`. -/
def Dev.stagedRule (d : Dev) (r : Nat) : List Byte := d.regBytes (fhnBase + 0x20000 + 32 * r) 32

/-- A rule that is not valid, or whose reserved bits are 0 and whose fields are in range (R380). -/
def ruleOk (b : List Byte) : Bool :=
  !bit (leAt b 0 2) 15
    || (decide (fld (leAt b 0 2) 14 8 = 0) && decide (fld (leAt b 2 2) 15 14 = 0) && decide (leAt b 7 1 < 2)
      && decide (leAt b 12 1 < 16) && decide (leAt b 13 1 ≤ 4) && decide (leAt b 14 2 < 4096) && decide (leAt b 18 2 = 0)
      && decide (leAt b 20 4 < 2 ^ 18) && decide (fld (leAt b 24 8) 63 44 = 0)
      && (leAt b 13 1 ≠ 1 || (decide (7 ≤ fld (leAt b 24 8) 43 40) && decide (fld (leAt b 24 8) 43 40 ≤ 14)
        && decide (fld (leAt b 24 8) 5 0 = 0))))

/-- RULE_COMMIT: the staged rules become active, or the commit is refused with CFG_ERR (R380). -/
def Dev.ruleCommit (d : Dev) : Dev :=
  if !(List.range 256).all (fun r => ruleOk (d.stagedRule r)) then d.fhnInt 5
  else
    (List.range 2048).foldl (fun (d : Dev) i => d.setReg (fhnBase + 0x22000 + 4 * i) (d.reg (fhnBase + 0x20000 + 4 * i))) d

/-- ENABLE; going from 0 to 1 clears the sequence references and the transmit sequence table (R385, R392). -/
def Dev.fhnEnable (d : Dev) (on : Bool) : Dev :=
  let was := d.fhnOn
  let d := d.setRegN (fhnBase + 4) (b2n on)
  if on && !was then { d with fhn := { d.fhn with seqRef := [], seqTx := [] } } else d

/-- A write of FHN_CTRL. -/
def Dev.fhnCtrl (d : Dev) (v : Nat) : Dev :=
  let d := d.fhnEnable (bit v 0)
  if bit v 1 then d.ruleCommit else d

/-- A write to placement entry `n` clears its sequence reference (R385). -/
def Dev.placeWritten (d : Dev) (n : Nat) : Dev :=
  { d with fhn := { d.fhn with seqRef := Tab.put (fun _ => none) d.fhn.seqRef n none } }

/-- The values the fronthaul's registers show of its state (R399). -/
def Dev.fhnView (d : Dev) (o : Nat) : Option Nat :=
  if o = 0x8 then
    some ((List.range 8).foldl (fun acc p => acc + (if (d.port p).up then 2 ^ p else 0)) 0 + 256 * b2n (d.port 8).up
      + 512 * b2n (!d.time.locked))
  else if 0x1000 ≤ o ∧ o < 0x1800 ∧ o % 0x100 = 4 then
    let v := d.port ((o - 0x1000) / 0x100)
    some (b2n v.up + 2 * b2n v.align + 4 * b2n v.lock + 8 * b2n v.fault + 16 * (if v.off then 3 else 0))
  else none

end Sys2Proof.Machine
end

