-- ==== Sys2Proof/Machine/PowerView.lean ====
section
/-!
DEFINITION. The registers that show power states and the mailbox state, entry records, and wakes by access (R460, R463, R465,
R466, R473, R479, R511).
-/
namespace Sys2Proof.Machine

/-- Two bits per unit of a class (R479). -/
def Dev.classPower (d : Dev) (cls n : Nat) : Nat :=
  (List.range n).foldl (fun acc u => acc + (d.power (pwrEng cls u)).code * 4 ^ u) 0

/-- Target of a mode transition under way (R479, P 0x01.0003). -/
def Dev.modeTarget (d : Dev) : Option Nat :=
  if d.pwr.dormStep.isSome then some 2 else if d.pwr.leaving then some 3 else none

/-- Smallest margin over the live instances that have a deadline (R463). -/
def Dev.leastMargin (d : Dev) : Option Int :=
  d.smd.slots.foldl (fun (m : Option Int) e =>
    if e.2.phase = .live && e.2.deadline ≠ noDeadline then
      let x := marginOf e.2.deadline d.now
      match m with
      | none => some x
      | some y => some (min x y)
    else m) none

/-- D_WORST plus DL_GUARD, in ns (R463, R468). -/
def Dev.marginBound (d : Dev) : Int := ((2200 + 1000 * d.par 0x10 0x14 0 : Nat) : Int)

/-- R463 applies. -/
def Dev.marginHold (d : Dev) : Bool :=
  match d.leastMargin with
  | some m => decide (m < d.marginBound)
  | none => false

/-- The values the power registers show of its state (R479). -/
def Dev.pwrView (d : Dev) (o : Nat) : Option Nat :=
  if o = 0x4 then
    some (d.pwr.mode + (match d.modeTarget with | some t => 8 * t + 64 | none => 0))
  else if o = 0x8 then some (d.par 0x10 2 0 % 2 + 2 * b2n d.marginHold + 4 * b2n d.pwr.thermWarn)
  else if o = 0x20 then some (d.pwr.vcore % 65536 + 65536 * (d.pwr.vread % 65536))
  else if 0x40 ≤ o ∧ o < 0xA0 then
    let k := (o - 0x40) / 4
    some ((List.range 8).foldl (fun acc i => acc + (d.corePower (8 * k + i)).code * 4 ^ i) 0)
  else if 0xC0 ≤ o ∧ o < 0xE0 then
    let cls := (o - 0xC0) / 4
    some (d.classPower cls (classSize cls))
  else if o = 0xE0 ∨ o = 0xE4 then some ((d.classPower 8 32 >>> (8 * (o % 8))) % 2 ^ 32)
  else none

/-- The values the mailbox registers show of its state (R511); a request is served within its doorbell command, so BUSY
reads 0 between commands (assumption log 19). -/
def Dev.supView (d : Dev) (o : Nat) : Option Nat :=
  if o = 0x8 then some (b2n d.sup.ready + 4 * b2n d.sup.respValid + 8 * d.pwr.mode) else none

/-! ### Entry records (R473, R479) -/

/-- Set a bit of PWR_INT_STATUS. -/
def Dev.pwrInt (d : Dev) (b : Nat) : Dev := d.setBits (pwrBase + 0x10) (2 ^ b)

/-- PWR_ENTRY_REC and PWR_ENTRY_TIME: outcome 0 completed, 1 refused, 2 aborted; `target` is 7 for a Doze entry. -/
def Dev.entryRec (d : Dev) (outcome target unit code : Nat) : Dev :=
  (d.setReg64 (pwrBase + 0x100) (outcome + 4 * target + 32 * unit + 8192 * code)).setReg64 (pwrBase + 0x108) d.now

/-- A refused or aborted entry: record and PWR_REFUSE_CNT[code] (R473). -/
def Dev.entryRefused (d : Dev) (outcome target unit code : Nat) : Dev :=
  (d.bump (pwrBase + 0x200 + 8 * code)).entryRec outcome target unit code

/-- UNIT of an entry record: the cluster, or 32 + k for an engine or mover numbered as R479 does. -/
def unitField (i : Nat) : Nat :=
  if i < 24 then i
  else
    let u := (i - 256) % 32
    32 + (match (i - 256) / 32 with
      | 0 => u | 1 => 12 + u | 2 => 24 + u | 3 => 28 | 4 => 29 + u | 5 => 37 + u | 9 => 41 + u | 6 => 45 + u
      | 7 => 53 + u | _ => 57 + u)

/-! ### Wakes (R466) -/

/-- The unit whose cluster window or register window holds an address: its power index (R466). -/
def unitAt (a : Nat) : Option Nat :=
  let win := fun (cls base span n : Nat) =>
    if base ≤ a ∧ a < base + span * n then some (pwrEng cls ((a - base) / span)) else none
  (if 0x100000000 ≤ a ∧ a < 0x118000000 then some (pwrCluster ((a - 0x100000000) / 0x1000000)) else none)
    <|> win 0 (benBase 0) 0x10000 12 <|> win 1 (decBase 0) 0x8000 12 <|> win 2 (encBase 0) 0x8000 4
    <|> win 3 codecBase 0x8000 1 <|> win 4 (xfuBase 0) 0x8000 8 <|> win 5 (wbuGBase 0) 0x8000 4
    <|> win 9 (wbuRBase 0) 0x8000 4 <|> win 8 (bmvBase 0) 0x10000 32

/-- A dozing unit wakes: a cluster's cores with it (R466). -/
def Dev.undoze (d : Dev) (i : Nat) : Dev :=
  if d.power i ≠ .doze then d
  else
    let d := d.setPower i .active
    if i < 24 then (List.range 8).foldl (fun (d : Dev) j => d.setPower (pwrCore (8 * i + j)) .active) d else d

/-- The Doze entry under way for a unit. -/
def Dev.entryOf (d : Dev) (i : Nat) : Option DozeEntry := d.pwr.entering.find? (fun e => e.unit = i)

/-- The Doze entry of a unit is over. -/
def Dev.dropEntry (d : Dev) (i : Nat) : Dev :=
  { d with pwr := { d.pwr with entering := d.pwr.entering.filter (fun e => decide (e.unit ≠ i)) } }

/-- A Doze entry is undone: the unit returns to the state it held before, with the record of who refused it (outcome 1) or
which wake aborted it (outcome 2) (R465, R473, R480). -/
def Dev.dozeUndo (d : Dev) (e : DozeEntry) (outcome code : Nat) : Dev :=
  let d := (d.dropEntry e.unit).setPower e.unit e.before
  (d.bump (pwrBase + 0x410)).entryRefused outcome 7 (unitField e.unit) code

/-- A wake reaches a unit that passed A4: the entry stands, and the wake begins at step 5 (R465, R469). -/
def Dev.wakeLater (d : Dev) (i : Nat) : Dev :=
  let set := fun e : DozeEntry => if e.unit = i then { e with wake := true } else e
  { d with pwr := { d.pwr with entering := d.pwr.entering.map set } }

/-- Doze is reached: counted and recorded (R465, R473, R480). -/
def Dev.dozeDone (d : Dev) (i : Nat) : Dev :=
  (((d.dropEntry i).setPower i .doze).bump (pwrBase + 0x408)).entryRec 0 7 (unitField i) 0

/-- An access through a window of a dozing unit wakes it; an entering unit's entry is undone, or, after A4, completes and
the unit wakes (R465, R466, R469). -/
def Dev.wakeFor (d : Dev) (a : Nat) : Dev :=
  match unitAt a with
  | none => d
  | some i =>
    match d.entryOf i with
    | none => d.undoze i
    | some e => if e.passed < 4 then d.dozeUndo e 1 8 else (d.dozeDone i).undoze i

end Sys2Proof.Machine
end

