-- ==== Sys2Proof/Machine/WakeView.lean ====
section
/-!
DEFINITION. Listen jobs of the burst receivers and the registers that show them (R274, R291, R299).
-/
namespace Sys2Proof.Machine

/-- A receiver's listen job. -/
def Dev.listen (d : Dev) (r k : Nat) : Option Listen :=
  Tab.get (fun _ => none) (Tab.get (fun _ => ({} : Receiver4)) d.wbr r).ctx k

/-- Replace a receiver's listen job. -/
def Dev.setListen (d : Dev) (r k : Nat) (v : Option Listen) : Dev :=
  let w := Tab.get (fun _ => ({} : Receiver4)) d.wbr r
  { d with wbr := Tab.put (fun _ => {}) d.wbr r { w with ctx := Tab.put (fun _ => none) w.ctx k v } }

/-- Address of a receiver's counter: 0 DETECT, 1 PACKET, 2 CRC_ERROR, 3 LOST_CAPTURE, 4 FALSE, 5 IGNORED, 6 ERASED_BITS,
7 POISON, 8 JOBS (R299). -/
def wbrCnt (r i : Nat) : Nat := wbuRBase r + 0x100 + 8 * i

/-- The listen jobs that a receiver holds. -/
def Dev.listens (d : Dev) (r : Nat) : List (Nat × Listen) :=
  (List.range 12).filterMap (fun k => (d.listen r k).map (fun l => (k, l)))

/-- Subcarrier spacing in kHz and M of a listen descriptor. -/
def Listen.khz (l : Listen) : Nat := leAt l.bytes 60 2 % 512 * (15 * 2 ^ (leAt l.bytes 48 1 % 4))

/-- Sum of M × Δf of the running jobs in kHz (R291, R299). -/
def Dev.listenRate (d : Dev) (r : Nat) : Nat := ((d.listens r).map (fun p => p.2.khz)).sum

/-- Profile 3 is active (R272). -/
def Dev.profile3 (d : Dev) : Bool := d.sup.slot = some 3

/-- The values a receiver's registers show of its state (R299). -/
def Dev.wbrView (d : Dev) (r o : Nat) : Option Nat :=
  if o = 0x8 then
    some (((d.listens r).map (fun p => 2 ^ p.1)).sum + 4096 * (d.power (pwrEng 9 r)).code)
  else if o = 0x34 then some (d.listenRate r)
  else none

end Sys2Proof.Machine
end

