-- ==== Sys2Proof/Machine/RegRead.lean ====
section
/-!
DEFINITION. Reading registers: the values that registers show of structured state, and reads of memory and registers over
the global address map (R8 to R11).
-/
namespace Sys2Proof.Machine

/-! ### Queues -/

/-- Occupancy (PI − CI) mod 2^32 (R303). -/
def Queue.occ (q : Queue) : Nat := (q.pi - q.ci).toNat

/-- A queue is non-empty (R303). -/
def Queue.nonEmpty (q : Queue) : Bool := decide (0 < q.occ)

/-- Number of queues NQ (R301). -/
def Dev.nq (d : Dev) : Nat := 2 ^ (d.regN (qmgBase + 0x28))

/-- QMG_CORE_DB of a core: its non-empty slots (R307). -/
def Dev.coreDb (d : Dev) (c : Nat) : Nat :=
  d.q.queues.foldl (fun acc e =>
    if e.2.enabled && e.2.ckind = 1 && e.2.target % 256 = c && e.2.nonEmpty then acc ||| 2 ^ (e.2.target / 256 % 8)
    else acc) 0

/-- The flags of a queue as QMG_QFLAGS lays them out (R333). -/
def Queue.flags (q : Queue) : Nat := b2n q.enabled + 2 * b2n q.armed + 4 * b2n q.dropped + 8 * b2n q.dbErr

/-! ### Smilda -/

/-- Slots LIVE or CLOSING. -/
def Dev.liveCount (d : Dev) : Nat := (d.smd.slots.filter (fun e => decide (e.2.phase ≠ .free))).length

/-- A core's place in the pools. -/
def Dev.member (d : Dev) (c : Nat) : Member := Tab.get (fun _ => {}) d.smd.members c

/-- Replace a core's place in the pools. -/
def Dev.setMember (d : Dev) (c : Nat) (m : Member) : Dev :=
  { d with smd := { d.smd with members := Tab.put (fun _ => {}) d.smd.members c m } }

/-- Member cores of a pool. -/
def Dev.poolCores (d : Dev) (p : Nat) : List Nat := Tab.keys d.smd.members (fun m => decide (m.pool = some p))

/-- Ready nodes of a target. -/
def Dev.readyOf (d : Dev) (t : Target) : Nat := (d.smd.ready.filter (fun r => decide (r.target = t))).length

/-- SMD_POOL_STATE (R78). -/
def Dev.poolState (d : Dev) (p : Nat) : Nat :=
  let ms := d.poolCores p
  ms.length + 256 * (ms.filter (fun c => (d.core c).take.isSome)).length + 65536 * min (d.readyOf (.pool p)) 65535

/-- SMD_CORE_STATE (R78). -/
def Dev.coreState (d : Dev) (c : Nat) : Nat :=
  let m := d.member c
  m.pool.getD 0 + 32 * b2n m.pool.isSome + 64 * b2n m.pending.isSome + 128 * b2n (d.core c).held.isSome
    + 256 * b2n (d.core c).take.isSome + 512 * (d.corePower c).code

/-- SMD_INST_INFO (R77). -/
def Slot.info (s : Slot) : Nat :=
  (match s.phase with | .free => 0 | .live => 1 | .closing => 2)
    + 4 * (match s.promo with | .none => 0 | .t1 => 1 | .t2 => 2) + 16 * b2n s.errDup + 65536 * s.gen

/-- The values Smilda's registers show of its state. -/
def Dev.smdView (d : Dev) (o : Nat) : Option Nat :=
  if o = 0x8 then
    some (b2n (bit (d.regN (smdBase + 4)) 0 || decide (0 < d.liveCount)) + 2 * b2n (decide (d.smd.spill ≠ []))
      + 4 * b2n d.smd.cfgErr + 8 * b2n d.smd.tplBusy)
  else if o = 0x68 then some (d.slot (d.regN (smdBase + 0x64))).info
  else if o = 0x74 then some (b2n d.smd.poolRefused)
  else if 0x200 ≤ o ∧ o < 0x280 then some (d.poolState ((o - 0x200) / 4))
  else if 0x400 ≤ o ∧ o < 0x700 then some (d.coreState ((o - 0x400) / 4))
  else if o = 0x800 then some d.smd.store.length
  else if o = 0x808 then some d.smd.spill.length
  else if o = 0x810 then some d.liveCount
  else none

/-- The values the queue manager's registers show of its state. -/
def Dev.qmgView (d : Dev) (o : Nat) : Option Nat :=
  let q := d.queue (d.regN (qmgBase + 0x40))
  if o = 0x8 then some (d.regN (qmgBase + 4) % 2 + 2 * b2n d.q.cfgErr)
  else if o = 0x34 then some d.q.result
  else if o = 0x44 then some q.pi.toNat
  else if o = 0x48 then some q.ci.toNat
  else if o = 0x4C then some q.flags
  else if 0x200 ≤ o ∧ o < 0x500 then some (d.coreDb ((o - 0x200) / 4))
  else none

/-! ### Movers -/

/-- A channel holds the mover. -/
def Chan.holds (c : Chan) : Bool := c.st = .running || c.st = .pausing

/-- The channel that holds the mover, if any. -/
def Dev.moverCur (d : Dev) (m : Nat) : Option Nat := (List.range 16).find? (fun k => (d.chan m k).holds)

/-- A channel marked in SMD_MOVER_CHMASK is a Smilda channel (R314). -/
def Dev.isSmildaChan (d : Dev) (m k : Nat) : Bool := bit (d.regN (smdBase + 0x100 + 4 * m)) k

/-- Codes of the channel states (R335). -/
def ChState.code : ChState → Nat
  | .idle => 0 | .ready => 1 | .running => 2 | .pausing => 3 | .paused => 4

/-- The values a mover's registers show of its state. -/
def Dev.bmvView (d : Dev) (m o : Nat) : Option Nat :=
  if o = 0x8 then
    some ((d.moverCur m).getD 0 + 16 * b2n (d.moverCur m).isSome + 32 * (d.power (pwrEng 8 m)).code)
  else if 0x100 ≤ o ∧ o < 0x300 ∧ (o - 0x100) % 0x20 = 0xC then
    let k := (o - 0x100) / 0x20
    some ((d.chan m k).st.code + 8 * b2n (d.isSmildaChan m k))
  else if 0x100 ≤ o ∧ o < 0x300 ∧ (o - 0x100) % 0x20 = 0x10 then some (d.chan m ((o - 0x100) / 0x20)).pos
  else none

/-! ### Engines -/

/-- Staging entries of an engine that are occupied (R165, R197). -/
def Dev.stageOcc (d : Dev) (cls u : Nat) : Nat :=
  let e := d.eng cls u
  let ctx := e.ctx.filterMap (fun p => p.2)
  let mine := fun k => d.smd.jobs.any (fun j => j.cls = cls && j.unit = u && j.stage = k)
    || (e.run.toList ++ e.held.toList ++ ctx).any (fun j => j.smilda = some k)
  (List.range 8).foldl (fun acc k => if mine k then acc + 2 ^ k else acc) 0

/-- The values an engine's registers show of its state; generators have their own layout (R197, R239, R270, R298). -/
def Dev.engView (d : Dev) (cls u o : Nat) : Option Nat :=
  let e := d.eng cls u
  if o = 0x8 then
    if cls = 5 then
      some ((e.ctx.map (fun p => 2 ^ p.1)).sum + 4096 * d.stageOcc cls u + 2 ^ 20 * (d.power (pwrEng cls u)).code)
    else
      some (b2n e.run.isSome + 2 * b2n e.held.isSome + 4 * d.stageOcc cls u
        + 1024 * (d.power (pwrEng cls u)).code)
  else if o = 0x30 ∧ cls ≠ 5 then some ((e.run.map (·.ref)).getD 0)
  else if o = 0x34 ∧ cls ≠ 5 then some ((e.run.map (·.pos)).getD 0)
  else none

/-! ### Memory, time, observation -/

/-- Half of a 64-bit value. -/
def half64 (v o : Nat) : Nat := (v >>> (8 * (o % 8))) % 2 ^ 32

/-- The values the memory registers show of its state; a retention walk ends within its step, so WALKING reads 0. -/
def Dev.memView (d : Dev) (o : Nat) : Option Nat :=
  if o = 0x8 then
    some (b2n d.mem.filled + 2 * b2n d.mem.fillBusy + 4 * b2n d.mem.ddrKept
      + 8 * b2n (decide (d.reg (memBase + 0x40) - d.reg (memBase + 0x44) = 1024)))
  else if o = 0x24 then some (d.visible / 65536)
  else if o = 0x68 ∨ o = 0x6C then
    some (half64 (Tab.get (fun _ => (0 : BitVec 64)) d.mem.retire (d.regN (memBase + 0x60))).toNat o)
  else none

/-- REFCLK frequency in Hz (R401). -/
def Dev.fref (d : Dev) : Nat := if d.pins.refFast then 61440000 else 30720000

/-- TMU_STATUS (R429). -/
def Dev.tmuStatus (d : Dev) : Nat :=
  let t := d.time
  t.state.code + 8 * b2n t.locked + 16 * b2n t.stepPending + 32 * b2n t.refclk + 64 * b2n t.rtcValid
    + 128 * b2n t.tddArmed.isSome + 256 * t.stepGen

/-- The values the time unit's registers show of its state. -/
def Dev.tmuView (d : Dev) (o : Nat) : Option Nat :=
  let t := d.time
  if o = 0x8 then some d.tmuStatus
  else if o = 0x20 ∨ o = 0x24 then some (half64 d.now o)
  else if o = 0x28 then some t.fracLatch.toNat
  else if o = 0x30 ∨ o = 0x34 then some (half64 t.raw o)
  else if o = 0x38 ∨ o = 0x3C then some (half64 t.rtc o)
  else if o = 0x40 ∨ o = 0x44 then some (half64 t.inc o)
  else if o = 0x48 then some (ofSigned 32 (t.freq * 256).floor)
  else if o = 0x4C then some (ofSigned 32 (t.integ * 256).floor)
  else if o = 0x50 ∨ o = 0x54 then some (half64 (ofSigned 64 t.lastOfs) o)
  else if o = 0x58 ∨ o = 0x5C then some (half64 (ofSigned 64 t.stepHeld) o)
  else if o = 0x60 then some (ofSigned 32 t.rtcRate)
  else if o = 0x64 then some (t.holdRaw / d.fref)
  else if o = 0x78 ∨ o = 0x7C then some (half64 t.ppsTs o)
  else none

/-- Register address of a counter of the observation catalogue, where a unit's window holds it (R538). -/
def catReg (i : Nat) : Option Nat :=
  let row := fun (base n : Nat) (a : Nat) => if base ≤ i ∧ i < base + n then some (a + 8 * (i - base)) else none
  let rows := fun (base step copies n : Nat) (a : Nat → Nat) =>
    let u := (i - base) / step
    if base ≤ i ∧ u < copies ∧ (i - base) % step < n then some (a u + 8 * ((i - base) % step)) else none
  (row 0x000 18 (smdBase + 0x900)) <|> (row 0x020 13 (qmgBase + 0x800)) <|> (row 0x040 14 (memBase + 0x100))
    <|> (row 0x060 9 (tmuBase + 0x800)) <|> (row 0x080 7 (pwrBase + 0x400)) <|> (row 0x090 22 (pwrBase + 0x200))
    <|> (rows 0x100 16 12 11 (fun e => benBase e + 0x100))
    <|> (rows 0x200 16 12 13 (fun e => decBase e + 0x100))
    <|> (rows 0x2C0 16 4 13 (fun e => encBase e + 0x100))
    <|> (rows 0x300 16 1 13 (fun _ => codecBase + 0x100))
    <|> (rows 0x320 16 8 8 (fun u => xfuBase u + 0x100))
    <|> (rows 0x3A0 16 4 7 (fun g => wbuGBase g + 0x100))
    <|> (rows 0x3E0 16 4 9 (fun r => wbuRBase r + 0x100))
    <|> (rows 0x420 16 32 9 (fun m => bmvBase m + 0x400))
    <|> (rows 0x620 32 8 23 (fun p => fhnBase + 0x8000 + 0x100 * p))
    <|> (rows 0x800 8 64 7 (fun u => cphBase u + 0x100))

/-- Live value of counter `i` of the catalogue (R538, R539). -/
def Dev.catValue (d : Dev) (i : Nat) : Nat :=
  match catReg i with
  | some a => d.reg64 a
  | none => (Tab.get (fun _ => (0 : BitVec 64)) d.obs.cnt i).toNat

/-- The values the observation registers show of its state. -/
def Dev.obsView (d : Dev) (o : Nat) : Option Nat :=
  if o = 0x8 then some (b2n d.tracing + 2 * b2n d.obs.full)
  else if o = 0x68 ∨ o = 0x6C then some (half64 d.obs.snapTime o)
  else if 0x10000 ≤ o ∧ o < 0x18000 then some (half64 (d.catValue ((o - 0x10000) / 8)) o)
  else if 0x20000 ≤ o ∧ o < 0x28000 then
    some (half64 (Tab.get (fun _ => (0 : BitVec 64)) d.obs.snap ((o - 0x20000) / 8)).toNat o)
  else none

/-! ### Reading -/

/-- The value a register shows of structured state; none where the stored word is the value. -/
def Dev.regView (d : Dev) (p : RegPlace) : Option Nat :=
  if p.win.base = smdBase then d.smdView p.off
  else if p.win.base = qmgBase then d.qmgView p.off
  else if p.win.base = bmvBase 0 then d.bmvView p.copy p.off
  else if p.win.base = benBase 0 then d.engView 0 p.copy p.off
  else if p.win.base = decBase 0 then d.engView 1 p.copy p.off
  else if p.win.base = encBase 0 then d.engView 2 p.copy p.off
  else if p.win.base = codecBase then d.engView 3 p.copy p.off
  else if p.win.base = xfuBase 0 then d.engView 4 p.copy p.off
  else if p.win.base = wbuGBase 0 then d.engView 5 p.copy p.off
  else if p.win.base = memBase then d.memView p.off
  else if p.win.base = tmuBase then d.tmuView p.off
  else if p.win.base = obsBase then d.obsView p.off
  else if p.win.base = wbuRBase 0 then d.wbrView p.copy p.off
  else if p.win.base = cphBase 0 then d.cphView p.copy p.off
  else if p.win.base = fhnBase then d.fhnView p.off
  else if p.win.base = pwrBase then d.pwrView p.off
  else if p.win.base = supBase then d.supView p.off
  else none

/-- The value of one register word as a read finds it; WO, reserved and unmapped words read 0 (R8, R10). -/
def Dev.regRead (d : Dev) (a : Nat) : BitVec 32 :=
  match regPlace a with
  | none => 0
  | some p =>
    if p.row.acc = .wo then 0
    else match d.regView p with
      | some v => BitVec.ofNat 32 v
      | none => d.reg a

/-- The cipher page whose window holds an address (R453). -/
def pageAt (a : Nat) : Option Nat :=
  if cphBase 0 ≤ a ∧ a < cphBase 64 then some ((a - cphBase 0) / 0x1000) else none

/-- The page refuses the requester at this address (R432). -/
def Dev.pageRefuses (d : Dev) (ag : Agent) (a : Nat) : Bool :=
  match pageAt a with
  | some u => !d.cphAdmits ag u
  | none => false

/-- One word of a window read: a page that does not admit the requester reads 0 and counts the access (R432). -/
def Dev.wordRead (d : Dev) (ag : Agent) (a : Nat) : Dev × List Byte :=
  if d.pageRefuses ag a then (d.cphDeny ((pageAt a).getD 0), zeros 4)
  else (d, leBytes 4 (d.regRead a).toNat)

/-- A read of a register window, word by word in ascending order (R11); an aligned 64-bit read of TMU_TIME latches
TMU_TIME_FRAC (R428). -/
def Dev.windowRead (d : Dev) (ag : Agent) (a n : Nat) : Dev × List Byte :=
  let a0 := a / 4 * 4
  let (d, words) := (List.range (ceilDiv (a + n - a0) 4)).foldl (fun (acc : Dev × List Byte) i =>
    let (d, bs) := acc.1.wordRead ag (a0 + 4 * i)
    (d, acc.2 ++ bs)) (d, [])
  let d :=
    if a = tmuBase + 0x20 ∧ n = 8 then
      { d with time := { d.time with fracLatch := BitVec.ofNat 32 d.time.fix } }
    else d
  (d, (words.drop (a - a0)).take n)

/-- A read over the global address map (R15, R18, R466). -/
def Dev.busRead (d : Dev) (ag : Agent) (a n : Nat) : Dev × RResp :=
  let d := d.wakeFor a
  if inWindow a then
    let (d, bs) := d.windowRead ag a n
    (d, .ok bs)
  else d.memRead ag a n

end Sys2Proof.Machine
end

