-- ==== Sys2Proof/Machine/Observe.lean ====
section
/-!
DEFINITION. Observation: snapshots, trace control and batches, acknowledgement of fault records, raising fatal errors
(R538 to R545, R552).
-/
namespace Sys2Proof.Machine

/-- A write of OBS_SNAP: every counter and the device time are latched together (R539). -/
def Dev.obsSnap (d : Dev) : Dev :=
  let snap := (List.range 4096).foldl (fun (t : Tab (BitVec 64)) i =>
    Tab.put (fun _ => 0) t i (BitVec.ofNat 64 (d.catValue i))) []
  { d with obs := { d.obs with snap := snap, snapTime := d.now } }

/-- A write of OBS_CTRL by Supervisor: leaving SINK 0 starts a trace with a SYNC (R541, R542). -/
def Dev.obsCtrl (d : Dev) (v : Nat) : Dev :=
  let old := d.regN (obsBase + 4) % 4
  let d := d.setRegN (obsBase + 4) (v % 8)
  if old = 0 && (v % 4 = 1 || v % 4 = 2) then
    let d := d.setReg64 (obsBase + 0x30) 0
    let d := { d with obs := { d.obs with fifo := [], traced := 0, lost := 0, full := false } }
    d.tracePush d.syncRec
  else d

/-- The 16 bytes of a trace record (R540). -/
def TraceRec.bytes (r : TraceRec) : List Byte := leBytes 6 r.time ++ leBytes 1 r.kind ++ leBytes 1 r.unit ++ leBytes 8 r.data

/-- An IDLE record (R541). -/
def Dev.idleRec (d : Dev) : TraceRec := ⟨d.now % 2 ^ 48, 0, 0, 0⟩

/-- The oldest waiting record is at least 10 µs old (R542). -/
def Dev.batchDue (d : Dev) : Bool :=
  match d.obs.fifo.head? with
  | some r => decide (10000 ≤ (d.now % 2 ^ 48 + 2 ^ 48 - r.time) % 2 ^ 48)
  | none => false

/-- A batch of 32 records goes to the ring, completed with IDLE records once it has waited 10 µs; records for the port are
sent as they stand (R542). -/
def Dev.traceBatch (d : Dev) : Dev :=
  let sink := d.regN (obsBase + 4) % 4
  let recs := d.obs.fifo.take 32
  if sink = 2 then
    let d := { d with obs := { d.obs with fifo := d.obs.fifo.drop 32, tracePort := d.obs.tracePort ++ recs } }
    d.traceOverflow
  else if sink = 1 && !d.obs.full && (recs.length = 32 || d.batchDue) then
    let recs := recs ++ List.replicate (32 - recs.length) d.idleRec
    let size := 2 ^ (d.regN (obsBase + 0x28) % 32)
    let w := d.reg64 (obsBase + 0x30)
    let d := { d with obs := { d.obs with fifo := d.obs.fifo.drop 32 } }
    let (d, _) := d.memWrite .supervisor (d.reg64 (obsBase + 0x20) + w % size) (recs.flatMap TraceRec.bytes)
    let d := d.setReg64 (obsBase + 0x30) ((w + 512) % 2 ^ 64)
    let d :=
      if bit (d.regN (obsBase + 4)) 2 && decide (size ≤ w + 512) then
        { (d.setBits (obsBase + 0x10) 2) with obs := { (d.setBits (obsBase + 0x10) 2).obs with full := true } }
      else d
    d.traceOverflow
  else d

/-- A write of n to P 0xA0.0003 acknowledges every record with SEQ ≤ n (R544). -/
def Dev.ackFaults (d : Dev) (n : Nat) : Dev :=
  let ack := fun r : FaultRec => if r.seq ≤ n then { r with acked := true } else r
  { d with obs := { d.obs with faults := d.obs.faults.map ack } }

/-- A fatal error is raised; the dump routine handles it (R545, R547). -/
def Dev.raiseFatal (d : Dev) (code cls num detail : Nat) : Dev :=
  { d with obs := { d.obs with fatal := d.obs.fatal ++ [⟨code, cls, num, detail⟩] } }

end Sys2Proof.Machine
end

