-- ==== Sys2Proof/Machine/Crc.lean ====
section
/-!
DEFINITION. Cyclic redundancy checks and the Internet checksum (R155, R320).
-/
namespace Sys2Proof.Machine

/-- One bit into a CRC register of width `w` with generator `g`, most significant bit first (R155). -/
def crcBit (w g r : Nat) (b : Bool) : Nat :=
  let top := xor (r.testBit (w - 1)) b
  let r := (2 * r) % 2 ^ w
  if top then r ^^^ g else r

/-- The bits of one byte, bit 7 first. -/
def byteBits (b : Byte) : List Bool := (List.range 8).map (fun i => b.toNat.testBit (7 - i))

/-- The bits of a byte string in the order of R155. -/
def bitsOf (bs : List Byte) : List Bool := bs.flatMap byteBits

/-- A bit string into a CRC register. -/
def crcBits (w g r : Nat) (bs : List Bool) : Nat := bs.foldl (crcBit w g) r

/-- The CRC of the first `n` bits of a byte string (R155). -/
def crcOf (w g : Nat) (ones : Bool) (bs : List Byte) (n : Nat) : Nat :=
  crcBits w g (if ones then 2 ^ w - 1 else 0) ((bitsOf bs).take n)

/-- The low `w` bits of a number in reverse order. -/
def reflectN (w x : Nat) : Nat :=
  (List.range w).foldl (fun acc i => acc + b2n (x.testBit i) * 2 ^ (w - 1 - i)) 0

/-- Bytes into a reflected CRC register held unreflected (CRC-32 and CRC-32C of R320). -/
def crcReflected (g r : Nat) (bs : List Byte) : Nat :=
  bs.foldl (fun r b => crcBits 32 g r (byteBits b).reverse) r

/-- Width W of CRCSEL (R320). -/
def crcWidth (sel : Nat) : Nat :=
  match sel with
  | 1 | 2 => 24 | 3 | 6 => 16 | 4 | 5 => 32 | _ => 0

/-- Generator of CRCSEL (R320). -/
def crcGen (sel : Nat) : Nat :=
  match sel with
  | 1 => 0x864CFB | 2 => 0x800063 | 3 => 0x1021 | 4 => 0x04C11DB7 | 5 => 0x1EDC6F41 | _ => 0

/-- Start value of a mover's partial result. -/
def crcInit (sel : Nat) : Nat := if sel = 4 ∨ sel = 5 then 2 ^ 32 - 1 else 0

/-- Coverage bytes into the partial result; `pos` coverage bytes came before (R320). -/
def crcFeed (sel pos r : Nat) (bs : List Byte) : Nat :=
  match sel with
  | 1 | 2 | 3 => crcBits (crcWidth sel) (crcGen sel) r (bitsOf bs)
  | 4 | 5 => crcReflected (crcGen sel) r bs
  | 6 =>
    (List.range bs.length).foldl (fun r i =>
      let v := (bs.getD i 0).toNat * (if (pos + i) % 2 = 0 then 256 else 1)
      let s := r + v
      if s ≥ 65536 then s - 65535 else s) r
  | _ => 0

/-- The result from the partial result (R320). -/
def crcFinal (sel r : Nat) : Nat :=
  match sel with
  | 4 | 5 => reflectN 32 r ^^^ (2 ^ 32 - 1)
  | 6 => 65535 - r
  | _ => r

/-- The stored field of a result (R320). -/
def crcField (sel r : Nat) : List Byte :=
  match sel with
  | 1 | 2 => beBytes 3 r
  | 3 | 6 => beBytes 2 r
  | 4 | 5 => leBytes 4 r
  | _ => []

end Sys2Proof.Machine
end

