-- ==== Sys2Proof/Machine/Queues.lean ====
section
/-!
DEFINITION. The queue manager: posts, doorbells, handover, tokens, queue commands (R301 to R313, R332 to R334).
-/
namespace Sys2Proof.Machine

/-- Address of queue-manager counter `i` of R334. -/
def qmgCnt (i : Nat) : Nat := qmgBase + 0x800 + 8 * i

/-- Set a QMG_INT_STATUS bit. -/
def Dev.qmgInt (d : Dev) (b : Nat) : Dev := d.setBits (qmgBase + 0x10) (2 ^ b)

/-- A cache of loaded entries of 16,384 places (R302); a miss is counted, the victim is a free choice. -/
def Dev.qTouch (d : Dev) (q : Nat) (count : Bool) : Dev :=
  if d.q.cached.contains q then d
  else
    let d := if count then d.bump (qmgCnt 9) else d
    let (d, kept) :=
      if d.q.cached.length ≥ 16384 then
        let i := d.freeBelow d.q.cached.length
        (d.used, d.q.cached.eraseIdx i)
      else (d, d.q.cached)
    { d with q := { d.q with cached := kept ++ [q] } }

/-- Global address of a descriptor's slot (R301). -/
def Queue.slotAddr (q : Queue) (i : BitVec 32) : Nat := q.ring + 32 * (i.toNat % 2 ^ q.log2n)

/-- A queue is full (R303). -/
def Queue.isFull (q : Queue) : Bool := decide (2 ^ q.log2n ≤ q.occ)

/-- Put a token on its way to Smilda. -/
def Dev.sendToken (d : Dev) (t : InTok) : Dev := { d with smd := { d.smd with tokens := d.smd.tokens ++ [t] } }

/-- Count a poisoned descriptor skipped (R307). -/
def Dev.tokenPoison (d : Dev) : Dev := (d.qmgInt 4).bump (qmgCnt 10)

/-- What follows when the descriptor at index `i` becomes visible, by consumer kind (R307). -/
def Dev.becomeVisible (d : Dev) (qn : Nat) (i : BitVec 32) : Dev :=
  let q := d.queue qn
  if q.ckind = 4 then
    if q.vmode then
      (d.sendToken ⟨.queue qn, q.tag.toNat, q.slotAddr i⟩).bump (qmgCnt 3)
    else
      let (d, r) := d.memRead .queueMgr (q.slotAddr i) 8
      let d := d.setQueue qn { q with ci := q.ci + 1 }
      match r with
      | .ok bs => (d.sendToken ⟨.queue qn, q.tag.toNat, leNat bs⟩).bump (qmgCnt 3)
      | _ => d.tokenPoison
  else if q.ckind = 2 && q.armed then
    (d.setQueue qn { q with armed := false }).sendMsix (q.target % 2048)
  else d

/-- Outcome of a post. -/
inductive PostResult where
  | placed (i : Nat)
  | dropped
  | held
  deriving DecidableEq, Repr

/-- The slot write of a post, then PI, then what follows (R304). -/
def Dev.placePost (d : Dev) (qn : Nat) (desc : List Byte) : Dev × PostResult :=
  let q := d.queue qn
  match d.memWrite .queueMgr (q.slotAddr q.pi) (padTo 32 desc) with
  | (d, .ok) =>
    let d := (d.setQueue qn { q with pi := q.pi + 1 }).bump (qmgCnt 0)
    (d.becomeVisible qn q.pi, .placed q.pi.toNat)
  | (d, _) =>
    (((d.setQueue qn { q with dropped := true }).qmgInt 5).bump (qmgCnt 12), .dropped)

/-- A post to a queue (R302, R304, R305): `hw` marks a hardware producer, `job` a job Smilda posts. -/
def Dev.post (d : Dev) (ag : Agent) (hw : Bool) (qn : Nat) (desc : List Byte) (job : Option (Nat × Nat × Nat)) :
    Dev × PostResult :=
  let q := d.queue qn
  if !q.enabled then (d.bump (qmgCnt 8), .dropped)
  else
    let d := d.qTouch qn true
    if !q.post then ((d.qmgInt 2).bump (qmgCnt 7), .dropped)
    else if hw && (d.q.held.any (fun h => h.queue = qn && h.agent = ag) || (q.isFull && q.stall)) then
      ({ d with q := { d.q with held := d.q.held ++ [⟨ag, qn, desc, job, d.time.raw⟩] } }, .held)
    else if q.isFull then
      (((d.setQueue qn { q with dropped := true }).qmgInt 0).bump (qmgCnt 1), .dropped)
    else d.placePost qn desc

/-- A hardware unit's post whose outcome the unit does not learn (R304). -/
def Dev.postHw (d : Dev) (ag : Agent) (qn : Nat) (desc : List Byte) : Dev := (d.post ag true qn desc none).1

/-- The first held post of a queue tries again once a slot is free (R305). Answers the job of a post that was dropped
or placed. -/
def Dev.retryHeld (d : Dev) (qn : Nat) : Dev × Option (HeldPost × PostResult) :=
  match takeFirst (fun h : HeldPost => decide (h.queue = qn)) d.q.held with
  | none => (d, none)
  | some (h, rest) =>
    let q := d.queue qn
    if q.enabled && q.isFull && q.stall then (d, none)
    else
      let d := d.bumpBy (qmgCnt 2) (d.nsSince h.since)
      let d := { d with q := { d.q with held := rest } }
      if !q.enabled then (d.bump (qmgCnt 8), some (h, .dropped))
      else if q.isFull then
        (((d.setQueue qn { q with dropped := true }).qmgInt 0).bump (qmgCnt 1), some (h, .dropped))
      else
        let (d, r) := d.placePost qn h.desc
        (d, some (h, r))

/-- A doorbell is ignored: DB_ERR of the queue and of the unit, counted (R306, R307). -/
def Dev.dbError (d : Dev) (qn : Nat) : Dev :=
  ((d.setQueue qn { d.queue qn with dbErr := true }).qmgInt 1).bump (qmgCnt 6)

/-- The producer doorbell (R306). -/
def Dev.doorbellPi (d : Dev) (qn : Nat) (v : BitVec 32) : Dev :=
  let q := d.queue qn
  if !q.enabled then d.bump (qmgCnt 8)
  else
    let d := d.qTouch qn true
    let n := (v - q.pi).toNat
    if q.post || decide (2 ^ q.log2n - q.occ < n) then d.dbError qn
    else
      let d := d.setQueue qn { q with pi := v }
      (List.range n).foldl (fun d i => d.becomeVisible qn (q.pi + BitVec.ofNat 32 i)) d

/-- The consumer doorbell (R307). -/
def Dev.doorbellCi (d : Dev) (qn : Nat) (v : BitVec 32) : Dev :=
  let q := d.queue qn
  if !q.enabled then d.bump (qmgCnt 8)
  else
    let d := d.qTouch qn true
    if q.ckind = 3 || (q.ckind = 4 && !q.vmode) || decide (q.occ < (v - q.ci).toNat) then d.dbError qn
    else
      let q := { q with ci := v, armed := true }
      let d := d.setQueue qn q
      if q.ckind = 2 && q.nonEmpty then (d.setQueue qn { q with armed := false }).sendMsix (q.target % 2048) else d

/-- Handover of the next descriptor of a UNIT queue: withdrawn and poisoned entries are skipped and counted; answers the
descriptor with its index, and the indices lost to poison (R307 to R309). -/
def Dev.handoverGo : Nat → Dev → Nat → List Nat → Dev × Option (Nat × List Byte) × List Nat
  | 0, d, _, lost => (d, none, lost)
  | f + 1, d, qn, lost =>
    let q := d.queue qn
    if !q.enabled || !q.nonEmpty || decide (q.ckind ≠ 3) then (d, none, lost)
    else
      let i := q.ci.toNat
      if q.marked.contains i then
        let d := d.setQueue qn { q with ci := q.ci + 1, marked := q.marked.filter (fun x => decide (x ≠ i)) }
        Dev.handoverGo f (d.bump (qmgCnt 5)) qn lost
      else
        let (d, r) := d.memRead .queueMgr (q.slotAddr q.ci) 32
        let d := d.setQueue qn { q with ci := q.ci + 1 }
        match r with
        | .ok bs => (d.bump (qmgCnt 4), some (i, bs), lost)
        | _ => Dev.handoverGo f d.tokenPoison qn (lost ++ [i])

/-- Handover from a queue, at most its whole occupancy. -/
def Dev.handover (d : Dev) (qn : Nat) : Dev × Option (Nat × List Byte) × List Nat :=
  let d := if (d.queue qn).enabled then d.qTouch qn true else d
  Dev.handoverGo ((d.queue qn).occ + 1) d qn []

/-- Smilda's withdrawal of a posted entry: marked unless it has been handed over (R309). -/
def Dev.withdrawEntry (d : Dev) (qn i : Nat) : Dev :=
  let q := d.queue qn
  if (BitVec.ofNat 32 i - q.ci).toNat < q.occ then d.setQueue qn { q with marked := q.marked ++ [i] } else d

/-! ### Queue commands (R302) -/

/-- A ring lies in one permitted memory: Pool, cluster memory or DDR5 (R301). -/
def Dev.ringPermitted (d : Dev) (a n : Nat) : Bool :=
  let r := fun x => (d.locate .queueMgr x).1
  let ok := r a = .pool ∨ r a = .cluster ∨ r a = .ddr
  let sameCluster := r a ≠ .cluster ∨ (a / 0x1000000 = (a + n - 1) / 0x1000000)
  decide (ok ∧ r (a + n - 1) = r a ∧ sameCluster)

/-- A table entry read and checked; none is BAD_ENTRY (R301, R302). -/
def Dev.parseEntry (d : Dev) (bs : List Byte) : Option Queue :=
  let w0 := leAt bs 0 8
  let tgt := leAt bs 8 4
  let tag := leAt bs 16 8
  let ck := fld w0 47 45
  let n := fld w0 44 40
  let ring := fld w0 39 0
  let badTarget :=
    if ck = 1 then decide (192 ≤ tgt % 256) || decide (fld tgt 31 11 ≠ 0)
    else if ck = 2 then decide (fld tgt 31 11 ≠ 0)
    else decide (tgt ≠ 0)
  if fld w0 63 52 ≠ 0 ∨ leAt bs 12 4 ≠ 0 ∨ leAt bs 24 8 ≠ 0 ∨ 5 ≤ ck ∨ n = 0 ∨ 16 < n ∨ badTarget
      ∨ (ck ≠ 4 ∧ tag ≠ 0) ∨ ring % (32 * 2 ^ n) ≠ 0 ∨ !d.ringPermitted ring (32 * 2 ^ n) then none
  else some {
    enabled := true, armed := true, ring := ring, log2n := n, ckind := ck, post := bit w0 48, stall := bit w0 49,
    hostok := bit w0 50, vmode := bit w0 51, target := tgt, tag := BitVec.ofNat 64 tag }

/-- Report a queue command's result: 0 OK, 1 BUSY, 2 BAD_ENTRY, 3 SLOT_TAKEN, 4 NO_QUEUE (R333). -/
def Dev.qResult (d : Dev) (r : Nat) : Dev := { d with q := { d.q with result := r } }

/-- The queue manager runs. -/
def Dev.qmgOn (d : Dev) : Bool := bit (d.regN (qmgBase + 4)) 0

/-- LOAD (R302). -/
def Dev.qLoad (d : Dev) (qn : Nat) : Dev :=
  if (d.queue qn).enabled then d.qResult 1
  else if d.nq ≤ qn then d.qResult 4
  else
    let (d, r) := d.memRead .queueMgr (d.reg64 (qmgBase + 0x20) + 32 * qn) 32
    match r with
    | .ok bs =>
      match d.parseEntry bs with
      | none => d.qResult 2
      | some q =>
        if q.ckind = 1 && d.q.queues.any (fun e => e.2.enabled && e.2.ckind = 1 && e.2.target = q.target) then d.qResult 3
        else ((d.setQueue qn q).qTouch qn false).qResult 0
    | _ => d.qResult 2

/-- DISABLE (R302). -/
def Dev.qDisable (d : Dev) (qn : Nat) : Dev :=
  if d.nq ≤ qn then d.qResult 4 else (d.setQueue qn { d.queue qn with enabled := false, marked := [] }).qResult 0

/-- BIND (R302). -/
def Dev.qBind (d : Dev) (qn : Nat) : Dev :=
  let q := d.queue qn
  if d.nq ≤ qn || !q.enabled then d.qResult 4
  else if q.ckind ≠ 4 then d.qResult 2
  else (d.setQueue qn { q with tag := BitVec.ofNat 64 (d.reg64 (qmgBase + 0x38)) }).qResult 0

/-- CLEAR (R302). -/
def Dev.qClear (d : Dev) (qn : Nat) : Dev :=
  if d.nq ≤ qn then d.qResult 4 else (d.setQueue qn { d.queue qn with dropped := false, dbErr := false }).qResult 0

/-- A write of QMG_QCMD (R302), carried out whatever ENABLE reads (assumption log 10). -/
def Dev.qCommand (d : Dev) (v : Nat) : Dev :=
  let qn := fld v 17 0
  match fld v 19 18 with
  | 0 => d.qLoad qn
  | 1 => d.qDisable qn
  | 2 => d.qBind qn
  | _ => d.qClear qn

/-- A core's post: one 64-byte write to QMG_POST (R304). -/
def Dev.corePost (d : Dev) (ag : Agent) (bs : List Byte) : Dev :=
  if bs.length = 64 ∧ leAt bs 32 4 < 2 ^ 18 ∧ (bs.drop 36).all (fun b => decide (b = 0)) then
    (d.post ag false (leAt bs 32 4) (bs.take 32) none).1
  else (d.qmgInt 2).bump (qmgCnt 7)

/-- Writing QMG_CTRL (R333). -/
def Dev.qmgEnable (d : Dev) (on : Bool) : Dev :=
  if on then
    let base := d.reg64 (qmgBase + 0x20)
    let size := 32 * d.nq
    let r := (d.locate .queueMgr base).1
    let r2 := (d.locate .queueMgr (base + size - 1)).1
    if 4 ≤ d.regN (qmgBase + 0x28) ∧ d.regN (qmgBase + 0x28) ≤ 18 ∧ base % size = 0 ∧ r = r2 ∧ (r = .pool ∨ r = .ddr) then
      { (d.setRegN (qmgBase + 4) 1) with q := { d.q with cfgErr := false } }
    else { (d.setRegN (qmgBase + 4) 0) with q := { d.q with cfgErr := true } }
  else
    let off := d.q.queues.foldl (fun (d : Dev) e => d.setQueue e.1 { d.queue e.1 with enabled := false, marked := [] }) d
    off.setRegN (qmgBase + 4) 0

/-! ### The host's BAR2 pages (R312) -/

/-- The host may reach a queue's page. -/
def Dev.hostOk (d : Dev) (qn : Nat) : Bool :=
  decide (qn < d.nq) && (d.queue qn).enabled && (d.queue qn).hostok

/-- A host write of `bs` at offset `off` of the page of queue `qn` (R312). -/
def Dev.hostWrite (d : Dev) (qn off : Nat) (bs : List Byte) : Dev :=
  if !d.hostOk qn then d.bump (qmgCnt 11)
  else if off = 0 ∧ (bs.length = 32 ∨ bs.length = 64) then (d.post .host false qn (bs.take 32) none).1
  else if off < 0x20 then (d.qmgInt 2).bump (qmgCnt 7)
  else
    let words := (List.range (ceilDiv bs.length 4)).map (fun i => (off + 4 * i, (bs.drop (4 * i)).take 4))
    if off % 4 ≠ 0 then d
    else words.foldl (fun d w =>
      if w.2.length < 4 then d
      else if w.1 = 0x20 then d.doorbellPi qn (BitVec.ofNat 32 (leNat w.2))
      else if w.1 = 0x24 then d.doorbellCi qn (BitVec.ofNat 32 (leNat w.2))
      else d) d

/-- A host read of a word of a queue's page (R312). -/
def Dev.hostPageWord (d : Dev) (qn off : Nat) : Nat :=
  let q := d.queue qn
  if off = 0x20 then q.pi.toNat else if off = 0x24 then q.ci.toNat
  else if off = 0x28 then q.occ else if off = 0x2C then q.flags else 0

/-- A host read of a queue's page: the bytes, and a denied access counted (R312). -/
def Dev.hostRead (d : Dev) (qn off n : Nat) : Dev × List Byte :=
  if !d.hostOk qn then (d.bump (qmgCnt 11), zeros n)
  else
    let bs := (List.range 16).flatMap (fun i => leBytes 4 (d.hostPageWord qn (4 * i)))
    (d, (bs.drop off).take n)

end Sys2Proof.Machine
end

