-- ==== Sys2Proof/Machine/Smilda.lean ====
section
/-!
DEFINITION. Smilda's shared operations: node records, instances, matching, ready lists, dispatch, completion, cancellation
(R33 to R71).
-/
namespace Sys2Proof.Machine

/-- Address of Smilda counter `i` of R79. -/
def smdCnt (i : Nat) : Nat := smdBase + 0x900 + 8 * i

/-- Set a SMD_INT_STATUS bit (R76). -/
def Dev.smdInt (d : Dev) (b : Nat) : Dev := d.setBits (smdBase + 0x10) (2 ^ b)

/-- Raise a high-water mark (R72). -/
def Dev.hwm (d : Dev) (o v : Nat) : Dev := d.setRegN (smdBase + o) (max (d.regN (smdBase + o)) v)

/-- The handle of a slot's incarnation (R40). -/
def handleOf (i gen : Nat) : Nat := i + 65536 * gen

/-- A token tag (R43). -/
def tagOf (i gen node slot : Nat) : Nat := handleOf i gen + 2 ^ 32 * node + 2 ^ 42 * slot

/-! ### Node records (R34 to R37) -/

/-- A node record as its bytes give it (R34). -/
def parseNode (bs : List Byte) : NodeRec :=
  let w := leAt bs 0 4
  { kind := fld w 2 0, isEnd := bit w 3, prio := fld w 7 4, nops := fld w 11 8, target := fld w 16 12,
    auto := fld w 23 20, param32 := leAt bs 4 4, param64 := leAt bs 8 8,
    edges := (List.range 4).map (fun k =>
      let e := leAt bs (16 + 4 * k) 4
      { dest := fld e 9 0, slot := fld e 12 10, valid := bit e 13 }) }

/-- A descriptor template's length in bytes (R35). -/
def NodeRec.descLen (r : NodeRec) : Nat := 32 * (fld r.param64 42 40 + 1)

/-- A record's own fields are valid (R36). -/
def NodeRec.fieldsOk (r : NodeRec) : Bool :=
  match r.kind with
  | 0 => decide (1 ≤ r.nops ∧ r.nops ≤ 8)
  | 1 => decide (1 ≤ r.nops ∧ r.nops ≤ 8 ∧ r.target < 8 ∧ 8 * (r.param32 % 256) + 8 * r.nops ≤ r.descLen)
  | 2 => decide (1 ≤ r.nops ∧ r.nops ≤ 8 ∧ 8 * (r.param32 % 256) + 8 * r.nops ≤ r.descLen)
  | 3 => decide (r.nops ≤ 1 ∧ r.target = 0)
  | 4 => decide (r.nops = 1 ∧ r.target = 0 ∧ r.param32 % 65536 ≠ 0)
  | _ => false

/-- Record `n` of an instance's template as it stands in memory. -/
def Dev.fetchNode (d : Dev) (s : Slot) (n : Nat) : Dev × Option NodeRec :=
  match d.busRead .smilda (s.nodeBase + 32 * n) 32 with
  | (d, .ok bs) => (d, some (parseNode bs))
  | (d, _) => (d, none)

/-- A cached record. -/
def Dev.cachedNode (d : Dev) (tpl n : Nat) : Option NodeRec :=
  (d.smd.cache.find? (fun c => c.template = tpl && c.node = n)).map (·.nrec)

/-- NOPS of a node that an edge names; none when its record cannot be read. -/
def Dev.destNops (d : Dev) (s : Slot) (n : Nat) : Dev × Option Nat :=
  match d.cachedNode s.template n with
  | some r => (d, some r.nops)
  | none =>
    match d.fetchNode s n with
    | (d, r) => (d, r.map (·.nops))

/-- Every valid edge names a node of the template and an operand below its NOPS (R36). -/
def Dev.edgesOk (d : Dev) (s : Slot) (r : NodeRec) : Dev × Bool :=
  r.edges.foldl (fun (acc : Dev × Bool) e =>
    if !e.valid then acc
    else if s.lastNode < e.dest then (acc.1, false)
    else match acc.1.destNops s e.dest with
      | (d, some n) => (d, acc.2 && decide (e.slot < n))
      | (d, none) => (d, false)) (d, true)

/-- Put a record in the cache of 16,384 records; the victim of a full cache is a free choice (R37, assumption log 8). -/
def Dev.cacheNode (d : Dev) (tpl n : Nat) (r : NodeRec) : Dev :=
  let (d, kept) :=
    if d.smd.cache.length ≥ 16384 then
      let i := d.freeBelow d.smd.cache.length
      (d.used, d.smd.cache.eraseIdx i)
    else (d, d.smd.cache)
  { d with smd := { d.smd with cache := kept ++ [⟨tpl, n, r⟩] } }

/-- The record of a node of an instance: cached, or read and checked; none is invalid or unreadable (R36, R37). -/
def Dev.nodeRecord (d : Dev) (s : Slot) (n : Nat) : Dev × Option NodeRec :=
  match d.cachedNode s.template n with
  | some r => (d, some r)
  | none =>
    let d := d.bump (smdCnt 17)
    match d.fetchNode s n with
    | (d, none) => (d, none)
    | (d, some r) =>
      match d.edgesOk s r with
      | (d, ok) => if r.fieldsOk && ok then (d.cacheNode s.template n r, some r) else (d, none)

/-! ### Records to the notify queue (R41) -/

/-- MARGIN field of a record (R41). -/
def recordMargin (deadline time : Nat) : Nat :=
  if deadline = noDeadline then 0x7FFFFFFF else ofSigned 32 (satS 32 (marginOf deadline time))

/-- A 32-byte record (R41). -/
def recordBytes (handle status cause detail user time margin fail : Nat) : List Byte :=
  leBytes 4 handle ++ leBytes 1 status ++ leBytes 1 cause ++ leBytes 2 detail ++ leBytes 8 user ++ leBytes 8 time
    ++ leBytes 4 margin ++ leBytes 1 fail ++ zeros 3

/-- Smilda posts a record (R41). -/
def Dev.smdRecord (d : Dev) (q : Nat) (bs : List Byte) : Dev := d.postHw .smilda q bs

/-! ### Closing instances (R42, R70) -/

/-- Write CANCELLED in the dispatch record of every core that runs a node of the instance (R57). -/
def Dev.markCancelled (d : Dev) (i gen : Nat) : Dev :=
  (Tab.keys d.cores (fun k => match k.held with | some h => h.inst = i && h.gen = gen | none => false)).foldl
    (fun (d : Dev) c => (d.memWrite .smilda (lmBase c + 0x3FF80 + 96) [1]).1) d

/-- Withdraw the instance's jobs that are posted and not started (R42, R70, R309). -/
def Dev.withdrawJobs (d : Dev) (i gen : Nat) : Dev :=
  let mine := d.smd.jobs.filter (fun j => j.inst = i && j.gen = gen && !j.started)
  let d := mine.foldl (fun (d : Dev) j =>
    match j.index with
    | some x => d.withdrawEntry j.queue x
    | none =>
      { d with q := { d.q with held := d.q.held.filter (fun h => decide (h.job ≠ some (j.cls, j.unit, j.stage))) } }) d
  { d with smd := { d.smd with jobs := d.smd.jobs.filter (fun j => !(j.inst = i && j.gen = gen && !j.started)) } }

/-- Remove an instance's ready nodes, matching entries and timers. -/
def Dev.dropWork (d : Dev) (i gen : Nat) : Dev :=
  { d with smd := { d.smd with
      ready := d.smd.ready.filter (fun r => !(r.inst = i && r.gen = gen))
      store := d.smd.store.filter (fun e => !(e.inst = i && e.gen = gen))
      spill := d.smd.spill.filter (fun e => !(e.ent.inst = i && e.ent.gen = gen))
      timers := d.smd.timers.filter (fun t => !(t.inst = i && t.gen = gen)) } }

/-- Started work of an instance remains: a core holds a node, or a started job has not completed (R40). -/
def Dev.startedWork (d : Dev) (i gen : Nat) : Bool :=
  d.cores.any (fun e => match e.2.held with | some h => h.inst = i && h.gen = gen | none => false)
    || d.smd.jobs.any (fun j => j.inst = i && j.gen = gen)

/-- A CLOSING slot with no started work becomes FREE: GEN increments and the final record is posted (R40, R41). -/
def Dev.tryFree (d : Dev) (i : Nat) : Dev :=
  let s := d.slot i
  if s.phase = .closing && !d.startedWork i s.gen then
    let d := d.setSlot i { ({} : Slot) with gen := (s.gen + 1) % 256 }
    d.smdRecord s.notify (recordBytes (handleOf i s.gen) s.endStatus s.endCause s.endDetail s.user s.endTime
      (recordMargin s.deadline s.endTime) s.endFail)
  else d

/-- Causes of R41. -/
def causeDeadline : Nat := 1
def causeSoftware : Nat := 2
def causeOverflow : Nat := 3
def causeNodeFail : Nat := 4
def causeSpill : Nat := 5
def causeTemplate : Nat := 6
def causeDisabled : Nat := 7

/-- Interrupt bit of a cause, where it has one (R76). -/
def causeInt (cause : Nat) : Option Nat :=
  match cause with
  | 1 => some 4 | 3 => some 1 | 4 => some 3 | 5 => some 6 | 6 => some 5 | _ => none

/-- Cancellation of a LIVE instance (R70). -/
def Dev.cancelInst (d : Dev) (i cause detail fail : Nat) : Dev :=
  let s := d.slot i
  if s.phase ≠ .live then d
  else
    let d := d.setSlot i { s with
      phase := .closing, endStatus := 3, endCause := cause, endDetail := detail, endFail := fail, endTime := d.now }
    let d := d.bump (smdCnt 12)
    let d := if cause = causeDeadline then
        { (d.bump (smdCnt 11)) with pwr := { d.pwr with deadlineHit := true } } else d
    let d := match causeInt cause with | some b => d.smdInt b | none => d
    let d := d.trace 7 0 (handleOf i s.gen + 2 ^ 32 * cause)
    (((d.dropWork i s.gen).withdrawJobs i s.gen).markCancelled i s.gen).tryFree i

/-- A node fails and its instance is cancelled with NODE_FAIL (R41, R60). -/
def Dev.nodeFail (d : Dev) (i gen node fail : Nat) : Dev :=
  if (d.slot i).gen = gen then d.cancelInst i causeNodeFail node fail else d

/-- Orphans of an instance: its ready nodes and its partial entries (R42). -/
def Dev.orphans (d : Dev) (i gen : Nat) : Nat :=
  (d.smd.ready.filter (fun r => r.inst = i && r.gen = gen)).length
    + (d.smd.store.filter (fun e => e.inst = i && e.gen = gen)).length
    + (d.smd.spill.filter (fun e => e.ent.inst = i && e.ent.gen = gen)).length

/-- An END node completes its instance (R42). -/
def Dev.completeInst (d : Dev) (i : Nat) : Dev :=
  let s := d.slot i
  if s.phase ≠ .live then d
  else
    let n := d.orphans i s.gen
    let d := d.setSlot i { s with
      phase := .closing, endStatus := 2, endCause := 0, endDetail := min n 65535, endFail := 0, endTime := d.now }
    let d := d.bumpBy (smdCnt 14) n
    (((d.dropWork i s.gen).withdrawJobs i s.gen).markCancelled i s.gen).tryFree i

/-! ### Ready lists and firing (R52, R53, R62, R63, R67) -/

/-- A node's effective level (R53). -/
def effLevel (p : Promo) (prio : Nat) : Nat :=
  match p with
  | .none => prio
  | .t1 => prio - 1
  | .t2 => 0

/-- A member of the pool that is awake and blocked in TAKE exists (R63). -/
def Dev.poolAwake (d : Dev) (p : Nat) : Bool :=
  (d.poolCores p).any (fun c => (d.core c).take.isSome && (d.corePower c = .active || d.corePower c = .nap))

/-- Receivers of a target are all asleep, so that a node becoming ready raises a wake request (R63). -/
def Dev.asleep (d : Dev) (t : Target) : Bool :=
  match t with
  | .pool p => !d.poolAwake p
  | .cls k => (List.range (classSize k)).all (fun u => d.power (pwrEng k u) = .doze || d.power (pwrEng k u) = .off)
  | .mover m => d.power (pwrEng 8 m) = .doze || d.power (pwrEng 8 m) = .off

/-- A wake request to Gander (R63, R480). -/
def Dev.wakeRequest (d : Dev) (t : Target) : Dev :=
  let d := d.bump (pwrBase + 0x418)
  if d.smd.wakeReqs.contains t then d else { d with smd := { d.smd with wakeReqs := d.smd.wakeReqs ++ [t] } }

/-- The target of a node (R35). -/
def NodeRec.tgt (r : NodeRec) : Target :=
  match r.kind with
  | 0 => .pool r.target
  | 1 => .cls r.target
  | _ => .mover r.target

/-- A pool has no members. -/
def Dev.poolEmpty (d : Dev) (t : Target) : Bool :=
  match t with
  | .pool p => d.poolCores p = []
  | _ => false

/-- A node enters the tail of its ready list (R52, R63, R67). -/
def Dev.makeReady (d : Dev) (i n : Nat) (r : NodeRec) (vals : List Nat) : Dev :=
  let s := d.slot i
  let t := r.tgt
  let d := if d.poolEmpty t && d.readyOf t = 0 then d.smdInt 2 else d
  let e : Ready := ⟨i, s.gen, n, t, effLevel s.promo r.prio, d.smd.order, d.smd.order, vals, r⟩
  let d := { d with smd := { d.smd with ready := d.smd.ready ++ [e], order := d.smd.order + 1 } }
  if d.asleep t then d.wakeRequest t else d

/-- Send a value on every valid edge of a node (R60, R62). -/
def Dev.sendEdges (d : Dev) (src : TokSrc) (i gen : Nat) (r : NodeRec) (v : Nat) : Dev :=
  r.edges.foldl (fun d e => if e.valid then d.sendToken ⟨src, tagOf i gen e.dest e.slot, v⟩ else d) d

/-- Arm a timer node at ANCHOR + offset (R62). -/
def Dev.armTimer (d : Dev) (i n : Nat) (r : NodeRec) : Dev :=
  let s := d.slot i
  let t : Timer := ⟨i, s.gen, n, (s.anchor : Int) + toSigned 64 r.param64, r⟩
  { d with smd := { d.smd with timers := d.smd.timers ++ [t] } }

/-- Count a duplicate token and set ERR_DUP (R45). -/
def Dev.duplicate (d : Dev) (i : Nat) : Dev :=
  (d.bump (smdCnt 7)).setSlot i { d.slot i with errDup := true }

/-- fire_or_ready of R47. -/
def Dev.fireOrReady (d : Dev) (i n : Nat) (r : NodeRec) (vals : List Nat) : Dev :=
  match r.kind with
  | 3 =>
    if d.smd.timers.any (fun t => t.inst = i && t.gen = (d.slot i).gen && t.node = n) then d.duplicate i
    else d.armTimer i n r
  | 4 =>
    let s := d.slot i
    let d := d.setSlot i { s with fired := if s.fired.contains n then s.fired else s.fired ++ [n] }
    d.sendEdges .smilda i s.gen r (vals.headD 0)
  | _ => d.makeReady i n r vals

/-! ### Matching (R46 to R50) -/

/-- An entry is the one of a key. -/
def MEntry.isKey (e : MEntry) (i g n : Nat) : Bool := e.inst = i && e.gen = g && e.node = n

/-- Base and size of the spill region (R48). -/
def Dev.spillLog2 (d : Dev) : Nat := d.regN (smdBase + 0x30)
def Dev.spillBase (d : Dev) : Nat := d.reg64 (smdBase + 0x28)

/-- A key's bucket (R48). -/
def spillBucket (l i n : Nat) : Nat := (((i * 1024 + n) * 40503) % 2097152) >>> (21 - l)

/-- Address of a place in a bucket (R48). -/
def Dev.spillAddr (d : Dev) (e : SpillEntry) : Nat := d.spillBase + 1024 * e.bucket + 128 * e.place

/-- The 128 bytes of a spilled entry: the key in its first line (R48, assumption log 12). -/
def SpillEntry.bytes (e : SpillEntry) : List Byte :=
  padTo 64 (leBytes 8 (tagOf e.ent.inst e.ent.gen e.ent.node 0) ++ leBytes 1 e.ent.mask ++ leBytes 2 e.ent.count)
    ++ (List.range 8).flatMap (fun k => leBytes 8 (Tab.get (fun _ => 0) e.ent.vals k))

/-- Write a spilled entry to the spill region. -/
def Dev.spillWrite (d : Dev) (e : SpillEntry) : Dev := (d.memWrite .smilda (d.spillAddr e) e.bytes).1

/-- Read the entries of a bucket: poison discards an entry or cancels its instance (R50). -/
def Dev.spillCheck (d : Dev) (b : Nat) : Dev :=
  (d.smd.spill.filter (fun e => e.bucket = b)).foldl (fun (d : Dev) e =>
    match d.memRead .smilda (d.spillAddr e) 64 with
    | (d, .ok _) =>
      match d.memRead .smilda (d.spillAddr e + 64) 64 with
      | (d, .ok _) => d
      | (d, _) => (d.smdInt 6).cancelInst e.ent.inst causeSpill 0 0
    | (d, _) =>
      let d := (d.smdInt 6).bump (smdCnt 16)
      { d with smd := { d.smd with spill := d.smd.spill.filter (fun x => decide (x ≠ e)) } }) d

/-- Where an entry is held. -/
inductive Held where
  | chip (e : MEntry)
  | spilled (e : SpillEntry)
  deriving DecidableEq, Repr

/-- The entry of a place. -/
def Held.ent : Held → MEntry
  | .chip e => e
  | .spilled e => e.ent

/-- find_or_make of R47: the entry, none when the bucket is full. -/
def Dev.findOrMake (d : Dev) (i g n : Nat) : Dev × Option Held :=
  match d.smd.store.find? (fun e => e.isKey i g n) with
  | some e => (d, some (.chip e))
  | none =>
    let b := spillBucket d.spillLog2 i n
    let d := if d.smd.spill ≠ [] then d.spillCheck b else d
    match d.smd.spill.find? (fun e => e.ent.isKey i g n) with
    | some e => (d.bump (smdCnt 5), some (.spilled e))
    | none =>
      if d.smd.store.length < 65536 then
        let e : MEntry := { inst := i, gen := g, node := n }
        let d := { d with smd := { d.smd with store := d.smd.store ++ [e] } }
        (d.hwm 0x804 d.smd.store.length, some (.chip e))
      else
        let used := (d.smd.spill.filter (fun e => e.bucket = b)).map (·.place)
        match (List.range 8).find? (fun p => !used.contains p) with
        | none => (d, none)
        | some p =>
          let e : SpillEntry := ⟨b, p, { inst := i, gen := g, node := n }⟩
          let first := decide (d.smd.spill = [])
          let d := { d with smd := { d.smd with spill := d.smd.spill ++ [e] } }
          let d := (d.bump (smdCnt 4)).hwm 0x80C d.smd.spill.length
          (if first then d.smdInt 0 else d, some (.spilled e))

/-- Replace an entry where it is held. -/
def Dev.putEntry (d : Dev) (h : Held) (e : MEntry) : Dev :=
  match h with
  | .chip o =>
    let st := d.smd.store.map (fun x => if x.isKey o.inst o.gen o.node then e else x)
    { d with smd := { d.smd with store := st } }
  | .spilled o =>
    let n : SpillEntry := { o with ent := e }
    let sp := d.smd.spill.map (fun x => if x.ent.isKey o.ent.inst o.ent.gen o.ent.node then n else x)
    ({ d with smd := { d.smd with spill := sp } }).spillWrite n

/-- Release an entry (R46). -/
def Dev.releaseEntry (d : Dev) (e : MEntry) : Dev :=
  { d with smd := { d.smd with
      store := d.smd.store.filter (fun x => !x.isKey e.inst e.gen e.node)
      spill := d.smd.spill.filter (fun x => !x.ent.isKey e.inst e.gen e.node) } }

/-- The part of accept that meets an entry (R47). -/
def Dev.matchEntry (d : Dev) (i n slot val : Nat) (r : NodeRec) (h : Held) : Dev :=
  let e := h.ent
  if r.kind = 4 then
    let e := { e with count := e.count + 1, vals := Tab.put (fun _ => 0) e.vals 0 val }
    if e.count = r.param32 % 65536 then (d.releaseEntry e).fireOrReady i n r [val] else d.putEntry h e
  else if bit e.mask slot then d.duplicate i
  else
    let e := { e with mask := e.mask ||| 2 ^ slot, vals := Tab.put (fun _ => 0) e.vals slot val }
    if e.mask = 2 ^ r.nops - 1 then
      (d.releaseEntry e).fireOrReady i n r ((List.range r.nops).map (fun k => Tab.get (fun _ => 0) e.vals k))
    else d.putEntry h e

/-- The procedure accept of R47. -/
def Dev.acceptToken (d : Dev) (tag val : Nat) : Dev :=
  let i := fld tag 10 0
  let g := fld tag 23 16
  let n := fld tag 41 32
  let slot := fld tag 44 42
  let d := d.bump (smdCnt 0)
  let s := d.slot i
  if s.phase ≠ .live || s.gen ≠ g then d.bump (smdCnt 6)
  else if s.lastNode < n then d.bump (smdCnt 8)
  else
    match d.nodeRecord s n with
    | (d, none) => d.cancelInst i causeTemplate 0 0
    | (d, some r) =>
      if (r.kind = 4 && slot ≠ 0) || r.nops ≤ slot then d.bump (smdCnt 8)
      else if r.nops = 1 && r.kind ≠ 4 then d.fireOrReady i n r [val]
      else
        match d.findOrMake i g n with
        | (d, none) => (d.bump (smdCnt 16)).cancelInst i causeOverflow 0 0
        | (d, some h) => if (d.slot i).phase = .live then d.matchEntry i n slot val r h else d

/-! ### Creating an instance (R39 to R41, R62) -/

/-- Arm the timer nodes that have no operand (R62); their records are read, and an invalid one cancels the instance. -/
def Dev.armAll (d : Dev) (i : Nat) : Dev :=
  let s := d.slot i
  (List.range (s.lastNode + 1)).foldl (fun (d : Dev) n =>
    if (d.slot i).phase ≠ .live || (d.slot i).gen ≠ s.gen then d
    else match d.fetchNode s n with
      | (d, some r) =>
        if r.kind = 3 && r.nops = 0 then
          match d.nodeRecord s n with
          | (d, some r) => d.armTimer i n r
          | (d, none) => d.cancelInst i causeTemplate 0 0
        else d
      | (d, none) => d) d

/-- A refused creation's record (R39, R41). -/
def Dev.refuseCreate (d : Dev) (notify user deadline status : Nat) : Dev :=
  d.smdRecord notify (recordBytes 0 status 0 0 user d.now (recordMargin deadline d.now) 0)

/-- Smilda takes a creation descriptor (R39). -/
def Dev.createInst (d : Dev) (bs : List Byte) : Dev :=
  let tpl := leAt bs 0 2 % 4096
  let notify := leAt bs 4 4 % 2 ^ 18
  let anchor := leAt bs 8 8
  let deadline := leAt bs 16 8
  let user := leAt bs 24 8
  match (List.range 2048).find? (fun i => (d.slot i).phase = .free) with
  | none => (d.bump (smdCnt 15)).refuseCreate notify user deadline 0x10
  | some i =>
    match d.busRead .smilda (d.reg64 (smdBase + 0x20) + 16 * tpl) 16 with
    | (d, .ok e) =>
      let w := leAt e 0 8
      let w2 := leAt e 8 8
      if !bit w 50 || fld w 63 51 ≠ 0 || fld w2 63 32 ≠ 0 then d.refuseCreate notify user deadline 0x11
      else if deadline ≤ d.now then d.refuseCreate notify user deadline 0x12
      else
        let s : Slot := {
          phase := .live, gen := (d.slot i).gen, template := tpl, lastNode := fld w 49 40, nodeBase := fld w 39 0,
          t1us := fld w2 15 0, t2us := fld w2 31 16, notify := notify, anchor := anchor, deadline := deadline,
          user := user }
        let d := d.setSlot i s
        let d := d.hwm 0x814 d.liveCount
        let d := d.smdRecord notify
          (recordBytes (handleOf i s.gen) 1 0 0 user d.now (recordMargin deadline d.now) 0)
        d.armAll i
    | (d, _) => d.refuseCreate notify user deadline 0x11

/-! ### Dispatch (R52, R54 to R57, R60, R61) -/

/-- The order in which commits are made (R52). -/
def Target.rank : Target → Nat
  | .pool p => p
  | .cls k => 64 + k
  | .mover m => 128 + m

def Ready.before (a b : Ready) : Bool :=
  if a.level ≠ b.level then decide (a.level < b.level)
  else if a.entered ≠ b.entered then decide (a.entered < b.entered)
  else if a.inst ≠ b.inst then decide (a.inst < b.inst)
  else if a.node ≠ b.node then decide (a.node < b.node)
  else decide (a.target.rank < b.target.rank)

/-- A receiver: a core, an engine, or a channel of a mover. -/
inductive Receiver where
  | core (c : Nat)
  | engine (cls u : Nat)
  | chan (m k : Nat)
  deriving DecidableEq, Repr

/-- Jobs posted to an engine and not finished (R60). -/
def Dev.jobsOf (d : Dev) (cls u : Nat) : List Job := d.smd.jobs.filter (fun j => j.cls = cls && j.unit = u)

/-- The engine of a class that a node is posted to: Active, then Nap, then Doze, lowest number; never Off (R60). -/
def Dev.pickEngine (d : Dev) (cls : Nat) : Option Nat :=
  let opened := (List.range (classSize cls)).filter (fun u =>
    decide ((d.jobsOf cls u).length < d.regN (smdBase + 0x80 + 4 * cls)) && d.power (pwrEng cls u) ≠ .off)
  (opened.find? (fun u => d.power (pwrEng cls u) = .active))
    <|> (opened.find? (fun u => d.power (pwrEng cls u) = .nap)) <|> opened.head?

/-- The member of a pool that a node is dispatched to: blocked in TAKE for the shortest time, awake (R56). -/
def Dev.pickCore (d : Dev) (p : Nat) : Option Nat :=
  let ws := (d.poolCores p).filter (fun c =>
    (d.core c).take.isSome && !(d.core c).stopped && (d.corePower c = .active || d.corePower c = .nap))
  let top := ws.foldl (fun m c => max m ((d.core c).take.map (·.since)).get!) 0
  ws.find? (fun c => ((d.core c).take.map (·.since)) = some top)

/-- The lowest idle channel of a mover marked for Smilda (R61). -/
def Dev.pickChan (d : Dev) (m : Nat) : Option Nat :=
  if d.power (pwrEng 8 m) = .off then none
  else (List.range 16).find? (fun k => d.isSmildaChan m k && (d.chan m k).st = .idle)

/-- The receiver available for a target, if any. -/
def Dev.receiver (d : Dev) (t : Target) : Option Receiver :=
  match t with
  | .pool p => (d.pickCore p).map .core
  | .cls k => (d.pickEngine k).map (.engine k)
  | .mover m => (d.pickChan m).map (.chan m)

/-- The ready node that the next commit takes: no node whose instance's deadline has come (R52, R54). -/
def Dev.nextReady (d : Dev) : Option Ready :=
  d.smd.ready.foldl (fun best r =>
    if (d.slot r.inst).deadline ≤ d.now || (d.receiver r.target).isNone then best
    else match best with
      | none => some r
      | some b => if r.before b then some r else best) none

/-- The 128-byte dispatch record (R57). -/
def dispatchRecord (s : Slot) (r : Ready) (now : Nat) : List Byte :=
  let margin := if s.deadline = noDeadline then 0x7FFFFFFFFFFFFFFF else ofSigned 64 (satS 64 (marginOf s.deadline now))
  leBytes 4 (handleOf r.inst r.gen) ++ leBytes 2 r.node ++ leBytes 1 r.level ++ leBytes 1 r.nrec.nops
    ++ leBytes 8 margin ++ leBytes 8 s.user ++ leBytes 8 r.nrec.param64
    ++ (List.range 8).flatMap (fun k => leBytes 8 (r.vals.getD k 0)) ++ zeros 32

/-- Bits of a value under a mask over an old value. -/
def underMask {w : Nat} (old mask v : BitVec w) : BitVec w := (old &&& ~~~mask) ||| (v &&& mask)

/-- Write a scalar or other register from its physical name; the masked bits change. -/
def Core.writeReg (k : Core) (w : RegWr) : Core :=
  match w with
  | .s b n v => { k with sregs := Tab.put (fun _ => 0) k.sregs (if b then 32 + n else n) v }
  | .p b n m v =>
    let i := if b then 8 + n else n
    { k with pregs := Tab.put (fun _ => 0) k.pregs i (underMask (Tab.get (fun _ => 0) k.pregs i) m v) }
  | .v n m v => { k with vregs := Tab.put (fun _ => 0) k.vregs n (underMask (Tab.get (fun _ => 0) k.vregs n) m v) }
  | .a n m v => { k with aregs := Tab.put (fun _ => 0) k.aregs n (underMask (Tab.get (fun _ => 0) k.aregs n) m v) }
  | .vsat m => { k with ctl := Tab.put ctlReset k.ctl 0x94 (Tab.get ctlReset k.ctl 0x94 ||| m) }
  | .mem _ _ => k

/-- TAKE returns with a value in its destination register (R55). -/
def Core.takeReturns (k : Core) (w : TakeWait) (v : BitVec 32) : Core :=
  match w.dst with
  | .s b n => { (k.writeReg (.s b n v)) with take := none }
  | _ => { k with take := none }

/-- Remove a ready node from its list. -/
def Dev.unready (d : Dev) (r : Ready) : Dev :=
  { d with smd := { d.smd with ready := d.smd.ready.filter (fun x => decide (x.entered ≠ r.entered)) } }

/-- Commit a core node (R55 to R57). -/
def Dev.commitCore (d : Dev) (r : Ready) (c : Nat) : Dev :=
  let k := d.core c
  match k.take with
  | none => d
  | some w =>
    let d := (d.unready r).bump (smdCnt 1)
    let d := (d.memWrite .smilda (lmBase c + 0x3FF80) (dispatchRecord (d.slot r.inst) r d.now)).1
    let k := k.takeReturns w (BitVec.ofNat 32 (r.nrec.param32 % 65536))
    let d := d.setCore c { k with held := some { inst := r.inst, gen := r.gen, node := r.node, nrec := r.nrec } }
    let d := d.setPower (pwrCore c) .active
    d.trace 2 c (handleOf r.inst r.gen + 2 ^ 32 * r.node + 2 ^ 42 * r.level)

/-- Offset of DEADLINE in a class's descriptor (each engine chapter). -/
def deadlineOff (cls : Nat) : Nat := if cls = 0 then 8 else if cls = 8 then 48 else 24

/-- A descriptor template patched with the operands and the deadline (R60). -/
def patchDesc (cls : Nat) (r : Ready) (deadline : Nat) (bs : List Byte) : List Byte :=
  let bs := (List.range r.nrec.nops).foldl
    (fun bs k => spliceAt bs (8 * (r.nrec.param32 % 256) + 8 * k) (leBytes 8 (r.vals.getD k 0))) bs
  spliceAt bs (deadlineOff cls) (leBytes 8 deadline)

/-- A 32-byte job entry (R164). -/
def jobEntry (addr dlen : Nat) : List Byte := leBytes 8 addr ++ leBytes 1 dlen ++ zeros 23

/-- Fail codes of nodes that Smilda fails itself (R41, R60). -/
def failDecode : Nat := 0x11
def failPoison : Nat := 0x12
def failDropped : Nat := 0xF1

/-- Write the index of a posted job, or fail its node when the post was dropped (R60). -/
def Dev.jobPosted (d : Dev) (cls u k : Nat) (res : PostResult) : Dev :=
  let mine := fun j : Job => decide (j.cls = cls ∧ j.unit = u ∧ j.stage = k)
  match res with
  | .placed x =>
    let set := fun j : Job => if mine j then { j with index := some x } else j
    { d with smd := { d.smd with jobs := d.smd.jobs.map set } }
  | .held => d
  | .dropped =>
    match d.smd.jobs.find? mine with
    | none => d
    | some j =>
      let d := { d with smd := { d.smd with jobs := d.smd.jobs.filter (fun j => !mine j) } }
      (d.nodeFail j.inst j.gen j.node failDropped).tryFree j.inst

/-- Commit an engine node (R60). -/
def Dev.commitEngine (d : Dev) (r : Ready) (cls u : Nat) : Dev :=
  let d := d.unready r
  match d.busRead .smilda (fld r.nrec.param64 39 0) r.nrec.descLen with
  | (d, .decode _) => d.nodeFail r.inst r.gen r.node failDecode
  | (d, .poison _) => d.nodeFail r.inst r.gen r.node failPoison
  | (d, .ok bs) =>
    let busy := (d.jobsOf cls u).map (·.stage)
    match (List.range 8).find? (fun k => !busy.contains k) with
    | none => d
    | some k =>
      let d := d.setRegBytes (stageAddr cls u k) (padTo 256 (patchDesc cls r (d.slot r.inst).deadline bs))
      let q := d.regN (smdBase + 0xC0 + 4 * cls) + u
      let j : Job := ⟨r.inst, r.gen, r.node, cls, u, k, q, none, false, r.nrec⟩
      let d := { d with smd := { d.smd with jobs := d.smd.jobs ++ [j] } }
      let (d, res) := d.post .smilda true q (jobEntry (stageName cls u k) (fld r.nrec.param64 42 40)) (some (cls, u, k))
      let d := if res = .dropped then d else d.bump (smdCnt 2)
      let d := d.jobPosted cls u k res
      if d.power (pwrEng cls u) = .nap then d.setPower (pwrEng cls u) .active else d

/-- A channel takes a job: its staging entry is written and it becomes READY (R314, R315). -/
def Dev.chanTake (d : Dev) (m k : Nat) (fromSmilda : Bool) (dlen : Nat) (bs : List Byte) : Dev :=
  let d := d.setRegBytes (bmvBase m + 0x8000 + 0x100 * k) (padTo 256 bs)
  let d := d.setChan m k { ({} : Chan) with st := .ready, smilda := fromSmilda, dlen := dlen }
  if d.power (pwrEng 8 m) = .nap then d.setPower (pwrEng 8 m) .active else d

/-- JOB trace data (R541). -/
def jobTrace (handle node cls u : Nat) (mover ended : Bool) (status : Nat) : Nat :=
  handle + 2 ^ 32 * node + 2 ^ 42 * (if mover then 7 else cls) + 2 ^ 45 * u + 2 ^ 50 * b2n mover + 2 ^ 51 * b2n ended
    + 2 ^ 52 * (if ended then status else 0)

/-- Commit a mover node (R61). -/
def Dev.commitMover (d : Dev) (r : Ready) (m k : Nat) : Dev :=
  let d := d.unready r
  match d.busRead .smilda (fld r.nrec.param64 39 0) r.nrec.descLen with
  | (d, .decode _) => d.nodeFail r.inst r.gen r.node failDecode
  | (d, .poison _) => d.nodeFail r.inst r.gen r.node failPoison
  | (d, .ok bs) =>
    let d := d.chanTake m k true (fld r.nrec.param64 42 40) (patchDesc 8 r (d.slot r.inst).deadline bs)
    let j : Job := ⟨r.inst, r.gen, r.node, 8, m, k, 0, none, true, r.nrec⟩
    let d := { d with smd := { d.smd with jobs := d.smd.jobs ++ [j] } }
    (d.bump (smdCnt 2)).trace 4 0 (jobTrace (handleOf r.inst r.gen) r.node 8 m true false 0)

/-- One dispatch commit (R54). -/
def Dev.dispatchOne (d : Dev) : Dev :=
  match d.nextReady with
  | none => d
  | some r =>
    match d.receiver r.target with
    | some (.core c) => d.commitCore r c
    | some (.engine cls u) => d.commitEngine r cls u
    | some (.chan m k) => d.commitMover r m k
    | none => d

/-! ### Completion of core nodes (R55, R58) -/

/-- Send one buffered token (R58). -/
def Dev.sendBuffered (d : Dev) (c : Nat) (h : HeldNode) (b : BufTok) : Dev :=
  match b with
  | .emit k v =>
    match h.nrec.edges[k]? with
    | some e => if e.valid then d.sendToken ⟨.core c, tagOf h.inst h.gen e.dest e.slot, v⟩ else d
    | none => d
  | .post t v => d.sendToken ⟨.core c, t, v⟩

/-- Automatic tokens on valid AUTO edges that received no EMIT (R58). -/
def Dev.sendAuto (d : Dev) (c : Nat) (h : HeldNode) : Dev :=
  (List.range 4).foldl (fun d k =>
    match h.nrec.edges[k]? with
    | some e =>
      if e.valid && bit h.nrec.auto k && !h.buf.any (fun b => match b with | .emit j _ => j = k | _ => false) then
        d.sendToken ⟨.edges c, tagOf h.inst h.gen e.dest e.slot, 0⟩
      else d
    | none => d) d

/-- The core's held node completes with a status (R55, R58, R70). -/
def Dev.completeHeld (d : Dev) (c status : Nat) : Dev :=
  match (d.core c).held with
  | none => d
  | some h =>
    let status := if h.excess then 0xFF else status
    let d := d.setCore c { d.core c with held := none }
    let d := d.trace 3 c (handleOf h.inst h.gen + 2 ^ 32 * h.node + 2 ^ 48 * status)
    let s := d.slot h.inst
    let live := s.phase = .live && s.gen = h.gen
    if !live then d.tryFree h.inst
    else if status = 0 then
      let d := h.buf.foldl (fun d b => d.sendBuffered c h b) d
      let d := d.sendAuto c h
      if h.nrec.isEnd then d.completeInst h.inst else d
    else d.nodeFail h.inst h.gen h.node status

/-- A pending WITHDRAW or MOVE takes effect (R66). -/
def Dev.applyPending (d : Dev) (c : Nat) : Dev :=
  let m := d.member c
  match m.pending with
  | none => d
  | some p => d.setMember c { pool := p, pending := none }

/-- Success completions of engines and movers: OK and OK_FLAGGED (R60). -/
def isSuccess (status : Nat) : Bool := decide (status ≤ 1)

/-- Smilda receives a completion word (R60, R70). -/
def Dev.receiveCpl (d : Dev) (w : Cpl) : Dev :=
  let mine := fun j : Job => decide (j.cls = w.cls ∧ j.unit = w.unit ∧ j.stage = w.stage)
  match d.smd.jobs.find? mine with
  | none => d
  | some j =>
    let d := { d with smd := { d.smd with jobs := d.smd.jobs.filter (fun j => !mine j) } }
    let s := d.slot j.inst
    if s.phase = .live && s.gen = j.gen then
      if isSuccess w.status then
        let src := if w.cls = 8 then TokSrc.mover w.unit else TokSrc.engine w.cls w.unit
        let d := d.sendEdges src j.inst j.gen j.nrec w.word
        if j.nrec.isEnd then d.completeInst j.inst else d
      else d.nodeFail j.inst j.gen j.node w.status
    else (d.bump (smdCnt 13)).tryFree j.inst

/-- A posted job's entry was lost to poison at handover: its node fails with POISON (R60, R307). -/
def Dev.jobLost (d : Dev) (q i : Nat) : Dev :=
  let mine := fun j : Job => decide (j.queue = q ∧ j.index = some i ∧ j.cls ≠ 8)
  match d.smd.jobs.find? mine with
  | none => d
  | some j =>
    let d := { d with smd := { d.smd with jobs := d.smd.jobs.filter (fun j => !mine j) } }
    (d.nodeFail j.inst j.gen j.node failPoison).tryFree j.inst

/-- A handover for Smilda's own queues or a unit's, with the lost entries reported (R307). -/
def Dev.takeEntry (d : Dev) (q : Nat) : Dev × Option (Nat × List Byte) :=
  let (d, r, lost) := d.handover q
  (lost.foldl (fun (d : Dev) i => d.jobLost q i) d, r)

/-! ### Timers and sweeps (R62, R68, R69) -/

/-- A timer fires (R62). -/
def Dev.fireTimer (d : Dev) (t : Timer) : Dev :=
  let d := { d with smd := { d.smd with timers := d.smd.timers.filter (fun x => decide (x ≠ t)) } }
  d.sendEdges .smilda t.inst t.gen t.nrec (ofSigned 64 t.fire)

/-- Effective thresholds in ns (R33). -/
def Dev.thresholds (d : Dev) (s : Slot) : Nat × Nat :=
  let t1 := if s.t1us = 0 then d.regN (smdBase + 0x34) else s.t1us
  let t2 := if s.t2us = 0 then d.regN (smdBase + 0x38) else s.t2us
  (1000 * t1, 1000 * min t1 t2)

/-- Stable insertion by original ready order. -/
def insReady (r : Ready) : List Ready → List Ready
  | [] => [r]
  | x :: xs => if r.readied < x.readied then r :: x :: xs else x :: insReady r xs

/-- Ready nodes of a promoted instance whose level changes move to the tail of their new lists, in the order of their
original ready cycles (R53). -/
def Dev.moveReady (d : Dev) (i gen : Nat) (p : Promo) : Dev :=
  let moves := fun r : Ready => r.inst = i && r.gen = gen && decide (effLevel p r.nrec.prio ≠ r.level)
  let moved := (d.smd.ready.filter moves).foldl (fun l r => insReady r l) []
  let kept := d.smd.ready.filter (fun r => !moves r)
  let placed := (List.range moved.length).filterMap (fun k =>
    moved[k]?.map (fun r => { r with level := effLevel p r.nrec.prio, entered := d.smd.order + k }))
  { d with smd := { d.smd with ready := kept ++ placed, order := d.smd.order + moved.length } }

/-- Promotion of an instance (R53, R68). -/
def Dev.promote (d : Dev) (i : Nat) (p : Promo) : Dev :=
  let s := d.slot i
  let d := d.setSlot i { s with promo := p }
  let d := d.bump (smdCnt (if p = .t1 then 9 else 10))
  d.moveReady i s.gen p

/-- One instance in a sweep (R68, R69). -/
def Dev.sweepInst (d : Dev) (i : Nat) : Dev :=
  let s := d.slot i
  if s.phase ≠ .live || s.deadline = noDeadline then d
  else
    let m := marginOf s.deadline d.now
    if m ≤ 0 then d.cancelInst i causeDeadline 0 0
    else
      let (t1, t2) := d.thresholds s
      let d := if m < t1 && s.promo = .none then d.promote i .t1 else d
      if m < t2 && (d.slot i).promo ≠ .t2 then d.promote i .t2 else d

/-- A sweep of every LIVE instance (R68). -/
def Dev.sweep (d : Dev) : Dev := (d.smd.slots.map (·.1)).foldl (fun (d : Dev) i => d.sweepInst i) d

/-! ### Control (R37, R65, R66, R74, R77) -/

/-- A write of SMD_CANCEL (R70, R77). -/
def Dev.smdCancel (d : Dev) (v : Nat) : Dev :=
  let i := fld v 10 0
  let s := d.slot i
  if s.phase = .live && s.gen = fld v 23 16 then
    d.cancelInst i (if 0x80 ≤ fld v 31 24 then fld v 31 24 else causeSoftware) 0 0
  else d

/-- A write of SMD_TPL_INVAL (R37). -/
def Dev.tplInval (d : Dev) (v : Nat) : Dev :=
  let t := fld v 11 0
  if d.smd.slots.any (fun e => e.2.phase ≠ .free && e.2.template = t) then
    { d with smd := { d.smd with tplBusy := true } }
  else
    { d with smd := { d.smd with tplBusy := false, cache := d.smd.cache.filter (fun c => decide (c.template ≠ t)) } }

/-- The configuration checks of R74. -/
def Dev.smdConfigOk (d : Dev) : Bool :=
  let dir := d.reg64 (smdBase + 0x20)
  let l := d.spillLog2
  let sp := d.spillBase
  let r := fun a => (d.locate .smilda a).1
  decide (dir % 65536 = 0 ∧ (r dir = .pool ∨ r dir = .ddr) ∧ r (dir + 65535) = r dir)
    && decide (4 ≤ l ∧ l ≤ 15) && decide (sp % (1024 * 2 ^ l) = 0)
    && decide (poolBase ≤ sp ∧ sp + 1024 * 2 ^ l ≤ poolBase + 0x8000000)
    && (d.queue (d.regN (smdBase + 0x40))).enabled

/-- Writing ENABLE = 1 (R74). -/
def Dev.smdEnable (d : Dev) : Dev :=
  if bit (d.regN (smdBase + 4)) 0 then d
  else if d.smdConfigOk then { (d.setRegN (smdBase + 4) 1) with smd := { d.smd with cfgErr := false } }
  else { d with smd := { d.smd with cfgErr := true } }

/-- Writing ENABLE = 0 cancels every LIVE instance with cause DISABLED (R74). -/
def Dev.smdDisable (d : Dev) : Dev :=
  let d := d.setRegN (smdBase + 4) 0
  ((d.smd.slots.filter (fun e => decide (e.2.phase = .live))).map (·.1)).foldl
    (fun (d : Dev) i => d.cancelInst i causeDisabled 0 0) d

/-- CLR_HWM (R74). -/
def Dev.clrHwm (d : Dev) : Dev :=
  ((d.setRegN (smdBase + 0x804) d.smd.store.length).setRegN (smdBase + 0x80C) d.smd.spill.length).setRegN
    (smdBase + 0x814) d.liveCount

/-- A write of SMD_CTRL. -/
def Dev.smdCtrl (d : Dev) (v : Nat) : Dev :=
  let d := if bit v 1 then d.clrHwm else d
  if bit v 0 then d.smdEnable else d.smdDisable

/-- Report whether the last pool command was refused. -/
def Dev.poolResult (d : Dev) (r : Bool) : Dev := { d with smd := { d.smd with poolRefused := r } }

/-- A core's cluster is retired (R360). -/
def Dev.clusterRetired (d : Dev) (k : Nat) : Bool := bit (d.regN (memBase + 0x54)) k

/-- ADD (R65). -/
def Dev.poolAdd (d : Dev) (c p : Nat) : Dev :=
  if 192 ≤ c || (d.member c).pool.isSome || d.clusterRetired (c / 8) then d.poolResult true
  else (d.setMember c { pool := some p, pending := none }).poolResult false

/-- POOL_EMPTY_READY when the last member of a pool with ready nodes leaves (R67, R71). -/
def Dev.emptyReady (d : Dev) (p : Nat) : Dev :=
  if d.poolCores p = [] && 0 < d.readyOf (.pool p) then d.smdInt 2 else d

/-- WITHDRAW (`to` none) or MOVE to a pool, at once when the core is blocked in TAKE (R66). -/
def Dev.poolLeave (d : Dev) (c : Nat) (dest : Option Nat) : Dev :=
  if 192 ≤ c then d.poolResult true
  else
    let m := d.member c
    let d := d.poolResult false
    match m.pool with
    | none => if dest.isSome then d.setMember c { pool := dest, pending := none } else d
    | some p =>
      if (d.core c).take.isSome then (d.setMember c { pool := dest, pending := none }).emptyReady p
      else d.setMember c { m with pending := some dest }

/-- A write of SMD_POOL_CMD (R64 to R66, R77). -/
def Dev.poolCommand (d : Dev) (v : Nat) : Dev :=
  let c := fld v 7 0
  let p := fld v 12 8
  match fld v 14 13 with
  | 0 => d.poolAdd c p
  | 1 => d.poolLeave c none
  | 2 => if d.clusterRetired (c / 8) then d.poolResult true else d.poolLeave c (some p)
  | _ => d.poolResult true

end Sys2Proof.Machine
end

