-- ==== Sys2Proof/Machine/Movers.lean ====
section
/-!
DEFINITION. Block movers: descriptors, checks, channel choice, completion, pause, resume and abort (R314 to R331, R335). The
bursts themselves stand in MoverRun.lean.
-/
namespace Sys2Proof.Machine

/-- Address of a mover's counter: 0 DESC, 1 BYTES, 2 ERR, 3 CRC_FAIL, 4 PAUSE, 5 PAUSE_LATE, 6 ABORT, 7 ABORT_LATE,
8 BUSY_CYC (R335). -/
def bmvCnt (m i : Nat) : Nat := bmvBase m + 0x400 + 8 * i

/-- Address of a channel's register (R335). -/
def bmvCh (m k o : Nat) : Nat := bmvBase m + 0x100 + 0x20 * k + o

/-- Set a bit of BMV_INT_STATUS. -/
def Dev.bmvInt (d : Dev) (m b : Nat) : Dev := d.setBits (bmvBase m + 0x10) (2 ^ b)

/-- BMV_CTRL.ENABLE. -/
def Dev.bmvOn (d : Dev) (m : Nat) : Bool := bit (d.regN (bmvBase m + 4)) 0

/-! ### The descriptor (R316 to R319) -/

/-- A segment of a mover descriptor (R316). -/
structure MvSeg where
  src   : Nat
  slog  : Nat
  len   : Nat
  nocrc : Bool
  deriving DecidableEq, Repr

/-- A mover descriptor with its arguments put in place (R316, R317). -/
structure MvDesc where
  op     : Nat
  sel    : Nat
  check  : Bool
  store  : Bool
  cplQ   : Nat
  cplV   : Bool
  dst    : Nat
  dlog   : Nat
  user   : Nat
  segs   : List MvSeg
  deriving DecidableEq, Repr

/-- Total length T of the stream (R318). -/
def MvDesc.total (m : MvDesc) : Nat := (m.segs.map (·.len)).sum

/-- Length of the coverage (R320). -/
def MvDesc.cover (m : MvDesc) : Nat := ((m.segs.filter (fun s => !s.nocrc)).map (·.len)).sum

/-- Bytes of the stored or received field. -/
def MvDesc.fieldLen (m : MvDesc) : Nat := crcWidth m.sel / 8

/-- A ring's base and size; no ring when the LOG2 field is 0 (R318). -/
def ringAddr (a log o : Nat) : Nat :=
  if log = 0 then a + o
  else
    let base := a / 2 ^ log * 2 ^ log
    base + (a - base + o) % 2 ^ log

/-- Bytes from offset `o` to the end of the ring. -/
def ringLeft (a log o : Nat) : Nat :=
  if log = 0 then 2 ^ 40 else 2 ^ log - (a % 2 ^ log + o) % 2 ^ log

/-- The descriptor's NSEG. -/
def mvNseg (bs : List Byte) : Nat := leAt bs 32 1 % 16

/-- ADDR with an argument that names it put in place (R170, R317). -/
def mvArg (bs : List Byte) (tgt addr : Nat) : Nat :=
  let c := leAt bs 0 4
  if fld c 9 7 = tgt then fld (leAt bs 8 8) 39 0
  else if fld c 12 10 = tgt then fld (leAt bs 16 8) 39 0
  else addr

/-- The descriptor that staging bytes spell (R316, R317). -/
def parseMv (bs : List Byte) : MvDesc :=
  let c := leAt bs 0 4
  let cpl := leAt bs 4 4
  let dst := leAt bs 24 8
  { op := fld c 1 0, sel := fld c 4 2, check := bit c 5, store := bit c 6, cplQ := fld cpl 17 0, cplV := bit cpl 31,
    dst := mvArg bs 1 (fld dst 39 0), dlog := fld dst 44 40, user := leAt bs 40 8,
    segs := (List.range (min (mvNseg bs) 12)).map (fun s =>
      let w := leAt bs (64 + 16 * s) 8
      { src := if s < 3 then mvArg bs (2 + s) (fld w 39 0) else fld w 39 0, slog := fld w 44 40,
        len := leAt bs (72 + 16 * s) 4, nocrc := bit (leAt bs (76 + 16 * s) 4) 0 }) }

/-- A LOG2 field is 0 or within 6 to 30 (R319). -/
def logOk (l : Nat) : Bool := l = 0 || (decide (6 ≤ l) && decide (l ≤ 30))

/-- A ring holds `n` bytes. -/
def ringHolds (l n : Nat) : Bool := l = 0 || decide (n ≤ 2 ^ l)

/-- Reserved fields of the descriptor are 0 (R316, R317). -/
def mvReservedOk (bs : List Byte) : Bool :=
  let seg := fun s =>
    decide (fld (leAt bs (64 + 16 * s) 8) 63 45 = 0) && decide (fld (leAt bs (76 + 16 * s) 4) 31 1 = 0)
  decide (fld (leAt bs 0 4) 31 13 = 0) && decide (fld (leAt bs 4 4) 30 18 = 0) && decide (fld (leAt bs 24 8) 63 45 = 0)
    && decide (leAt bs 32 1 < 16) && decide (leAt bs 33 7 = 0) && decide (leAt bs 56 8 = 0)
    && (List.range (min (mvNseg bs) 12)).all seg

/-- An ARGUSE field is allowed (R317, R319). -/
def mvArgOk (u nseg : Nat) : Bool := decide (u ≤ 4) && decide (u < 2 ∨ u - 2 < nseg)

/-- The checks of R319 but for DESC_LEN. -/
def mvCheck (bs : List Byte) : Bool :=
  let m := parseMv bs
  let c := leAt bs 0 4
  let n := mvNseg bs
  let u0 := fld c 9 7
  let u1 := fld c 12 10
  let fieldLen := if m.store then m.fieldLen else 0
  mvReservedOk bs && (m.op = 1 || m.op = 2) && decide (m.sel ≠ 7) && decide (1 ≤ n) && decide (n ≤ 12)
    && m.segs.all (fun s => decide (1 ≤ s.len) && logOk s.slog && ringHolds s.slog s.len && decide (s.src ≠ 0))
    && decide (m.total ≤ 2 ^ 30) && logOk m.dlog && ringHolds m.dlog (m.total + fieldLen)
    && (if m.op = 1 then decide (m.dst ≠ 0) else decide (m.dst = 0))
    && !((m.check || m.store) && m.sel = 0) && !(m.check && m.store) && !(m.store && m.op = 2)
    && !(m.check && (if m.sel = 6 then decide (m.cover < 2) else decide (m.cover < m.fieldLen + 1)))
    && mvArgOk u0 n && mvArgOk u1 n && !(decide (u0 ≠ 0) && u0 = u1)

/-- The descriptor in a channel's staging entry. -/
def Dev.chanBytes (d : Dev) (m k : Nat) : List Byte := d.regBytes (bmvBase m + 0x8000 + 0x100 * k) 256

/-- The descriptor checks, DESC_LEN among them (R314, R319). -/
def Dev.chanOk (d : Dev) (m k : Nat) : Bool :=
  let bs := d.chanBytes m k
  mvCheck bs && decide ((d.chan m k).dlen = ceilDiv (64 + 16 * mvNseg bs) 32 - 1)

/-! ### Choosing a channel (R315) -/

/-- Channels in round-robin order after the one chosen last. -/
def Dev.chanOrder (d : Dev) (m : Nat) : List Nat := (List.range 16).map (fun i => ((d.mover m).last + 1 + i) % 16)

/-- The READY channel with the lowest BMV_CH_PRIO, ties in round-robin order. -/
def Dev.chanPick (d : Dev) (m : Nat) : Option Nat :=
  minBy (fun k => d.regN (bmvCh m k 4) % 4) ((d.chanOrder m).filter (fun k => (d.chan m k).st = .ready))

/-- A mover that runs and holds no RUNNING or PAUSING channel chooses a READY one; a descriptor that fails its checks ends
its job before any transfer (R315, R319). -/
def Dev.chanChosen (d : Dev) (m : Nat) : Dev :=
  if !d.bmvOn m || (d.moverCur m).isSome || d.power (pwrEng 8 m) ≠ .active then d
  else
    match d.chanPick m with
    | none => d
    | some k =>
      let c := d.chan m k
      let d := d.setMover m { d.mover m with last := k }
      if c.pos = 0 && c.ending.isNone && !d.chanOk m k then
        d.setChan m k { c with st := .running, start := d.time.raw, ending := some (0x10, none) }
      else d.setChan m k { c with st := .running, start := d.time.raw }

/-! ### Ending a job (R321 to R325) -/

/-- Overwrite bytes that the spec leaves undefined with free values, line by line; poisoned lines and addresses that
nothing covers are left (assumption log 2). -/
def Dev.undefine (d : Dev) (ag : Agent) (a n : Nat) : Dev :=
  (linePieces a n).foldl (fun (d : Dev) p =>
    let (r, cell) := d.locate ag (a + p.1)
    if r = .hole || r = .regs || d.mem.poisoned (cell / 64) then d
    else
      let bs := leBytes p.2 (d.freeBits (8 * p.2)).toNat
      (d.used.writeLine ag (a + p.1) bs).1) d

/-- The first `n` destination bytes of a job that ended with an error become free values (R325). -/
def Dev.undefineDst (d : Dev) (m : Nat) (md : MvDesc) (n : Nat) : Dev :=
  if md.op ≠ 1 || n = 0 then d
  else
    let first := min n (ringLeft md.dst md.dlog 0)
    (d.undefine (.mover m) md.dst first).undefine (.mover m) (ringAddr md.dst md.dlog first) (n - first)

/-- The failing address an error reports; errors whose rule names none report a free one (assumption log 13). -/
def Dev.errAddr (d : Dev) (a : Option Nat) : Dev × Nat :=
  match a with
  | some x => (d, x % 2 ^ 40)
  | none => (d.used, (d.freeBits 40).toNat)

/-- The completion word (R323). -/
def mvWord (crc status : Nat) (valid pass alate plate : Bool) (bytes : Nat) : Nat :=
  crc % 2 ^ 32 + 2 ^ 32 * status + 2 ^ 40 * b2n valid + 2 ^ 41 * b2n pass + 2 ^ 42 * b2n alate + 2 ^ 43 * b2n plate
    + 2 ^ 44 * min bytes 1048575

/-- The Smilda job that a channel carries. -/
def Dev.chanJob (d : Dev) (m k : Nat) : Option Job :=
  d.smd.jobs.find? (fun j => j.cls = 8 && j.unit = m && j.stage = k)

/-- Deliver a job's completion and return the channel to IDLE: the completion word for a Smilda channel, the record when
CPL_VALID, the registers and counters (R322, R323, R335). -/
def Dev.chanDeliver (d : Dev) (m k status : Nat) (addr : Option Nat) (crc : Nat) (valid pass : Bool) : Dev :=
  let c := d.chan m k
  let md := parseMv (d.chanBytes m k)
  let word := mvWord crc status valid pass c.abortLate c.pauseLate c.pos
  let ok := isSuccess status
  let handle := match d.chanJob m k with | some j => handleOf j.inst j.gen | none => 0
  let node := match d.chanJob m k with | some j => j.node | none => 0
  let d := d.setRegN (bmvCh m k 0x14) status
  let (d, ea) := if ok then (d, md.dst) else d.errAddr addr
  let d := if ok then d else ((d.setReg64 (bmvCh m k 0x18) ea).bmvInt m 0).bump (bmvCnt m 2)
  let d := if status = 1 then (d.bmvInt m 1).bump (bmvCnt m 3) else d
  let d := if c.abortLate then (d.bmvInt m 2).bump (bmvCnt m 7) else d
  let d := if status = 0x21 then d.bump (bmvCnt m 6) else d
  let d := d.bump (bmvCnt m 0)
  let d := if c.holds then d.bumpBy (bmvCnt m 8) (d.nsSince c.start) else d
  let d := d.trace 4 0 (jobTrace handle node 8 m true true status)
  let d :=
    if c.smilda then { d with smd := { d.smd with cpls := d.smd.cpls ++ [⟨8, m, k, word, status⟩] } } else d
  let rec' := leBytes 8 md.user ++ leBytes 4 (word >>> 32) ++ leBytes 4 (crc % 2 ^ 32) ++ leBytes 8 d.now ++ leBytes 8 ea
  let d := if md.cplV && !c.badEntry then d.postHw (.mover m) md.cplQ rec' else d
  d.setChan m k { d.chan m k with st := .idle }

/-- A job ends with an error or ABORTED: CRC_VALID 0, nothing stored, its destination bytes undefined (R324, R325, R328). -/
def Dev.chanFail (d : Dev) (m k status : Nat) (addr : Option Nat) : Dev :=
  let c := d.chan m k
  let d := if status = 0x10 || c.badEntry then d else d.undefineDst m (parseMv (d.chanBytes m k)) c.pos
  d.chanDeliver m k status addr 0 false false

/-! ### Pause, resume, abort (R326 to R329) -/

/-- The last data burst has been issued. -/
def Dev.chanIssued (d : Dev) (m k : Nat) : Bool :=
  decide ((parseMv (d.chanBytes m k)).total ≤ (d.chan m k).pos)

/-- PAUSE (R327). -/
def Dev.chanPause (d : Dev) (m k : Nat) : Dev :=
  let c := d.chan m k
  match c.st with
  | .ready => (d.setChan m k { c with st := .paused }).bump (bmvCnt m 4)
  | .running =>
    if c.ending.isSome then d
    else if d.chanIssued m k then (d.setChan m k { c with pauseLate := true }).bump (bmvCnt m 5)
    else (d.setChan m k { c with st := .pausing }).bump (bmvCnt m 4)
  | _ => d

/-- The write responses of a PAUSING channel's bursts have arrived: it becomes PAUSED and releases the mover (R327). -/
def Dev.chanPaused (d : Dev) (m k : Nat) : Dev :=
  let c := d.chan m k
  if c.st = .pausing && c.ending.isNone then
    (d.setChan m k { c with st := .paused }).bumpBy (bmvCnt m 8) (d.nsSince c.start)
  else d

/-- RESUME (R326). -/
def Dev.chanResume (d : Dev) (m k : Nat) : Dev :=
  let c := d.chan m k
  if c.st = .paused then d.setChan m k { c with st := .ready } else d

/-- ABORT; `responded` says that the last write response of the job has arrived (R328). -/
def Dev.chanAbort (d : Dev) (m k : Nat) (responded : Bool) : Dev :=
  let c := d.chan m k
  match c.st with
  | .idle => d
  | .ready | .paused =>
    match c.ending with
    | some (s, a) => d.chanFail m k s a
    | none => d.chanFail m k 0x21 none
  | .running | .pausing =>
    if c.ending.isSome then d
    else if d.chanIssued m k && responded then d.setChan m k { c with abortLate := true }
    else d.setChan m k { c with ending := some (0x21, none) }

/-- A write of BMV_CH_CMD: several commands at once are resolved by R329. -/
def Dev.chanCommand (d : Dev) (m k v : Nat) : Dev :=
  if bit v 2 then (d.chanAbort m k ((d.freeBits 1).getLsbD 0)).used
  else if bit v 0 then d.chanPause m k
  else if bit v 1 then d.chanResume m k
  else d

/-- BMV_CTRL.ENABLE (R329): READY channels stay READY while it is 0. -/
def Dev.bmvEnable (d : Dev) (m : Nat) (on : Bool) : Dev := d.setRegN (bmvBase m + 4) (b2n on)

/-! ### Queue channels (R314, R319) -/

/-- Reserved bytes of a job entry are 0 (R164). -/
def entryReservedOk (e : List Byte) : Bool :=
  decide (fld (leAt e 0 8) 63 40 = 0) && decide (leAt e 8 1 < 8) && decide (leAt e 9 3 = 0) && decide (leAt e 16 16 = 0)

/-- An address lies in some engine's staging entries (R165). -/
def inAnyStage (a : Nat) : Bool :=
  (List.range 9).any (fun cls =>
    decide (cls ≠ 6 ∧ cls ≠ 7) && (List.range (classSize cls)).any (fun u =>
      decide (stageAddr cls u 0 ≤ a) && decide (a < stageAddr cls u (if cls = 8 then 16 else 8))))

/-- A queue channel takes a job entry (R314, R319): the checks of R578's order, then the descriptor into the staging
entry. A job that fails here is READY with its ending set. -/
def Dev.chanEntry (d : Dev) (m k : Nat) (e : List Byte) : Dev :=
  let a := fld (leAt e 0 8) 39 0
  let dlen := leAt e 8 1 % 8
  let d := d.trace 4 0 (jobTrace 0 0 8 m true false 0)
  let bad := fun (d : Dev) (s : Nat) (x : Option Nat) =>
    let d := d.chanTake m k false dlen (zeros 256)
    (d.setChan m k { d.chan m k with badEntry := true, ending := some (s, x) })
  if !entryReservedOk e then bad d 0x10 none
  else if a % 64 ≠ 0 then bad d 0x13 none
  else if inAnyStage a then bad d 0x14 none
  else
    match d.busRead (.mover m) a (32 * (dlen + 1)) with
    | (d, .ok bs) => d.chanTake m k false dlen bs
    | (d, .decode _) => bad d 0x11 (some a)
    | (d, .poison _) => bad d 0x12 (some a)

/-- A queue channel is ready to take an entry from queue `q` (R314). -/
def Dev.chanTakes (d : Dev) (m k q : Nat) : Bool :=
  let r := d.regN (bmvCh m k 0)
  d.bmvOn m && !d.isSmildaChan m k && bit r 31 && r % 2 ^ 18 = q && (d.chan m k).st = .idle
    && (d.power (pwrEng 8 m) = .active || d.power (pwrEng 8 m) = .nap)

end Sys2Proof.Machine
end

