-- ==== Sys2Proof/Machine/Engines.lean ====
section
/-!
DEFINITION. What the engines share: taking a job entry, becoming running, ABORT, and delivering a completion
(R164 to R166, R193, R194, R578 and the rules of chapters 7 to 9 that apply them).
-/
namespace Sys2Proof.Machine

/-- DESC_LEN that a class requires (R164, R200, R242, R273). -/
def classDlen (cls : Nat) : Nat :=
  match cls with
  | 0 => 4 | 3 => 1 | _ => 3

/-- Address of an engine's counter. -/
def engCnt (cls u i : Nat) : Nat := engBase cls u + 0x100 + 8 * i

/-- Positions of the counters ABORT and ABORT_LATE (R198, R240, R271, R298); none where there is none. -/
def abortCnt (cls : Nat) : Nat :=
  match cls with
  | 0 => 9 | 4 => 6 | 5 => 6 | _ => 10
def abortLateCnt (cls : Nat) : Option Nat :=
  match cls with
  | 0 => some 10 | 4 => some 7 | 5 => none | _ => some 11

/-- Set a bit of an engine's INT_STATUS. -/
def Dev.engInt (d : Dev) (cls u b : Nat) : Dev := d.setBits (engBase cls u + 0x10) (2 ^ b)

/-- An engine's ENABLE. -/
def Dev.engOn (d : Dev) (cls u : Nat) : Bool := bit (d.regN (engBase cls u + 4)) 0

/-- Replace the running job. -/
def Dev.setRun (d : Dev) (cls u : Nat) (j : EJob) : Dev := d.setEng cls u { d.eng cls u with run := some j }

/-- Bytes of an engine's staging entries from an address on. -/
def Dev.stageBytes (d : Dev) (cls u off n : Nat) : List Byte := d.regBytes (stageAddr cls u 0 + off) n

/-- An address lies in an engine's own staging entries. -/
def inOwnStage (cls u a : Nat) : Bool := decide (stageName cls u 0 ≤ a) && decide (a < stageName cls u 0 + 0x800)

/-- A job made from a taken entry by the steps of R578; `check` answers 0, or the status the descriptor is refused with,
and `strict` says whether step 3 applies. -/
def Dev.readJob (d : Dev) (cls u : Nat) (e : List Byte) (check : List Byte → Nat) : Dev × EJob :=
  let a := fld (leAt e 0 8) 39 0
  let dlen := leAt e 8 1 % 8
  let own := inOwnStage cls u a
  let off := a - stageName cls u 0
  let j : EJob := { smilda := if own then some (off / 256) else none, ref := leAt e 12 4 }
  let early := fun (s : Nat) (x : Option Nat) => { j with noRec := true, status := some (s, x) }
  if !entryReservedOk e || dlen ≠ classDlen cls then (d, early 0x10 none)
  else if a % 64 ≠ 0 then (d, early 0x13 none)
  else if !own && inAnyStage a then (d, early 0x14 none)
  else
    let n := 32 * (dlen + 1)
    let (d, r) := if own then (d, RResp.ok (d.stageBytes cls u off n)) else d.busRead (engAgent cls u) a n
    match r with
    | .decode _ => (d, early 0x11 (some a))
    | .poison _ => (d, early 0x12 (some a))
    | .ok bs =>
      let s := check bs
      (d, { j with bytes := bs, status := if s = 0 then none else some (s, none) })

/-- The Smilda job that an engine's job is. -/
def Dev.engJob (d : Dev) (cls u : Nat) (j : EJob) : Option Job :=
  match j.smilda with
  | none => none
  | some k => d.smd.jobs.find? (fun x => x.cls = cls && x.unit = u && x.stage = k)

/-- JOB trace record of an engine's job (R541). -/
def Dev.engTrace (d : Dev) (cls u : Nat) (j : EJob) (ended : Bool) (status : Nat) : Dev :=
  let s := d.engJob cls u j
  d.trace 4 0 (jobTrace ((s.map (fun x => handleOf x.inst x.gen)).getD 0) ((s.map (·.node)).getD 0) cls u false ended status)

/-- Mark a posted Smilda job as started: it can no longer be withdrawn (R166). -/
def Dev.markStarted (d : Dev) (cls u k : Nat) : Dev :=
  let set := fun x : Job => if x.cls = cls && x.unit = u && x.stage = k then { x with started := true } else x
  { d with smd := { d.smd with jobs := d.smd.jobs.map set } }

/-- The cap from the deadline margin: `1 + (n − 1)(m − LO) / (HI − LO)` between `fl` and `n` (R187, R221). -/
def marginCap (hi lo fl n deadline now : Nat) : Nat :=
  let m := marginOf deadline now
  if deadline = noDeadline || decide ((hi * 1000 : Int) ≤ m) then n
  else if m ≤ (lo * 1000 : Int) || hi ≤ lo then fl
  else max fl (1 + ((n - 1) * (m.toNat - lo * 1000)) / ((hi - lo) * 1000))

/-- ITER_MAX of a decoder descriptor (R203). -/
def fecIterMax (bs : List Byte) : Nat := fld (leAt bs 39 1) 5 2 + 1

/-- A job becomes running; a decoder fixes its iteration cap (R221). -/
def Dev.becomeRunning (d : Dev) (cls u : Nat) (j : EJob) : Dev :=
  let j := { j with start := d.time.raw }
  if cls = 1 && j.status.isNone then
    let b := decBase u
    let n := fecIterMax j.bytes
    let f := max 1 (d.regN (b + 0x2C) % 32)
    let cap := marginCap (d.regN (b + 0x24)) (d.regN (b + 0x28)) (min f n) n (leAt j.bytes 24 8) d.now
    let d := if cap < n then d.bump (engCnt 1 u 12) else d
    d.setRun cls u { j with cap := cap }
  else d.setRun cls u j

/-- The running job has begun its last step, so that the engine may take the next entry (R166). -/
def Engine.open (e : Engine) : Bool :=
  match e.run with
  | none => true
  | some j => j.status.isSome && e.held.isNone

/-- An engine may take an entry: enabled, awake, with room (R164, R166, R195). -/
def Dev.engReady (d : Dev) (cls u : Nat) : Bool :=
  d.engOn cls u && (d.power (pwrEng cls u) = .active || d.power (pwrEng cls u) = .nap)
    && (if cls = 5 then decide ((d.eng 5 u).ctx.length < 12) else (d.eng cls u).open)

/-- Place in the order of ending for the next job of a generator that ends (R273). -/
def Engine.nextEnd (e : Engine) : Nat :=
  1 + (e.ctx.map (fun p => (p.2.map (fun (j : EJob) => j.cap)).getD 0)).foldl max 0

/-- A taken job becomes the running job, the held job, or a context's job (R166, R273). -/
def Dev.startJob (d : Dev) (cls u : Nat) (j : EJob) : Dev :=
  let d := match j.smilda with | some k => d.markStarted cls u k | none => d
  let d := d.engTrace cls u j false 0
  let d := if d.power (pwrEng cls u) = .nap then d.setPower (pwrEng cls u) .active else d
  let e := d.eng cls u
  if cls = 5 then
    match (List.range 12).find? (fun k => (Tab.get (fun _ => none) e.ctx k).isNone) with
    | some k => d.setEng 5 u { e with ctx := Tab.put (fun _ => none) e.ctx k (some { j with start := d.time.raw, cap := if j.status.isSome then e.nextEnd else 0 }) }
    | none => d
  else
    match e.run with
    | none => d.becomeRunning cls u j
    | some _ => d.setEng cls u { e with held := some j }

/-- Deliver a completion: to Smilda for a Smilda job, else the record when CPL_VALID; registers, counters and trace
(R165, R167, R198, R202, R243, R282). -/
def Dev.deliver (d : Dev) (cls u : Nat) (j : EJob) (status word : Nat) (rec32 : Nat → List Byte) (addr : Nat) : Dev :=
  let ok := isSuccess status
  let (d, ea) := if ok then (d, addr) else d.errAddr ((j.status.map (·.2)).getD none)
  let d := if ok then d
    else ((d.setReg64 (engBase cls u + 0x38) ea).engInt cls u 0).bump (engCnt cls u 1)
  let d := if status = 1 then d.engInt cls u 1 else d
  let d := d.bump (engCnt cls u 0)
  let d := if cls = 5 then d else d.bumpBy (engCnt cls u 2) (d.nsSince j.start)
  let d := if status = 0x21 then d.bump (engCnt cls u (abortCnt cls)) else d
  let d := d.engTrace cls u j true status
  let d := if status = 0x15 then d.fault 2 1 (engAgent cls u).code.1 (engAgent cls u).code.2 status else d
  match j.smilda with
  | some k => { d with smd := { d.smd with cpls := d.smd.cpls ++ [⟨cls, u, k, word, status⟩] } }
  | none =>
    if bit (leAt j.bytes 4 4) 31 && !j.noRec then
      d.postHw (engAgent cls u) (leAt j.bytes 4 4 % 2 ^ 18) (rec32 ea)
    else d

/-- The running job leaves and the held one becomes running. -/
def Dev.nextRun (d : Dev) (cls u : Nat) : Dev :=
  let e := d.eng cls u
  let d := d.setEng cls u { e with run := none, held := none }
  match e.held with
  | none => d
  | some j => d.becomeRunning cls u j

/-- ABORT: the running job ends at its next step boundary; after its last step its completion stands and ABORT_LATE is
set; with no running job it has no effect; a codec job ends ABORTED at its completion (R193, R194, R235, R266). -/
def Dev.engAbort (d : Dev) (cls u : Nat) : Dev :=
  match (d.eng cls u).run with
  | none => d
  | some j =>
    if j.status.isSome then
      let d := d.engInt cls u 2
      match abortLateCnt cls with
      | some i => d.bump (engCnt cls u i)
      | none => d
    else if cls = 3 then d.setRun cls u { j with aborting := true }
    else d.setRun cls u { j with status := some (0x21, none) }

/-- A write of CTRL.ENABLE (R197, R239, R270). -/
def Dev.engEnable (d : Dev) (cls u : Nat) (on : Bool) : Dev := d.setRegN (engBase cls u + 4) (b2n on)

/-- Write output bytes; answers the status and address of a write that failed (R192, R234, R265). -/
def wrespStatus : WResp → Option (Nat × Nat)
  | .ok => none
  | .decode a => some (0x11, a)
  | .error a => some (0x12, a)

/-- Status and address of a read that failed (R191). -/
def rrespStatus : RResp → Option (Nat × Nat)
  | .ok _ => none
  | .decode a => some (0x11, a)
  | .poison a => some (0x12, a)

end Sys2Proof.Machine
end

