-- ==== Sys2Proof/Machine/MemControl.lean ====
section
/-!
DEFINITION. The integrity unit's own work: the logger, Goat, the fill, write-back, clearing, retirement and retention walks
(R354 to R363).
-/
namespace Sys2Proof.Machine

/-! ### The logger (R357 to R359) -/

/-- The 32 bytes of a log entry (R358). -/
def LogEvent.bytes (e : LogEvent) : List Byte :=
  leBytes 8 e.time ++ leBytes 8 (e.addr % 2 ^ 40) ++ leBytes 1 e.kind ++ leBytes 1 e.source ++ leBytes 1 e.memory
    ++ leBytes 1 e.nflag ++ leBytes 8 e.colmap ++ leBytes 2 e.req ++ leBytes 1 e.unit ++ zeros 1

/-- Occupancy of the error log. -/
def Dev.logOcc (d : Dev) : Nat := (d.reg (memBase + 0x40) - d.reg (memBase + 0x44)).toNat

/-- The logger takes the next queued event, round-robin over the source buffers (R359). -/
def Dev.logEntry (d : Dev) : Dev :=
  match minBy (fun p : Nat × LogEvent => (p.1 + 46 - (d.mem.rrLast + 1)) % 46) d.mem.srcBuf with
  | none => d
  | some (c, e) =>
    let rest := match takeFirst (fun p : Nat × LogEvent => decide (p.1 = c)) d.mem.srcBuf with
      | some (_, r) => r
      | none => d.mem.srcBuf
    let d := { d with mem := { d.mem with srcBuf := rest, rrLast := c } }
    let ce := e.kind = 1 ∨ e.kind = 2
    if d.logOcc ≥ 1024 then (d.bump (memCnt (if ce then 5 else 6))).setBits (memBase + 0x10) 4
    else
      let d := d.setRegBytes (memBase + 0x10000 + 32 * (d.regN (memBase + 0x40) % 1024)) e.bytes
      let d := d.bump32 (memBase + 0x40)
      let d := if ce then d.setBits (memBase + 0x10) 1 else d
      if d.logOcc = 512 then d.setBits (memBase + 0x10) 8 else d

/-- A write of MEM_LOG_CI: only by the owner, and only within PI (R357). -/
def Dev.logCi (d : Dev) (ag : Agent) (v : BitVec 32) : Dev :=
  let owner :=
    if bit (d.regN (memBase + 4)) 1 then (match ag with | .core _ => true | _ => false) else decide (ag = .supervisor)
  if owner && decide ((v - d.reg (memBase + 0x44)).toNat ≤ d.logOcc) then d.setReg (memBase + 0x44) v else d

/-! ### Goat (R355, R356) -/

/-- Lines of on-chip SRAM in Goat's order: by cluster its memory, then its cores' local memories, then Pool. -/
def sramLines : Nat := 24 * (65536 + 8 * 5120) + 2097152

/-- Global line number of Goat's on-chip position. -/
def sramLine (i : Nat) : Nat :=
  let per := 65536 + 8 * 5120
  if i < 24 * per then
    let k := i / per
    let o := i % per
    let base := (0x100000000 + k * 0x1000000) / 64
    if o < 65536 then base + o
    else
      let j := (o - 65536) / 5120
      base + (0x800000 + j * 0x80000) / 64 + (o - 65536) % 5120
  else poolBase / 64 + (i - 24 * per)

/-- Goat visits an on-chip line: its memory is powered and not retired (R355, R356). -/
def Dev.goatVisits (d : Dev) (l : Nat) : Bool :=
  let a := 64 * l
  if a < poolBase then
    let k := (a - 0x100000000) / 0x1000000
    (d.power (pwrCluster k) = .active || d.power (pwrCluster k) = .nap) && !bit (d.regN (memBase + 0x54)) k
  else !bit (d.regN (memBase + 0x50)) ((a - poolBase) / 0x800000)

/-- Region of an on-chip line. -/
def sramRegion (l : Nat) : Region :=
  let a := 64 * l
  if poolBase ≤ a then .pool
  else
    let o := (a - 0x100000000) % 0x1000000
    if o < 0x800000 then .cluster else if (o - 0x800000) % 0x80000 < 0x40000 then .ldm else .lpm

/-- Goat at an on-chip line (R355). -/
def Dev.goatLine (d : Dev) (l : Nat) : Dev :=
  let r := sramRegion l
  let d := d.bump (memCnt 7)
  match d.mem.decodeLine l with
  | (.clean, _) => d
  | (.poison, _) => d.logPlain r (64 * l) 4 1 Agent.goat.word
  | (.uncorrectable, _) => d.ueLine r l 1 Agent.goat.word
  | (v, bs) =>
    let d := (d.ceLine r l v 1 Agent.goat.word).bump (memCnt 8)
    ({ d with mem := d.mem.storeLine l bs }).unfilter (64 * l)

/-- Goat at a DDR5 octet (R355): poisoned lines are logged and left; the rest is decoded without them. -/
def Dev.goatOctet (d : Dev) (l0 : Nat) : Dev :=
  let d := d.bump (memCnt 7)
  let bad := (List.range 8).filter (fun u => d.mem.poisoned (l0 + u))
  let d := bad.foldl (fun (d : Dev) u => d.logPlain .ddr (64 * (l0 + u)) 4 1 Agent.goat.word) d
  match d.mem.decodeOctet l0 none with
  | .clean | .poison => d
  | .uncorrectable => d.ueOctet l0 1 Agent.goat.word
  | v =>
    let d := (d.ceOctet l0 v 1 Agent.goat.word).bump (memCnt 8)
    let good := (List.range 8).filter (fun u => !bad.contains u)
    let bytes := good.map (fun u => (l0 + u, d.mem.octetLineBytes (l0 + u) v))
    let m := bytes.foldl (fun (m : MemState) p => (m.putBytes (64 * p.1) p.2).setBad p.1 0) d.mem
    ({ d with mem := (m.setSyn l0 0).setChk l0 0 }).unfilter (64 * l0)

/-- Goat runs: enabled, in Standby, a Service mode or Maintenance (R356). -/
def Dev.goatRuns (d : Dev) : Bool :=
  bit (d.regN (memBase + 4)) 0 && (d.pwr.mode = 3 || d.pwr.mode = 4 || d.pwr.mode = 5 || d.pwr.mode = 6)

/-- The next group of on-chip SRAM or of DDR5; a memory that Goat skips is stepped over (R355, R356). -/
def Dev.goatNext (d : Dev) (ddr : Bool) : Dev :=
  if !d.goatRuns then d
  else if ddr then
    if !d.mem.filled || d.visible = 0 then d
    else
      let a := d.reg64 (memBase + 0x38)
      let a := if ddrBase ≤ a ∧ a < ddrBase + d.visible then a else ddrBase
      let next := if a + 512 < ddrBase + d.visible then a + 512 else ddrBase
      let d := if d.pageRetired a then d else d.goatOctet (a / 64)
      d.setReg64 (memBase + 0x38) next
  else
    let i := d.mem.goatSram % sramLines
    let d := if d.goatVisits (sramLine i) then d.goatLine (sramLine i) else d
    { d with mem := { d.mem with goatSram := (i + 1) % sramLines } }

/-! ### Write-back and fill (R354, R363) -/

/-- Write back the combining buffer and every dirty check line (R354). -/
def Dev.writeBack (d : Dev) : Dev :=
  let d := d.mem.comb.foldl (fun (d : Dev) e => d.flushEntry e) d
  { d with mem := { d.mem with clc := d.mem.clc.map (fun c => { c with dirty := false }) } }

/-- Drop every entry of a table whose key lies in a range. -/
def dropRange {α : Type} (t : Tab α) (lo hi : Nat) : Tab α := t.filter (fun e => !(decide (lo ≤ e.1) && decide (e.1 < hi)))

/-- A range of whole lines becomes zero data with valid checks. -/
def MemState.clearRange (m : MemState) (a n : Nat) : MemState :=
  { m with
    data := dropRange m.data a (a + n), badPar := dropRange m.badPar (a / 64) ((a + n) / 64),
    syn := dropRange m.syn (a / 64) ((a + n) / 64), chkBad := dropRange m.chkBad (a / 64) ((a + n) / 64) }

/-- NCH is one that the fill accepts (R366). -/
def Dev.nchOk (d : Dev) : Bool := [1, 2, 3, 6].contains (d.regN (memBase + 0x20) % 8)

/-- The fill: zero data and valid checks in every line, FILLED set; other values of NCH refuse it (R363, R366). -/
def Dev.ddrFill (d : Dev) : Dev :=
  if !d.mem.fillBusy || d.mem.filled then d
  else if !d.nchOk then { (d.setBits (memBase + 0x10) 0x40) with mem := { d.mem with fillBusy := false } }
  else
    let m := d.mem.clearRange ddrBase 0x6000000000
    { d with mem := { m with comb := [], clc := [], filled := true, fillBusy := false } }

/-- A combining-buffer entry is flushed once it is full or 500 ns old (R350). -/
def Dev.octetDue (d : Dev) (e : CombEntry) : Bool :=
  (List.range 8).all (fun u => e.count u = 64) || decide (500 * 2 ^ 32 ≤ (d.time.raw - e.since) * d.time.inc)

/-- OCTET_FLUSH: the oldest entry that is due is flushed (R350). -/
def Dev.octetFlush (d : Dev) : Dev :=
  match d.mem.comb.find? d.octetDue with
  | none => d
  | some e => d.flushEntry e

/-! ### Clearing and retention (R361, R362) -/

/-- Base of a Pool bank. -/
def bankBase (b : Nat) : Nat := poolBase + b * 0x800000

/-- A Pool bank comes up cleared; its signature is that of zero lines. -/
def Dev.clearBank (d : Dev) (b : Nat) : Dev :=
  let m := d.mem.clearRange (bankBase b) 0x800000
  { d with mem := { m with sig := Tab.put (fun _ => 0) m.sig b 0 } }

/-- A cluster's memory and its cores' local memories come up cleared (R361). -/
def Dev.clearCluster (d : Dev) (k : Nat) : Dev :=
  { d with mem := d.mem.clearRange (0x100000000 + k * 0x1000000) 0x1000000 }

/-- A core's local memories come up cleared (R361). -/
def Dev.clearLocal (d : Dev) (c : Nat) : Dev := { d with mem := d.mem.clearRange (lmBase c) 0x50000 }

/-- A bank is marked for retention (R362). -/
def Dev.retained (d : Dev) (b : Nat) : Bool := bit (d.regN (memBase + 0x58)) b && !bit (d.regN (memBase + 0x50)) b

/-- Entry to retention: each retained bank's signature is copied into the always-on domain (R362). -/
def Dev.saveSignatures (d : Dev) : Dev :=
  (List.range 16).foldl (fun (d : Dev) b =>
    if d.retained b then
      { d with mem := { d.mem with sigSaved := Tab.put (fun _ => 0) d.mem.sigSaved b (d.mem.signature b) } }
    else d) d

/-- Lines of a bank for which something is stored. -/
def MemState.bankLines (m : MemState) (b : Nat) : List Nat :=
  let lo := bankBase b / 64
  let inB := fun l => decide (lo ≤ l) && decide (l < lo + 131072)
  let ls : List Nat := m.data.map (fun e => e.1 / 64) ++ m.badPar.map (fun e => e.1) ++ m.syn.map (fun e => e.1)
    ++ m.chkBad.map (fun e => e.1)
  ls.foldl (fun acc l => if inB l && !acc.contains l then acc ++ [l] else acc) []

/-- A bank's signature recomputed from its check words (R362). -/
def MemState.walkSignature (m : MemState) (b : Nat) : BitVec 64 :=
  (m.bankLines b).foldl (fun s l => s ^^^ (m.checkWord l).rotateLeft (l % 64)) 0

/-- A bank fails its walk: cleared, MEM_RET_RESULT, RETENTION_FAIL logged and counted (R362). -/
def Dev.retentionFail (d : Dev) (b : Nat) : Dev :=
  let d := (d.clearBank b).setBits (memBase + 0x5C) (2 ^ b)
  let d := (d.setBits (memBase + 0x10) 0x10).bump (memCnt 13)
  d.logPlain .pool (bankBase b) 5 3 Agent.walk.word

/-- The wake walk of a retained bank: corrections in place, the signature recomputed and compared (R362). -/
def Dev.walkBank (d : Dev) (b : Nat) : Dev :=
  let (d, bad) := (d.mem.bankLines b).foldl (fun (acc : Dev × Bool) l =>
    let (d, bad) := acc
    match d.mem.decodeLine l with
    | (.clean, _) | (.poison, _) => (d, bad)
    | (.uncorrectable, _) => (d, true)
    | (v, bs) => ({ (d.ceLine .pool l v 3 Agent.walk.word) with
        mem := (d.ceLine .pool l v 3 Agent.walk.word).mem.storeLine l bs }, bad)) (d, false)
  let s := d.mem.walkSignature b
  if bad || s ≠ Tab.get (fun _ => 0) d.mem.sigSaved b then d.retentionFail b
  else { d with mem := { d.mem with sig := Tab.put (fun _ => 0) d.mem.sig b s } }

/-- Pool after a wake without power in between for retained banks: they are walked, the others come up cleared
(R361, R362). -/
def Dev.wakePool (d : Dev) : Dev :=
  (List.range 16).foldl (fun (d : Dev) b => if d.retained b then d.walkBank b else d.clearBank b)
    (d.setRegN (memBase + 0x5C) 0)

/-! ### Retirement (R360) -/

/-- A write of half `h` of the retirement entry that MEM_RETIRE_SEL shows (R360, R366). -/
def Dev.retireEntry (d : Dev) (sel : Nat) (v : BitVec 64) : Dev :=
  let v := v &&& 0x80000000007FFFFF
  { d with mem := { d.mem with retire := Tab.put (fun _ => 0) d.mem.retire (sel % 256) v } }

/-- A write of MEM_POOL_RETIRE: a bank brought back is cleared before its first access (R360, R361). -/
def Dev.poolRetire (d : Dev) (v : Nat) : Dev :=
  let old := d.regN (memBase + 0x50)
  let d := (List.range 16).foldl (fun (d : Dev) b => if bit old b && !bit v b then d.clearBank b else d) d
  d.setRegN (memBase + 0x50) (v % 65536)

end Sys2Proof.Machine
end

