-- ==== Sys2Proof/Machine/WakeCtl.lean ====
section
/-!
DEFINITION. Control of the wake and burst unit: enables, STOP, the end of listen jobs and the receivers' views
(R272, R274, R290 to R292, R295, R298 to R300).
-/
namespace Sys2Proof.Machine

/-- A report descriptor of 32 bytes (R292). -/
def wbrReport (payload : List Byte) (time level contrast kind len type erased tag : Nat) : List Byte :=
  padTo 16 payload ++ leBytes 8 time ++ leBytes 2 level ++ leBytes 1 contrast ++ leBytes 1 (len + 32 * kind)
    ++ leBytes 1 type ++ leBytes 1 (min erased 255) ++ leBytes 2 tag

/-- Post a report of a listen job to its queue. -/
def Dev.wbrPost (d : Dev) (r : Nat) (l : Listen) (rep : List Byte) : Dev := d.postHw (.wake (4 + r)) (leAt l.bytes 4 4 % 2 ^ 18) rep

/-- JOB_END: the report, the counter and the free context (R290, R292, R295). -/
def Dev.listenEnd (d : Dev) (r k : Nat) (l : Listen) (status : Nat) : Dev :=
  let d := (d.setListen r k none).bump (wbrCnt r 8)
  let d := if status = 0 ∨ status = 2 then d else d.setBits (wbuRBase r + 0x10) 1
  let d := if status = 0x23 then d.setBits (wbuRBase r + 0x10) 2 else d
  let d := if status = 0x15 then d.fault 2 1 5 (4 + r) status else d
  d.wbrPost r l (wbrReport (leBytes 1 status) (if l.ended.isSome then l.endTime else d.now) 0 0 3 0 0 0 (leAt l.bytes 12 2))

/-- Search stops for a job; with no reception in progress the job ends (R290). -/
def Dev.listenStop (d : Dev) (r k status : Nat) : Dev :=
  match d.listen r k with
  | none => d
  | some l =>
    if l.ended.isSome then d
    else
      let l := { l with ended := some status, endTime := d.now }
      if l.cur.isNone then d.listenEnd r k l status else d.setListen r k (some l)

/-- WBU_R_STOP: jobs with the TAG, or every job (R290, R299). -/
def Dev.wbrStop (d : Dev) (r v : Nat) : Dev :=
  (d.listens r).foldl (fun (d : Dev) p =>
    if bit v 16 || leAt p.2.bytes 12 2 = v % 65536 then d.listenStop r p.1 2 else d) d

/-- WBU_G_CTRL.ABORT: every running job of the generator ends at its next symbol boundary; one that has nothing left to do
stands, and ABORT_LATE is set (R294, R295). -/
def Dev.wbgAbort (d : Dev) (g : Nat) : Dev :=
  (d.eng 5 g).ctx.foldl (fun (d : Dev) p =>
    match p.2 with
    | none => d
    | some j =>
      if j.status.isSome then d.engInt 5 g 2
      else
        let e := d.eng 5 g
        d.setEng 5 g { e with ctx := Tab.put (fun _ => none) e.ctx p.1 (some { j with status := some (0x21, none), cap := e.nextEnd }) }) d

/-- A write of ENABLE; ignored outside Profile 3 (R272). -/
def Dev.wbgEnable (d : Dev) (g : Nat) (on : Bool) : Dev :=
  if d.profile3 then d.setRegN (wbuGBase g + 4) (b2n on) else d
def Dev.wbrEnable (d : Dev) (r : Nat) (on : Bool) : Dev :=
  if d.profile3 then d.setRegN (wbuRBase r + 4) (b2n on) else d

end Sys2Proof.Machine
end

