-- ==== Sys2Proof/Machine/PowerCtl.lean ====
section
/-!
DEFINITION. Units going Off and coming back, and cluster retirement (R360, R361, R461).
-/
namespace Sys2Proof.Machine

/-- Counters that a unit going Off leaves: their live values are added to what Supervisor keeps and restart from 0
(R461, R539). -/
def Dev.saveCounter (d : Dev) (i : Nat) : Dev :=
  let v := Tab.get (fun _ => 0) d.obs.saved i + BitVec.ofNat 64 (d.catValue i)
  let d := { d with obs := { d.obs with
    saved := Tab.put (fun _ => 0) d.obs.saved i v, cnt := Tab.put (fun _ => 0) d.obs.cnt i 0 } }
  match catReg i with
  | some a => d.setReg64 a 0
  | none => d

/-- First catalogue index and number of counters of a unit, by its power index (R538); none where it has none. -/
def unitCounters (cls u : Nat) : Nat × Nat :=
  match cls with
  | 0 => (0x100 + 16 * u, 11) | 1 => (0x200 + 16 * u, 13) | 2 => (0x2C0 + 16 * u, 13) | 3 => (0x300, 13)
  | 4 => (0x320 + 16 * u, 8) | 5 => (0x3A0 + 16 * u, 7) | 8 => (0x420 + 16 * u, 9) | 9 => (0x3E0 + 16 * u, 9)
  | _ => (0, 0)

/-- Register window of an engine, mover or receiver: base and size; the cipher engines keep only their staging entries. -/
def unitWindow (cls u : Nat) : Nat × Nat :=
  match cls with
  | 0 => (benBase u, 0x10000) | 8 => (bmvBase u, 0x10000) | 9 => (wbuRBase u, 0x8000)
  | 6 => (cphPrivate u, 0x8000) | 7 => (cphPrivate (8 + u), 0x8000)
  | _ => (engBase cls u, 0x8000)

/-- An engine, mover or receiver goes Off: counters saved, everything else lost (R460, R461). -/
def Dev.unitOff (d : Dev) (cls u : Nat) : Dev :=
  if d.power (pwrEng cls u) = .off then d
  else
    let (c0, n) := unitCounters cls u
    let d := (List.range n).foldl (fun (d : Dev) i => d.saveCounter (c0 + i)) d
    let (b, span) := unitWindow cls u
    let d := { d with regs := dropRange d.regs b (b + span) }
    let d := d.setEng cls u {}
    let d := if cls = 8 then d.setMover u {} else d
    let d := if cls = 9 then { d with wbr := Tab.put (fun _ => {}) d.wbr u {} } else d
    let d := if cls = 6 then d.setCeng u { d.ceng u with run := none } else d
    let d := if cls = 7 then d.setCeng (8 + u) { d.ceng (8 + u) with run := none } else d
    d.setPower (pwrEng cls u) .off

/-- Core reset (R81). -/
def Dev.resetCore (d : Dev) (c : Nat) : Dev := d.setCore c {}

/-- A cluster goes Off: counters saved, cores in reset, memories lost (R460, R461). -/
def Dev.clusterOff (d : Dev) (k : Nat) : Dev :=
  if d.power (pwrCluster k) = .off then d
  else
    let d := (List.range 8).foldl (fun (d : Dev) j =>
      let c := 8 * k + j
      let d := (List.range 4).foldl (fun (d : Dev) i => d.saveCounter (0xA00 + 4 * c + i)) d
      (d.resetCore c).setPower (pwrCore c) .active) d
    (d.setAttached k {}).setPower (pwrCluster k) .off

/-- A cluster leaves Off: its memories are cleared; its cores are released by the entry to a Service mode (R361, R461). -/
def Dev.clusterOn (d : Dev) (k : Nat) : Dev :=
  if d.power (pwrCluster k) ≠ .off then d
  else (d.clearCluster k).setPower (pwrCluster k) .active

/-- A unit leaves Off with its registers at their reset values (R461). -/
def Dev.unitOn (d : Dev) (cls u : Nat) : Dev :=
  if d.power (pwrEng cls u) = .off then d.setPower (pwrEng cls u) .active else d

/-- A write of MEM_CLUSTER_RETIRE: newly retired clusters go Off; a cluster brought back is cleared before its first
access (R360). -/
def Dev.clusterRetire (d : Dev) (v : Nat) : Dev :=
  let old := d.regN (memBase + 0x54)
  let d := (List.range 24).foldl (fun (d : Dev) k =>
    if !bit old k && bit v k then d.clusterOff k
    else if bit old k && !bit v k then d.clearCluster k
    else d) d
  d.setRegN (memBase + 0x54) (v % 2 ^ 24)

end Sys2Proof.Machine
end

