-- ==== Sys2Proof/Machine/TimeUnit.lean ====
section
/-!
DEFINITION. The time unit: device time, the servo, steps, REFCLK absence, PPS and TDD outputs (R401 to R430).
-/
namespace Sys2Proof.Machine

/-- Count in time-unit counter `i` of R430. -/
def Dev.tmuCount (d : Dev) (i : Nat) : Dev := d.bump (tmuBase + 0x800 + 8 * i)

/-- Set a TMU_INT_STATUS bit (R429). -/
def Dev.tmuInt (d : Dev) (b : Nat) : Dev := d.setBits (tmuBase + 0x10) (2 ^ b)

/-- A time-unit register. -/
def Dev.tmuReg (d : Dev) (o : Nat) : Nat := d.regN (tmuBase + o)

/-- Nearest integer, ties upward (assumption log 14). -/
def roundRat (x : Rat) : Int := (x + 1 / 2).floor

/-! ### TDD outputs (R422 to R425) -/

/-- The GPS epoch on the PTP timescale (R422). -/
def gpsEpoch : Int := 315964819 * 10 ^ 9

/-- Device time after the start of frame 0 with TMU_FRAME_OFS, in ns (R422). -/
def Dev.sinceFrame0 (d : Dev) : Int := (d.now : Int) - gpsEpoch - toSigned 64 (d.reg64 (tmuBase + 0x300))

/-- The frame that device time lies in (R422). -/
def Dev.frame (d : Dev) : Int := d.sinceFrame0 / 10000000

/-- The table's value at a place in its period (R423). -/
def TddTab.valueAt (t : TddTab) (place : Nat) : BitVec 16 :=
  (t.evs.take t.nev).foldl (fun v e =>
    if e.toNat % 2 ^ 32 ≤ place then
      (v ||| BitVec.ofNat 16 (fld e.toNat 47 32)) &&& ~~~ (BitVec.ofNat 16 (fld e.toNat 63 48))
    else v) t.init

/-- Place of output `b` in its period at the present device time (R423). -/
def Dev.tddPlace (d : Dev) (t : TddTab) (b : Nat) : Nat := ((d.sinceFrame0 + t.adv.getD b 0) % (t.period : Int)).toNat

/-- TDD_CTL may follow the table: TDD_EN, a Service mode, and a locked state (R425). -/
def Dev.tddOpen (d : Dev) : Bool :=
  bit (d.tmuReg 4) 2 && (d.pwr.mode = 4 || d.pwr.mode = 5) && d.time.locked && decide (0 < d.time.tddAct.period)

/-- Whole ns that one REFCLK period spans at most: an instant due within the present period has come. -/
def Dev.tickNs (d : Dev) : Nat := ceilDiv d.time.inc (2 ^ 32)

/-- The outputs at the present device time: each follows the table from a start of its own shifted period on, and all
hold TMU_TDD_SAFE while the conditions of R425 fail. -/
def Dev.tddRefresh (d : Dev) : Dev :=
  let safe := BitVec.ofNat 16 (d.tmuReg 0x208)
  if d.tddOpen then
    let t := d.time.tddAct
    let follow := (List.range 16).foldl (fun (f : BitVec 16) b =>
      if f.getLsbD b || decide (d.tddPlace t b < d.tickNs) then f ||| BitVec.ofNat 16 (2 ^ b) else f) d.time.tddFollow
    let out := (List.range 16).foldl (fun (o : BitVec 16) b =>
      let v := if follow.getLsbD b then (t.valueAt (d.tddPlace t b)).getLsbD b else safe.getLsbD b
      if v then o ||| BitVec.ofNat 16 (2 ^ b) else o) 0
    { d with time := { d.time with tddFollow := follow, tddOut := out } }
  else { d with time := { d.time with tddFollow := 0, tddOut := safe } }

/-- The staged table (R424). -/
def Dev.tddStaged (d : Dev) : TddTab :=
  { period := d.tmuReg 0x200, init := BitVec.ofNat 16 (d.tmuReg 0x204), nev := d.tmuReg 0x20C % 256
    adv := (List.range 16).map (fun b => toSigned 32 (d.tmuReg (0x240 + 4 * b)))
    evs := (List.range 128).map (fun n => BitVec.ofNat 64 (d.reg64 (tmuBase + 0x1000 + 8 * n))) }

/-- Offsets rise strictly. -/
def risingOffsets : List (BitVec 64) → Bool
  | a :: b :: rest => decide (a.toNat % 2 ^ 32 < b.toNat % 2 ^ 32) && risingOffsets (b :: rest)
  | _ => true

/-- The conditions of a commit (R423, R424). -/
def TddTab.ok (t : TddTab) : Bool :=
  let es := t.evs.take t.nev
  decide (62500 ≤ t.period) && decide (20000000 % t.period = 0) && decide (t.nev ≤ 128)
    && t.adv.all (fun a => decide (-(t.period : Int) < a ∧ a < t.period))
    && es.all (fun e => decide (e.toNat % 2 ^ 32 < t.period) && decide (fld e.toNat 47 32 &&& fld e.toNat 63 48 = 0))
    && risingOffsets es

/-- A write of COMMIT (R424): the effect comes at the first even frame that starts strictly after it. -/
def Dev.tddCommit (d : Dev) : Dev :=
  if d.time.tddArmed.isSome then d
  else if d.tddStaged.ok then
    { d with time := { d.time with tddArmed := some d.tddStaged, tddCommit := (d.frame / 2 + 1) * 2 } }
  else d.tmuInt 5

/-- An accepted commit takes effect (R424). -/
def Dev.tddEffect (d : Dev) : Dev :=
  match d.time.tddArmed with
  | none => d
  | some t =>
    if d.frame < d.time.tddCommit then d
    else
      let d := { d with time := { d.time with tddArmed := none, tddAct := t } }
      let d := (List.range 128).foldl (fun (d : Dev) n =>
        d.setReg64 (tmuBase + 0x1400 + 8 * n) (t.evs.getD n 0).toNat) d
      d.tddRefresh

/-! ### State, steps and rate (R402 to R412) -/

/-- A rate change to a new INC at the present raw count, without a jump (R403). -/
def TimeState.setRate (t : TimeState) (inc : Nat) : TimeState := { t with base := t.fix, cbase := t.raw, inc := inc }

/-- TMU_MAX_ADJ (R404). -/
def Dev.maxAdj (d : Dev) : Rat := (d.tmuReg 0x90 : Rat)

/-- Clamp to ±m. -/
def clampRat (x m : Rat) : Rat := max (-m) (min m x)

/-- INC_nom × (1 − y × 10^−9), to the nearest 2^−32 ns (R410). -/
def incOf (fref : Nat) (y : Rat) : Nat :=
  (roundRat ((2 ^ 32 * 10 ^ 9 : Nat) / (fref : Rat) * (1 - y / (10 ^ 9 : Nat)))).toNat

/-- Set the frequency correction y (R410). -/
def Dev.setFreq (d : Dev) (y : Rat) : Dev := { d with time := { d.time.setRate (incOf d.fref y) with freq := y } }

/-- A transition of R406: STATE_CHANGE, LOCK_LOSS from LOCKED, y := I in the holdover states (R410), a NOTIFY (R508). -/
def Dev.timeTo (d : Dev) (s : TState) : Dev :=
  let old := d.time.state
  if s = old then d
  else
    let d := if old = .locked then d.tmuCount 5 else d
    let d := { d with time := { d.time with state := s, lockRun := 0, unlockRun := 0 } }
    let d := if s = .holdover then { d with time := { d.time with holdRaw := 0 } } else d
    let d := if s = .holdover || s = .expired || s = .coarse then d.setFreq d.time.integ else d
    ((d.tmuInt 0).tddRefresh).notify ⟨0x20, 1, 0, 7, leBytes 2 s.code⟩

/-- A step of Δ, in units of 2^−32 ns (R403, R406, R408, R411). -/
def Dev.timeStep (d : Dev) (delta : Int) : Dev :=
  let b := (((d.time.base : Int) + delta) % (2 ^ 96 : Nat)).toNat
  let d := { d with time := { d.time with base := b, stepGen := (d.time.stepGen + 1) % 16, lockRun := 0, unlockRun := 0 } }
  (((d.tmuInt 2).tmuCount 4).timeTo .acquiring).tddRefresh

/-- LOCK_COUNT and UNLOCK_COUNT. -/
def Dev.lockCount (d : Dev) : Nat := d.tmuReg 0x9C % 256
def Dev.unlockCount (d : Dev) : Nat := fld (d.tmuReg 0x9C) 15 8

/-- Count a measurement of LOCKED toward UNLOCK_COUNT (R406). -/
def Dev.countUnlock (d : Dev) (mag : Nat) : Dev :=
  let n := if d.tmuReg 0x98 * 65536 < mag then d.time.unlockRun + 1 else 0
  let d := { d with time := { d.time with unlockRun := n } }
  if 0 < n ∧ d.unlockCount ≤ n then d.timeTo .holdover else d

/-- Count an applied measurement toward LOCK_COUNT (R406). -/
def Dev.countLock (d : Dev) (mag : Nat) : Dev :=
  let n := if mag ≤ d.tmuReg 0x94 * 65536 then d.time.lockRun + 1 else 0
  let d := { d with time := { d.time with lockRun := n } }
  if 0 < n ∧ d.lockCount ≤ n then d.timeTo .locked else d

/-- An applied measurement updates the servo (R410); θ in units of 2^−16 ns, τ in µs. -/
def Dev.servo (d : Dev) (theta : Int) (tau : Nat) : Dev :=
  let m := d.maxAdj
  let r : Rat := (theta : Rat) / 65536 * 1000000 / (tau : Rat)
  let i := clampRat (d.time.integ + (d.tmuReg 0x8C : Rat) / 65536 * r) m
  let y := clampRat ((d.tmuReg 0x88 : Rat) / 65536 * r + i) m
  ({ d with time := { d.time with integ := i } }).setFreq y

/-- τ clamped to 1/128 to 16 s, in µs (R407); 1/128 s is 7,812.5 µs, so τ is doubled here. -/
def clampTau2 (tau : Nat) : Nat := max 15625 (min 32000000 (2 * tau))

/-- A measurement from a source (R407 to R410); θ in units of 2^−16 ns, τ in µs. -/
def Dev.measure (d : Dev) (src : Nat) (theta : Int) (tau gen : Nat) : Dev :=
  if b2n (bit (d.tmuReg 4) 1) ≠ src then d
  else
    let d := d.tmuCount 0
    if !bit (d.tmuReg 4) 0 then d
    else if gen ≠ d.time.stepGen || !d.time.refclk then d.tmuCount 2
    else
      let d := { d with time := { d.time with lastOfs := theta, lastMeas := d.time.raw } }
      let mag := theta.natAbs
      if d.time.state = .freeRun || (d.time.state = .coarse && decide (mag ≤ d.tmuReg 0x84 * 65536)) then
        d.timeStep (-theta * 65536)
      else if d.tmuReg 0x80 * 65536 < mag then
        let d := { d with time := { d.time with
          stepHeld := roundRat ((theta : Rat) / 65536), stepPending := true, lockRun := 0 } }
        let d := (d.tmuInt 1).tmuCount 3
        if d.time.state = .locked then d.countUnlock mag else d
      else
        let d := { (d.tmuCount 1) with time := { (d.tmuCount 1).time with stepPending := false } }
        let d := d.servo (2 * theta) (clampTau2 tau)
        match d.time.state with
        | .locked => d.countUnlock mag
        | .acquiring | .holdover | .expired => d.countLock mag
        | _ => d

/-- Supervisor's write of TMU_MEAS_CTL (R407). -/
def Dev.measCtl (d : Dev) (v : Nat) : Dev := d.measure 0 (toSigned 64 d.time.measOfs) (fld v 23 0) (fld v 31 28)

/-- ACCEPT_STEP (R411): refused, changing nothing, while no step is pending. -/
def Dev.acceptStep (d : Dev) : Dev × Bool :=
  if d.time.stepPending then
    (({ d with time := { d.time with stepPending := false } }).timeStep (-d.time.stepHeld * (2 ^ 32 : Nat)), true)
  else (d, false)

/-- No measurement for TMU_MEAS_TIMEOUT (R406). -/
def Dev.measTimeout (d : Dev) : Dev :=
  let ms := (d.time.raw - d.time.lastMeas) * 1000 / d.fref
  if d.time.state = .locked && decide (d.tmuReg 0xA0 ≤ ms) then d.timeTo .holdover else d

/-- TMU_HOLD_LIMIT seconds spent in HOLDOVER (R406). -/
def Dev.holdExpiry (d : Dev) : Dev :=
  if d.time.state = .holdover && decide (d.tmuReg 0xA4 * d.fref ≤ d.time.holdRaw) then d.timeTo .expired else d

/-! ### PPS (R418, R419) -/

/-- Round to the nearest second, in quarter ns; ties upward (assumption log 14). -/
def roundSecond (q : Int) : Int := (q + 2 * 10 ^ 9) / (4 * 10 ^ 9) * (4 * 10 ^ 9)

/-- A PPS_IN rising edge; `sub` quarter ns after the last REFCLK edge (R418). -/
def Dev.ppsIn (d : Dev) (sub : Nat) : Dev :=
  let q := (d.time.fix >>> 30) + sub
  let d := { d with time := { d.time with ppsTs := q % 2 ^ 64, lastPpsIn := d.time.raw, ppsMissed := false } }
  let x := (q : Int) - 4 * toSigned 32 (d.tmuReg 0xB0)
  d.measure 1 ((x - roundSecond x) * 16384) 1000000 d.time.stepGen

/-- No PPS_IN edge for 1.5 s (R418). -/
def Dev.ppsMissing (d : Dev) : Dev :=
  if !d.time.ppsMissed && decide (3 * d.fref ≤ 2 * (d.time.raw - d.time.lastPpsIn)) then
    let d := { d with time := { d.time with ppsMissed := true } }
    (d.tmuInt 4).tmuCount 7
  else d

/-- PPS_OUT rises at a second boundary of device time while enabled and locked (R419). -/
def Dev.ppsOut (d : Dev) : Dev :=
  if bit (d.tmuReg 0xAC) 24 && d.time.locked && decide (d.now % 10 ^ 9 < d.tickNs) then
    { d with time := { d.time with ppsHigh := true, ppsRaw := d.time.raw } }
  else d

/-- PPS_OUT falls after WIDTH µs (R419). -/
def Dev.ppsOutEnd (d : Dev) : Dev :=
  if d.time.ppsHigh && decide (1000 * (d.tmuReg 0xAC % 2 ^ 20) ≤ ((d.time.raw - d.time.ppsRaw) * 10 ^ 9 / d.fref)) then
    { d with time := { d.time with ppsHigh := false } }
  else d

/-! ### REFCLK and RTC (R413, R414) -/

/-- No REFCLK edge for 1 µs: the counts are latched and the raw counter stops (R414). -/
def Dev.refclkLoss (d : Dev) : Dev :=
  if d.time.refclk then
    let t := { d.time with refclk := false, lossC := d.time.raw, lossR := (d.time.rtc + 1) % 2 ^ 48 }
    (({ d with time := t, pwr := { d.pwr with refGone := true } }).tmuInt 3).tmuCount 6
  else d

/-- Raw counts that `n` RTC ticks bridge (R414). -/
def bridgeCount (fref : Nat) (rate : Int) (n : Nat) : Int :=
  ((n * fref * 10 ^ 9 * 256 : Nat) : Int) / ((32768 : Int) * ((256 * 10 ^ 9 : Nat) + rate))

/-- REFCLK has returned for 16 edges, and the next RTC tick comes (R414). -/
def Dev.refclkReturn (d : Dev) : Dev :=
  if d.time.refclk then d
  else
    let r := (d.time.rtc + 1) % 2 ^ 48
    let n := (r + 2 ^ 48 - d.time.lossR) % 2 ^ 48
    let raw := (d.time.lossC + (bridgeCount d.fref d.time.rtcRate n).toNat) % 2 ^ 64
    let d := { d with time := { d.time with refclk := true, rtc := r, rtcPhase := 0, raw := raw } }
    let d := d.timeTo .coarse
    d.setFreq d.time.integ

/-- A window of 2^20 RTC ticks ends after `cycles` REFCLK cycles (R413). -/
def Dev.rtcWindow (d : Dev) (cycles : Nat) : Dev :=
  if cycles = 0 || !d.time.refclk then d
  else
    let ratio : Rat := (2 ^ 20 * d.fref : Nat) / ((32768 * cycles : Nat) : Rat)
    let rate := satS 32 (roundRat ((ratio - 1) * ((10 ^ 9 * 256 : Nat) : Rat)))
    { d with time := { d.time with rtcRate := rate, rtcValid := true } }

/-- SYSRST_N on the time unit: LOCKED goes to HOLDOVER (R406). -/
def Dev.timeSysrst (d : Dev) : Dev := if d.time.state = .locked then d.timeTo .holdover else d

/-- One REFCLK period: the raw counter, the RTC and the hold timer; without REFCLK only the RTC ticks (R401, R413,
assumption log 1). -/
def Dev.refTick (d : Dev) : Dev :=
  let t := d.time
  if t.refclk then
    let ph := t.rtcPhase + 32768
    let hold := if t.state = .holdover then t.holdRaw + 1 else t.holdRaw
    let raw := (t.raw + 1) % 2 ^ 64
    if d.fref ≤ ph then
      { d with time := { t with raw := raw, holdRaw := hold, rtcPhase := ph - d.fref, rtc := (t.rtc + 1) % 2 ^ 48 } }
    else { d with time := { t with raw := raw, holdRaw := hold, rtcPhase := ph } }
  else { d with time := { t with rtc := (t.rtc + 1) % 2 ^ 48 } }

end Sys2Proof.Machine
end

