-- ==== Sys2Proof/Machine/Bus.lean ====
section
/-!
DEFINITION. Writes over the global address map: every register's write rule, locks and triggers (R8 to R11, R19 and the map
of each unit's chapter), and memory.
-/
namespace Sys2Proof.Machine

/-! ### One register word -/

/-- A write of one word by its access code (R8, R9). -/
def Dev.plainWrite (d : Dev) (p : RegPlace) (a : Nat) (v : BitVec 32) : Dev :=
  match p.row.acc with
  | .rw => d.setReg a (v &&& p.mask)
  | .w1c => d.setReg a (d.reg a &&& ~~~(v &&& p.mask))
  | _ => d

/-- Registers of Smilda that are locked while it is enabled (R73). -/
def smdLocked (o : Nat) : Bool :=
  (decide (0x20 ≤ o) && decide (o ≤ 0x30)) || (decide (0x40 ≤ o) && decide (o ≤ 0x50))
    || (decide (0xC0 ≤ o) && decide (o ≤ 0xDC)) || (decide (0x100 ≤ o) && decide (o ≤ 0x17C))

/-- A write to Smilda's window (R72 to R77). -/
def Dev.smdWrite (d : Dev) (p : RegPlace) (a : Nat) (v : BitVec 32) : Dev :=
  let o := p.off
  if o = 0x4 then d.smdCtrl v.toNat
  else if o = 0x58 then d.tplInval v.toNat
  else if o = 0x60 then d.smdCancel v.toNat
  else if o = 0x70 then d.poolCommand v.toNat
  else if smdLocked o && bit (d.regN (smdBase + 4)) 0 then d.smdInt 7
  else if 0x80 ≤ o ∧ o < 0xA0 then
    (if 1 ≤ v.toNat % 16 ∧ v.toNat % 16 ≤ 8 then d.plainWrite p a v else d)
  else d.plainWrite p a v

/-- A write to the queue manager's window (R332, R333). -/
def Dev.qmgWrite (d : Dev) (p : RegPlace) (a : Nat) (v : BitVec 32) : Dev :=
  let o := p.off
  if o = 0x4 then d.qmgEnable (v.getLsbD 0)
  else if o = 0x30 then d.qCommand v.toNat
  else if 0x20 ≤ o ∧ o ≤ 0x28 ∧ d.qmgOn then d.qmgInt 3
  else d.plainWrite p a v

/-- A write to a mover's window (R329, R335). -/
def Dev.bmvWrite (d : Dev) (p : RegPlace) (a : Nat) (v : BitVec 32) : Dev :=
  let m := p.copy
  if p.off = 0x4 then d.bmvEnable m (v.getLsbD 0)
  else if p.row.off = 0x108 then d.chanCommand m p.index v.toNat
  else if p.row.off = 0x100 && d.bmvOn m then d.bmvInt m 3
  else d.plainWrite p a v

/-- A write to the window of an engine of classes 0 to 4 (R197, R199, R239, R270). -/
def Dev.engWrite (d : Dev) (cls : Nat) (p : RegPlace) (a : Nat) (v : BitVec 32) : Dev :=
  let u := p.copy
  if p.off = 0x4 then
    let d := d.engEnable cls u (v.getLsbD 0)
    if v.getLsbD 1 then d.engAbort cls u else d
  else if p.off = 0x20 && d.engOn cls u then d.engInt cls u 3
  else d.plainWrite p a v

/-- A write to a generator's window (R298, R300). -/
def Dev.wbgWrite (d : Dev) (p : RegPlace) (a : Nat) (v : BitVec 32) : Dev :=
  let g := p.copy
  if p.off = 0x4 then
    let d := d.wbgEnable g (v.getLsbD 0)
    if v.getLsbD 1 then d.wbgAbort g else d
  else if p.off = 0x20 && d.engOn 5 g then d.engInt 5 g 3
  else d.plainWrite p a v

/-- A write to a receiver's window (R299, R300). -/
def Dev.wbrWrite (d : Dev) (p : RegPlace) (a : Nat) (v : BitVec 32) : Dev :=
  let r := p.copy
  if p.off = 0x4 then d.wbrEnable r (v.getLsbD 0)
  else if p.off = 0x24 then d.wbrStop r v.toNat
  else if p.off = 0x20 && bit (d.regN (wbuRBase r + 4)) 0 then d.setBits (wbuRBase r + 0x10) 4
  else d.plainWrite p a v

/-- A write to a cipher page's window that its access list admits (R453, R454); the key bytes are held for LOAD and never
read back. -/
def Dev.cphWrite (d : Dev) (p : RegPlace) (a : Nat) (v : BitVec 32) : Dev :=
  if p.off = 0x34 then d.keyCommand p.copy v.toNat
  else if p.row.off = 0x80 then d.setReg a v
  else d.plainWrite p a v

/-- A write to the fronthaul's window (R398, R399). -/
def Dev.fhnWrite (d : Dev) (p : RegPlace) (a : Nat) (v : BitVec 32) : Dev :=
  let o := p.row.off
  if p.off = 0x4 then d.fhnCtrl v.toNat
  else if (o = 0x100 || o = 0x1008 || o = 0x1010 || o = 0x1018) && d.fhnOn then d.fhnInt 6
  else if o = 0x1000 && d.fhnOn then
    let keep := d.reg a &&& 7
    let d := if (v &&& 7) = keep then d else d.fhnInt 6
    d.setReg a ((v &&& 0x18) ||| keep)
  else if o = 0x30000 then (d.plainWrite p a v).placeWritten (p.index / 8)
  else d.plainWrite p a v

/-- A write to the time unit's window: only Supervisor's takes effect (R428). -/
def Dev.tmuWrite (d : Dev) (ag : Agent) (p : RegPlace) (a : Nat) (v : BitVec 32) : Dev :=
  let o := p.off
  if ag ≠ .supervisor then (d.tmuInt 6).tmuCount 8
  else if o = 0x68 then
    { d with time := { d.time with measOfs := d.time.measOfs / 2 ^ 32 * 2 ^ 32 + v.toNat } }
  else if o = 0x6C then
    { d with time := { d.time with measOfs := d.time.measOfs % 2 ^ 32 + v.toNat * 2 ^ 32 } }
  else if o = 0x70 then d.measCtl v.toNat
  else if o = 0x210 then (if v.getLsbD 0 then d.tddCommit else d)
  else if o = 0x4 || o = 0x208 then (d.plainWrite p a v).tddRefresh
  else d.plainWrite p a v

/-- A write to the memory controllers' window (R357, R360, R366). -/
def Dev.memCtlWrite (d : Dev) (ag : Agent) (p : RegPlace) (a : Nat) (v : BitVec 32) : Dev :=
  let o := p.off
  if o = 0x20 && (d.mem.filled || d.mem.fillBusy) then d.setBits (memBase + 0x10) 0x40
  else if o = 0x44 then d.logCi ag v
  else if o = 0x50 then d.poolRetire v.toNat
  else if o = 0x54 then d.clusterRetire v.toNat
  else if o = 0x58 && decide (d.pwr.mode ≠ 3) then d.setBits (memBase + 0x10) 0x40
  else if o = 0x68 ∨ o = 0x6C then
    let sel := d.regN (memBase + 0x60)
    let old := Tab.get (fun _ => (0 : BitVec 64)) d.mem.retire sel
    let new := if o = 0x68 then (old.extractLsb' 32 32) ++ v else v ++ (old.extractLsb' 0 32)
    d.retireEntry sel new
  else d.plainWrite p a v

/-- A write to the observation window: only Supervisor's takes effect, OBS_SNAP apart (R552). -/
def Dev.obsWrite (d : Dev) (ag : Agent) (p : RegPlace) (a : Nat) (v : BitVec 32) : Dev :=
  let o := p.off
  if o = 0x60 then (if v.getLsbD 0 then d.obsSnap else d)
  else if ag ≠ .supervisor then d.setBits (obsBase + 0x10) 4
  else if o = 0x4 then d.obsCtrl v.toNat
  else if 0x20 ≤ o ∧ o ≤ 0x28 ∧ d.regN (obsBase + 4) % 4 ≠ 0 then d
  else d.plainWrite p a v

/-- A write of one whole register word; an unmapped word ignores it (R8, R10). -/
def Dev.wordWrite (d : Dev) (ag : Agent) (a : Nat) (v : BitVec 32) : Dev :=
  if d.pageRefuses ag a then d.cphDeny ((pageAt a).getD 0)
  else
    match regPlace a with
    | none => d
    | some p =>
      if p.win.base = smdBase then d.smdWrite p a v
      else if p.win.base = qmgBase then d.qmgWrite p a v
      else if p.win.base = bmvBase 0 then d.bmvWrite p a v
      else if p.win.base = benBase 0 then d.engWrite 0 p a v
      else if p.win.base = decBase 0 then d.engWrite 1 p a v
      else if p.win.base = encBase 0 then d.engWrite 2 p a v
      else if p.win.base = codecBase then d.engWrite 3 p a v
      else if p.win.base = xfuBase 0 then d.engWrite 4 p a v
      else if p.win.base = wbuGBase 0 then d.wbgWrite p a v
      else if p.win.base = wbuRBase 0 then d.wbrWrite p a v
      else if p.win.base = cphBase 0 then d.cphWrite p a v
      else if p.win.base = fhnBase then d.fhnWrite p a v
      else if p.win.base = tmuBase then d.tmuWrite ag p a v
      else if p.win.base = memBase then d.memCtlWrite ag p a v
      else if p.win.base = obsBase then d.obsWrite ag p a v
      else d.plainWrite p a v

/-! ### Accesses of any width (R11) -/

/-- Address of a 64-bit register whose value a write of both halves takes at once as one command. -/
def wideTrigger (a : Nat) : Bool :=
  a = qmgBase + 0x80 || a = qmgBase + 0x88 || (decide (cphBase 0 ≤ a) && decide (a < cphBase 64) && a % 0x1000 = 0x20)

/-- An aligned 64-bit write to a 64-bit command register (R306, R307, R431); a write of one half has no effect
(assumption log 20). -/
def Dev.wideWrite (d : Dev) (ag : Agent) (a v : Nat) : Dev :=
  if a = qmgBase + 0x80 then d.doorbellPi (v % 2 ^ 18) (BitVec.ofNat 32 (v >>> 32))
  else if a = qmgBase + 0x88 then d.doorbellCi (v % 2 ^ 18) (BitVec.ofNat 32 (v >>> 32))
  else if d.pageRefuses ag a then d.cphDeny ((pageAt a).getD 0)
  else d.cphSubmit ((pageAt a).getD 0) (v % 2 ^ 40)

/-- A write of a register window: words wholly covered, in ascending order (R11). -/
def Dev.windowWrite (d : Dev) (ag : Agent) (a : Nat) (bs : List Byte) : Dev :=
  if a % 8 = 0 && bs.length = 8 && wideTrigger a then d.wideWrite ag a (leNat bs)
  else
    let first := ceilDiv a 4 * 4
    let n := (a + bs.length - first) / 4
    (List.range n).foldl (fun (d : Dev) i =>
      let w := first + 4 * i
      d.wordWrite ag w (BitVec.ofNat 32 (leAt bs (w - a) 4))) d

/-- A write touches QMG_POST (R304). -/
def touchesPost (a n : Nat) : Bool := decide (a < qmgBase + 0x100) && decide (qmgBase + 0xC0 < a + n)

/-- A write over the global address map (R15, R18, R304, R466). -/
def Dev.busWrite (d : Dev) (ag : Agent) (a : Nat) (bs : List Byte) : Dev × WResp :=
  let d := d.wakeFor a
  if inWindow a then
    if touchesPost a bs.length then
      if a = qmgBase + 0xC0 && bs.length = 64 then (d.corePost ag bs, .ok)
      else ((d.qmgInt 2).bump (qmgCnt 7), .ok)
    else (d.windowWrite ag a bs, .ok)
  else d.memWrite ag a bs

end Sys2Proof.Machine
end

