-- ==== Sys2Proof/Machine/CetikDecode.lean ====
section
/-!
DEFINITION. Cetik operation words: fields, operations, the registers they name, and when a bundle is illegal (R82 to R84,
R89 to R92, R126 to R131, R134, R139, R154 to R161).
-/
namespace Sys2Proof.Machine

/-- The operations of a Cetik core, one for each row of the opcode table. -/
inductive CoreOp where
  | alu | addi | andi | ori | xori | shi | mul | cmp | plog | mvsp | mvps | movw | nop
  | load | loadPi | store | storePi | ldgw | ldgd | stgw | stgd | aadd
  | br | call | jr | rpt | rptr | take | emit | post | mfc | mtc | reti | trap | fence | fenceI | ien
  | vadd | vadds | vsub | vsubs | vlog | vshl | vshr | vsar | vsarr | vmin | vmax | vabs | vcls | vcmp | vsel
  | vmulq | vcmul | vcmag | vmulw | vdot2 | vdot4 | vcmac | vcmacb | vcmacbj | vacrd
  | vld | vldPi | vst | vstPi | vldg | vstg | vgath | vscat | vacsv | vacld
  | vbcast | vext | vins | vperm | vsplit | vslide | lv
  | crcZero | crcOnes | test | kill | inv | invh | demap | topkLargest | topkSmallest
  deriving DecidableEq, Repr

/-! ### Fields (R82, R84, R126, R154, R161) -/

def opUnit (w : Nat) : Nat := fld w 31 30
def opCode (w : Nat) : Nat := fld w 29 24
def opEnd (w : Nat) : Bool := bit w 23
def opPen (w : Nat) : Bool := bit w 22
def opPreg (w : Nat) : Nat := fld w 21 19
def opD (w : Nat) : Nat := fld w 18 14
def opA (w : Nat) : Nat := fld w 13 9
def opB (w : Nat) : Nat := fld w 8 4
def opSub (w : Nat) : Nat := fld w 3 0
def opImm9 (w : Nat) : Int := toSigned 9 w
def opPD (w : Nat) : Nat := fld w 18 16
def cxPD (w : Nat) : Nat := fld w 16 14
def opCR (w : Nat) : Nat := fld w 7 0

/-- The operations common to S0 and S1 (R89). -/
def commonOp (c : Nat) : Option CoreOp :=
  match c with
  | 0x00 => some .alu | 0x01 => some .addi | 0x02 => some .andi | 0x03 => some .ori | 0x04 => some .xori
  | 0x05 => some .shi | 0x06 => some .mul | 0x07 => some .cmp | 0x08 => some .plog | 0x09 => some .mvsp
  | 0x0A => some .mvps | 0x0B => some .movw | 0x3F => some .nop
  | _ => none

/-- The operations of S0 (R91). -/
def s0Op (c : Nat) : Option CoreOp :=
  match c with
  | 0x30 => some .br | 0x31 => some .call | 0x32 => some .jr | 0x33 => some .rpt | 0x34 => some .rptr
  | 0x35 => some .take | 0x36 => some .emit | 0x37 => some .post | 0x38 => some .mfc | 0x39 => some .mtc
  | 0x3A => some .reti | 0x3B => some .trap | 0x3C => some .fence | 0x3D => some .fenceI | 0x3E => some .ien
  | _ => commonOp c

/-- The operations of S1 (R90). -/
def s1Op (c : Nat) : Option CoreOp :=
  if 0x10 ≤ c ∧ c ≤ 0x15 then some .load
  else if 0x16 ≤ c ∧ c ≤ 0x1B then some .loadPi
  else if 0x1C ≤ c ∧ c ≤ 0x1F then some .store
  else if 0x20 ≤ c ∧ c ≤ 0x23 then some .storePi
  else match c with
    | 0x24 => some .ldgw | 0x25 => some .ldgd | 0x26 => some .stgw | 0x27 => some .stgd | 0x28 => some .aadd
    | _ => commonOp c

/-- The operations of V0 (R128). -/
def v0Op (c : Nat) : Option CoreOp :=
  match c with
  | 0x00 => some .vadd | 0x01 => some .vadds | 0x02 => some .vsub | 0x03 => some .vsubs | 0x04 => some .vlog
  | 0x05 => some .vshl | 0x06 => some .vshr | 0x07 => some .vsar | 0x08 => some .vsarr | 0x09 => some .vmin
  | 0x0A => some .vmax | 0x0B => some .vabs | 0x0C => some .vcls | 0x0D => some .vcmp | 0x0E => some .vsel
  | 0x10 => some .vmulq | 0x11 => some .vcmul | 0x12 => some .vcmag | 0x13 => some .vmulw | 0x14 => some .vdot2
  | 0x15 => some .vdot4 | 0x18 => some .vcmac | 0x19 => some .vcmacb | 0x1A => some .vcmacbj | 0x1B => some .vacrd
  | _ => none

/-- The operations of CX0 to CX3 by FN (R139, R154, R156, R158, R161). -/
def cxOp (n fn : Nat) : Option CoreOp :=
  match n, fn with
  | _, 15 => some .kill
  | 0, 7 => some .test
  | 3, 7 => some .test
  | 0, fn => if fn < 7 then some .crcZero else some .crcOnes
  | 1, 0 => some .inv
  | 1, 1 => some .invh
  | 2, fn => if fn < 6 then some .demap else none
  | 3, 0 => some .topkLargest
  | 3, 1 => some .topkSmallest
  | _, _ => none

/-- The operations of V1 (R130). -/
def v1Op (c fn : Nat) : Option CoreOp :=
  match c with
  | 0x00 => some .vld | 0x01 => some .vldPi | 0x02 => some .vst | 0x03 => some .vstPi | 0x04 => some .vldg
  | 0x05 => some .vstg | 0x06 => some .vgath | 0x07 => some .vscat | 0x08 => some .vacsv | 0x09 => some .vacld
  | 0x10 => some .vbcast | 0x11 => some .vext | 0x12 => some .vins | 0x13 => some .vperm | 0x14 => some .vsplit
  | 0x15 => some .vslide | 0x18 => some .lv
  | 0x30 => cxOp 0 fn | 0x31 => cxOp 1 fn | 0x32 => cxOp 2 fn | 0x33 => cxOp 3 fn
  | _ => none

/-- The operation that a word names; none for a reserved code. -/
def opOf (w : Nat) : Option CoreOp :=
  match opUnit w with
  | 0 => s0Op (opCode w)
  | 1 => s1Op (opCode w)
  | 2 => v0Op (opCode w)
  | _ => v1Op (opCode w) (opSub w)

/-- The attached unit that a CX word names. -/
def cxUnit (w : Nat) : Nat := opCode w % 4

/-! ### Sizes (R90) -/

/-- Log2 of the access size of a scalar local load (codes 0x10 to 0x1B) or store (0x1C to 0x23). -/
def memLog2 (c : Nat) : Nat :=
  if c < 0x1C then
    match (c - 0x10) % 6 with | 0 => 0 | 1 => 0 | 2 => 1 | 3 => 1 | 4 => 2 | _ => 3
  else (c - 0x1C) % 4

/-- Loads that sign-extend: LDB and LDH. -/
def loadSigned (c : Nat) : Bool := (c - 0x10) % 6 = 0 || (c - 0x10) % 6 = 2

/-! ### Registers named (R83, R87) -/

/-- The physical register of a scalar or predicate number in a bank (R80). -/
def sReg (bank : Bool) (n : Nat) : PhysReg := .s (bank && decide (8 ≤ n)) n
def pReg (bank : Bool) (n : Nat) : PhysReg := .p (bank && decide (n < 4)) n

/-- A scalar register pair. -/
def sPair (bank : Bool) (n : Nat) : List PhysReg := [sReg bank n, sReg bank (n + 1)]

/-- Bits per symbol of a demapper function (R158). -/
def demapBits (fn : Nat) : Nat :=
  match fn with
  | 0 => 1 | 1 => 1 | 2 => 2 | 3 => 4 | 4 => 6 | _ => 8

/-- Destination registers of an operation (R83, R89, R90, R130). -/
def opDests (bank : Bool) (w : Nat) : List PhysReg :=
  let s := sReg bank
  let d := opD w
  let dst (pair : Bool) : List PhysReg := if pair then sPair bank d else [s d]
  match opOf w with
  | some .alu | some .addi | some .andi | some .ori | some .xori | some .shi | some .mul => [s d]
  | some .cmp | some .plog | some .mvsp => [pReg bank (opPD w)]
  | some .mvps => sPair bank d
  | some .movw => [s (fld w 22 18)]
  | some .load => dst (memLog2 (opCode w) = 3)
  | some .loadPi => dst (memLog2 (opCode w) = 3) ++ [s (opA w)]
  | some .storePi => [s (opA w)]
  | some .ldgw | some .aadd | some .take | some .mfc => [s d]
  | some .ldgd => sPair bank d
  | some .call => [s 31]
  | some .vadd | some .vadds | some .vsub | some .vsubs | some .vlog | some .vshl | some .vshr | some .vsar | some .vsarr
  | some .vmin | some .vmax | some .vabs | some .vcls | some .vsel | some .vmulq | some .vcmul | some .vcmag
  | some .vmulw | some .vdot2 | some .vdot4 | some .vacrd => [.v d]
  | some .vcmp => [pReg bank (opPD w)]
  | some .vcmac | some .vcmacb | some .vcmacbj | some .vacld => [.a (opPD w)]
  | some .vld | some .vldg | some .vgath | some .vbcast | some .vins | some .vperm | some .vsplit | some .vslide => [.v d]
  | some .vldPi => [.v d, s (opA w)]
  | some .vstPi => [s (opA w)]
  | some .vext => [s d]
  | some .lv => if opSub w = 6 then [.a (fld w 16 14)] else []
  | some .crcZero | some .crcOnes | some .test | some .topkLargest | some .topkSmallest => [pReg bank (cxPD w)]
  | some .inv | some .invh => [.v d, s (opB w)]
  | some .demap => if 6 ≤ demapBits (opSub w) then [.v d, .v (d + 1)] else [.v d]
  | _ => []

/-- Registers an operation reads, its predicate register included. -/
def opSrcs (bank : Bool) (w : Nat) : List PhysReg :=
  let s := sReg bank
  let a := opA w
  let b := opB w
  let pred := if opPen w && decide (opOf w ≠ some .movw) then [pReg bank (opPreg w)] else []
  pred ++ match opOf w with
  | some .alu => if opSub w = 12 ∨ opSub w = 13 then [s a] else [s a, s b]
  | some .addi | some .andi | some .ori | some .xori | some .shi => [s a]
  | some .mul | some .cmp => [s a, s b]
  | some .plog => if opSub w = 4 then [pReg bank (fld w 13 11)] else [pReg bank (fld w 13 11), pReg bank (fld w 8 6)]
  | some .mvsp => sPair bank a
  | some .mvps => [pReg bank (fld w 13 11)]
  | some .movw => if bit w 17 then [s (fld w 22 18)] else []
  | some .load | some .loadPi => [s a]
  | some .store | some .storePi => [s a] ++ (if memLog2 (opCode w) = 3 then sPair bank (opD w) else [s (opD w)])
  | some .ldgw | some .ldgd => sPair bank a
  | some .stgw | some .aadd => sPair bank a ++ [s (opD w)]
  | some .stgd => sPair bank a ++ sPair bank (opD w)
  | some .jr | some .rptr | some .take | some .mtc => [s a]
  | some .emit => sPair bank a
  | some .post => sPair bank a ++ sPair bank b
  | some .vadd | some .vadds | some .vsub | some .vsubs | some .vlog | some .vmin | some .vmax | some .vcmp | some .vsel
  | some .vmulq | some .vcmul | some .vmulw | some .vperm | some .vsplit | some .vslide => [.v a, .v b]
  | some .vshl | some .vshr | some .vsar | some .vsarr | some .vabs | some .vcls | some .vcmag | some .vext => [.v a]
  | some .vdot2 | some .vdot4 => [.v a, .v b] ++ (if opSub w = 1 then [.v (opD w)] else [])
  | some .vcmac => if opSub w = 6 then [] else [.v a, .v b, .a (opPD w)]
  | some .vcmacb | some .vcmacbj => [.v a, .v b, .a (opPD w)]
  | some .vacrd => [.a (fld w 13 11)]
  | some .vld | some .vldPi | some .vacld => [s a]
  | some .vst | some .vstPi => [s a, .v (opD w)]
  | some .vldg => sPair bank a
  | some .vstg => sPair bank a ++ [.v (opD w)]
  | some .vgath => [s a, .v b]
  | some .vscat => [s a, .v b, .v (opD w)]
  | some .vacsv => [s a, .a (opPD w)]
  | some .vbcast => if opSub w = 3 then sPair bank a else [s a]
  | some .vins => [s a, .v (opD w)]
  | some .lv => [s a] ++ (if opSub w = 0 then [] else [s b]) ++ (if opSub w = 6 then [] else [s (opD w)])
  | some .crcZero | some .crcOnes | some .topkLargest | some .topkSmallest => [s a] ++ sPair bank b
  | some .inv | some .invh => [.v a]
  | some .demap => [.v a, .v b]
  | _ => []

/-! ### Legality (R83, R84, R126, R127, R139) -/

/-- An operation's operand fields hold nothing reserved, and its pairs are even. -/
def fieldsOk (w : Nat) : Bool :=
  let a := opA w
  let b := opB w
  let sub := opSub w
  let even (n : Nat) : Bool := n % 2 = 0
  let low (hi : Nat) : Bool := fld w hi 0 = 0
  match opOf w with
  | none => false
  | some .alu => decide (sub < 14) && (decide (sub < 12) || b = 0)
  | some .addi | some .andi | some .ori | some .xori => true
  | some .shi => fld w 8 7 = 0 && decide (fld w 6 5 ≠ 3)
  | some .mul => decide (sub < 3)
  | some .cmp => fld w 15 14 = 0 && decide (sub < 6)
  | some .plog =>
    fld w 15 14 = 0 && fld w 10 9 = 0 && fld w 5 4 = 0 && decide (sub < 5) && (decide (sub ≠ 4) || fld w 8 6 = 0)
  | some .mvsp => fld w 15 14 = 0 && low 8 && even a
  | some .mvps => even (opD w) && low 10
  | some .movw => fld w 16 16 = 0
  | some .nop => low 22
  | some .load | some .store => memLog2 (opCode w) < 3 || even (opD w)
  | some .loadPi => (memLog2 (opCode w) < 3 || even (opD w)) && decide (opD w ≠ a)
  | some .storePi => memLog2 (opCode w) < 3 || even (opD w)
  | some .ldgw | some .stgw => even a
  | some .ldgd | some .stgd => even a && even (opD w)
  | some .aadd => even a && low 8
  | some .br | some .call => true
  | some .jr | some .rptr => opD w = 0 && low 8
  | some .rpt => fld w 18 12 = 0
  | some .take => low 8
  | some .emit => opD w = 0 && even a && fld w 8 2 = 0
  | some .post => opD w = 0 && even a && even b && sub = 0
  | some .mfc => a = 0 && fld w 8 8 = 0
  | some .mtc => opD w = 0 && fld w 8 8 = 0
  | some .trap => opD w = 0 && a = 0 && fld w 8 8 = 0
  | some .reti | some .fence | some .fenceI => low 18
  | some .ien => fld w 18 1 = 0
  | some .vadd | some .vadds | some .vsub | some .vsubs | some .vshl | some .vshr | some .vsar | some .vsarr => decide (sub < 5)
  | some .vlog => decide (sub < 4)
  | some .vmin | some .vmax | some .vcmp => decide (sub < 3)
  | some .vabs => decide (sub < 3) && b = 0
  | some .vcls => (sub = 1 || sub = 2) && b = 0
  | some .vsel => decide (sub < 3) && opPen w
  | some .vmulq => sub = 1
  | some .vcmul | some .vmulw | some .vdot2 | some .vdot4 => decide (sub < 2)
  | some .vcmag => sub = 0 && b = 0
  | some .vcmac => fld w 15 14 = 0 && decide (sub < 7) && (decide (sub ≠ 6) || (a = 0 && b = 0))
  | some .vcmacb | some .vcmacbj => fld w 15 14 = 0
  | some .vacrd => fld w 10 10 = 0 && fld w 4 4 = 0 && decide (sub < 3)
  | some .vld | some .vldPi | some .vst | some .vstPi => true
  | some .vldg | some .vstg => even a
  | some .vgath | some .vscat => decide (sub < 2)
  | some .vacsv | some .vacld => fld w 15 14 = 0 && !opPen w
  | some .vbcast => b = 0 && decide (sub < 4) && (decide (sub ≠ 3) || even a)
  | some .vext | some .vins => b = 0
  | some .vperm => sub = 0
  | some .vsplit => decide (sub < 3)
  | some .vslide => true
  | some .lv =>
    !opPen w && decide (sub < 7) && (decide (sub ≠ 0) || b = 0) && (decide (sub ≠ 6) || fld w 18 17 = 0)
  | some .crcZero | some .crcOnes | some .topkLargest | some .topkSmallest => fld w 18 17 = 0 && even b
  | some .test => fld w 18 17 = 0 && a = 0 && b = 0
  | some .kill => opD w = 0 && a = 0 && b = 0
  | some .inv | some .invh => true
  | some .demap => demapBits sub < 6 || even (opD w)

/-- Operations that must be alone in their bundle (R92, R134). -/
def aloneOp (w : Nat) : Bool :=
  match opOf w with
  | some .take | some .reti | some .rpt | some .rptr | some .fenceI | some .lv => true
  | _ => false

/-- The first offending operation's UNIT, given what comes before it: its UNIT does not rise, its fields are wrong, it
names a destination already named, or it may not share the bundle (R83). -/
def badOpGo (n : Nat) : List Nat → List Nat → Option Nat
  | _, [] => none
  | before, w :: ws =>
    let named := before.flatMap (opDests false)
    let bad := (match before.getLast? with | some p => decide (opUnit w ≤ opUnit p) | none => false)
      || !fieldsOk w || (aloneOp w && decide (1 < n)) || (opDests false w).any (fun r => named.contains r)
    if bad then some (opUnit w) else badOpGo n (before ++ [w]) ws

/-- The unit that makes a bundle at an address illegal, if any; a bundle that would extend past 0xFFFF offends with its
last operation. -/
def badOp (pc : Nat) (ws : List Nat) : Option Nat :=
  match badOpGo ws.length [] ws with
  | some u => some u
  | none =>
    match ws.getLast? with
    | some w => if !opEnd w && decide (0xFFFF < pc + 4 * ws.length) then some (opUnit w) else none
    | none => none

/-- A bundle that RPT may not repeat (R108): the UNIT of the first operation that it forbids. -/
def noRepeat (ws : List Nat) : Option Nat :=
  (ws.find? (fun w =>
    match opOf w with
    | some .br | some .call | some .jr | some .rpt | some .rptr | some .take | some .emit | some .post | some .mfc
    | some .mtc | some .reti | some .trap | some .fence | some .fenceI | some .ien
    | some .ldgw | some .ldgd | some .stgw | some .stgd | some .aadd | some .vldg | some .vstg | some .lv
    | some .crcZero | some .crcOnes | some .test | some .kill | some .inv | some .invh | some .demap
    | some .topkLargest | some .topkSmallest => true
    | none => decide (opUnit w = 3 ∧ 0x30 ≤ opCode w ∧ opCode w ≤ 0x33)
    | _ => false)).map opUnit

end Sys2Proof.Machine
end

