-- ==== Sys2Proof/Machine/CetikBase.lean ====
section
/-!
DEFINITION. A Cetik core's registers, exposed results, control registers, shadow switch and exceptions (R80, R81, R85 to R88,
R96, R99 to R104, R110 to R117, R121, R146, R162, R163).
-/
namespace Sys2Proof.Machine

/-! ### Registers (R80) -/

/-- CTK_STATUS.BANK. -/
def Core.bank (k : Core) : Bool := (Tab.get ctlReset k.ctl 0x4).getLsbD 1

/-- A stored control register, and its replacement. -/
def Core.cr (k : Core) (o : Nat) : BitVec 32 := Tab.get ctlReset k.ctl o
def Core.setCr (k : Core) (o : Nat) (v : BitVec 32) : Core := { k with ctl := Tab.put ctlReset k.ctl o v }
def Core.setCrN (k : Core) (o v : Nat) : Core := k.setCr o (BitVec.ofNat 32 v)

/-- Scalar, predicate, vector and accumulator registers as the current bank reads them. -/
def Core.s (k : Core) (n : Nat) : BitVec 32 :=
  Tab.get (fun _ => 0) k.sregs (if k.bank && decide (8 ≤ n) then 32 + n else n)
def Core.p (k : Core) (n : Nat) : BitVec 64 :=
  Tab.get (fun _ => 0) k.pregs (if k.bank && decide (n < 4) then 8 + n else n)
def Core.v (k : Core) (n : Nat) : BitVec 512 := Tab.get (fun _ => 0) k.vregs n
def Core.a (k : Core) (n : Nat) : BitVec 1536 := Tab.get (fun _ => 0) k.aregs n

/-- A scalar as a number, and a pair. -/
def Core.sN (k : Core) (n : Nat) : Nat := (k.s n).toNat
def Core.pair (k : Core) (n : Nat) : Nat := k.sN n + 2 ^ 32 * k.sN (n + 1)

/-- Writes of a scalar, a pair and a whole predicate in the current bank. -/
def Core.wrS (k : Core) (n v : Nat) : RegWr := .s (k.bank && decide (8 ≤ n)) n (BitVec.ofNat 32 v)
def Core.wrPair (k : Core) (n v : Nat) : List RegWr := [k.wrS n v, k.wrS (n + 1) (v >>> 32)]
def Core.wrP (k : Core) (n : Nat) (v : BitVec 64) : RegWr := .p (k.bank && decide (n < 4)) n (BitVec.allOnes 64) v

/-- Bit 0 of PREG lets a scalar, control or whole operation execute (R82). -/
def Core.enabled (k : Core) (w : Nat) : Bool := !opPen w || decide (opOf w = some .movw) || (k.p (opPreg w)).getLsbD 0

/-- Lane `i` is enabled (R127). -/
def Core.lane (k : Core) (w i : Nat) : Bool := !opPen w || (k.p (opPreg w)).getLsbD i

/-! ### Exposed results (R85, R86) -/

/-- A result lands: a register, flags, or a long-vector group's memory. -/
def Dev.landOne (d : Dev) (c : Nat) (f : InFlight) : Dev :=
  match f.wr with
  | .mem a bs => (d.memWrite (.core c) a bs).1
  | w => d.setCore c ((d.core c).writeReg w)

/-- Results that meet a test land in the order in which they were issued, and leave. -/
def Dev.landWhere (d : Dev) (c : Nat) (p : InFlight → Bool) : Dev :=
  let l := (d.core c).inflight
  let d := d.setCore c { d.core c with inflight := l.filter (fun f => !p f) }
  (l.filter p).foldl (fun (d : Dev) f => d.landOne c f) d

/-- Results whose latency has ended land; of two to one register the later-issued one stands (R86). -/
def Dev.land (d : Dev) (c : Nat) : Dev := d.landWhere c (fun f => decide (f.due = 0))

/-- Every result that meets a test lands, by due cycle and then by issue. -/
def Dev.landAll (d : Dev) (c : Nat) (p : InFlight → Bool) : Dev :=
  (List.range 7).foldl (fun (d : Dev) n => d.landWhere c (fun f => p f && decide (f.due = n))) d

/-- Core clock cycles in which no bundle issues (R88, R131, R135). -/
def Dev.idleCycles (d : Dev) (c n : Nat) : Dev :=
  let k := d.core c
  d.setCore c { k with cycle := (k.cycle + n) % 2 ^ 64 }

/-- The end of a bundle cycle: exposed results advance (R85). -/
def Dev.tick (d : Dev) (c : Nat) : Dev :=
  let d := d.land c
  let k := d.core c
  d.setCore c { k with
    cycle := (k.cycle + 1) % 2 ^ 64, inflight := k.inflight.map (fun f => { f with due := f.due - 1 }) }

/-- A result of latency `lat` is issued. -/
def Dev.expose (d : Dev) (c lat : Nat) (wr : RegWr) (acc lv : Bool) : Dev :=
  let k := d.core c
  d.setCore c { k with inflight := k.inflight ++ [{ due := lat, wr := wr, acc := acc, lv := lv, fg := !k.bank }] }

/-! ### Control registers (R100, R115, R116, R121, R162, R163) -/

/-- Operations of a core outstanding on a Level-1 unit. -/
def Core.cxOuts (k : Core) (u : Nat) : Nat := (k.outst.filter (fun o => o.cx && o.unit = u)).length

/-- The core's job is in progress on its cluster's CRC or sort unit. -/
def Dev.crcBusy (d : Dev) (c : Nat) : Bool :=
  match (d.attached (c / 8)).crc with | some j => j.core = c | none => false
def Dev.sortBusy (d : Dev) (c : Nat) : Bool :=
  match (d.attached (c / 8)).sort with | some j => j.core = c | none => false

/-- Pending interrupt lines (R100, R146). -/
def Dev.ipend (d : Dev) (c : Nat) : Nat :=
  let k := d.core c
  let on (st b : Nat) : Bool := (k.cr st).getLsbD 0 && (k.cr 0x108).getLsbD b
  (k.cr 0x34).toNat % 16 / 8 * 8 + (k.cr 0x34).toNat % 2 + 2 * b2n (decide (d.coreDb c ≠ 0))
    + 4 * b2n (on 0x100 0 || on 0x104 1)

/-- CTK_STATUS as it reads (R116). -/
def Core.status (k : Core) : Nat :=
  (k.cr 0x4).toNat % 4 + 4 * b2n k.held.isSome + 8 * b2n k.impPend.isSome

/-- CXU_PEND (R163). -/
def Dev.cxPend (d : Dev) (c : Nat) : Nat :=
  let k := d.core c
  k.cxOuts 1 + 4 * k.cxOuts 2 + 16 * b2n (d.crcBusy c) + 32 * b2n (d.sortBusy c)

/-- Offsets that hold a control register. -/
def isCr (o : Nat) : Bool :=
  (decide (o ≤ 0x38) && o % 4 = 0) || (decide (0x40 ≤ o ∧ o ≤ 0x54) && o % 4 = 0)
    || (decide (0x60 ≤ o ∧ o ≤ 0x84) && o % 4 = 0) || o = 0x90 || o = 0x94 || o = 0x98
    || (decide (0x100 ≤ o ∧ o ≤ 0x118) && o % 4 = 0)

/-- A control register as MFC reads it; an offset that holds none reads 0 (R10). -/
def Dev.mfc (d : Dev) (c o : Nat) : Nat :=
  let k := d.core c
  if !isCr o then 0
  else match o with
    | 0x0 => c + 256 * (c / 8)
    | 0x4 => k.status
    | 0x34 => d.ipend c
    | 0x40 => k.cycle % 2 ^ 32
    | 0x44 => k.cycleHi.toNat
    | 0x48 => d.now % 2 ^ 32
    | 0x4C => k.dtimeHi.toNat
    | 0x10C => d.cxPend c
    | _ => (k.cr o).toNat

/-- The reads of CTK_CYCLE_LO and CTK_DTIME_LO latch the upper halves (R115). -/
def Dev.mfcLatch (d : Dev) (c o : Nat) : Dev :=
  let k := d.core c
  if o = 0x40 then d.setCore c { k with cycleHi := BitVec.ofNat 32 (k.cycle >>> 32) }
  else if o = 0x48 then d.setCore c { k with dtimeHi := BitVec.ofNat 32 (d.now >>> 32) }
  else d

/-- A count of at most 4,096: a larger one leaves a free value (assumption log 27). -/
def Dev.countOrFree (d : Dev) (v : Nat) : Dev × Nat :=
  if v % 8192 ≤ 4096 then (d, v % 8192) else (d.used, d.freeBelow 4097)

/-- An MTC to a locked register raises ACCESS (R99). -/
def Core.mtcLocked (k : Core) (o : Nat) : Bool :=
  (k.cr 0x8).getLsbD 0 && (o = 0x8 || (decide (0x60 ≤ o ∧ o < 0x80) && o % 4 = 0))

/-- A write of a control register by MTC (R99, R115, R116, R121, R163). -/
def Dev.mtc (d : Dev) (c o v : Nat) : Dev :=
  let k := d.core c
  let put (m : Nat) : Dev := d.setCore c (k.setCrN o (v &&& m))
  if !isCr o then d
  else match o with
    | 0x4 => d.setCore c (k.setCrN 0x4 ((k.cr 0x4).toNat % 4 / 2 * 2 + v % 2))
    | 0x8 => d.setCore c (k.setCrN 0x8 ((k.cr 0x8).toNat ||| v % 2))
    | 0xC | 0x10 | 0x14 => put 0xFFFC
    | 0x18 => put 0xF
    | 0x2C => put 0xFFF
    | 0x30 | 0x98 =>
      let (d, n) := d.countOrFree v
      d.setCore c ((d.core c).setCrN o n)
    | 0x34 => d.setCore c (k.setCrN 0x34 ((k.cr 0x34).toNat &&& (0xF ^^^ (v % 16))))
    | 0x38 => put 0xF
    | 0x50 => put 0xFFFFFFFF
    | 0x54 => d.setCore c { k.setCrN 0x54 v with tcmpArmed := true }
    | 0x90 => if v % 4 = 3 then d else put 3
    | 0x94 => d.setCore c (k.setCrN 0x94 ((k.cr 0x94).toNat &&& (3 ^^^ (v % 4))))
    | 0x100 | 0x104 => d.setCore c (k.setCrN o ((k.cr o).toNat - (if v % 2 = 1 then (k.cr o).toNat % 2 else 0)))
    | 0x108 => put 3
    | _ => if 0x60 ≤ o ∧ o < 0x80 then put 0xFFFFFFFF else d

/-! ### Protection windows (R96, R97, R117) -/

/-- A window covers an address and grants the access. -/
def winGrants (win a : Nat) (rd wr : Bool) : Bool :=
  let size := fld win 28 24
  let base := fld win 23 0 * 65536
  bit win 31 && decide (size ≤ 23) && decide (base % 2 ^ (16 + size) = 0)
    && decide (base ≤ a) && decide (a < base + 2 ^ (16 + size))
    && (!rd || bit win 29) && (!wr || bit win 30)

/-- A global access by the core at an address of at most 40 bits is permitted (R96). -/
def Core.permits (k : Core) (a : Nat) (rd wr : Bool) : Bool :=
  decide (a < 0x40000) || (decide (a < 0x50000) && !wr)
    || (List.range 8).any (fun i => winGrants (k.cr (0x60 + 4 * i)).toNat a rd wr)

/-- An address lies in cluster memory or Pool (R15, R16, R97). -/
def atomicPlace (a : Nat) : Bool :=
  (decide (0x100000000 ≤ a ∧ a < 0x118000000) && decide (a % 0x1000000 < 0x400000))
    || decide (poolBase ≤ a ∧ a < poolBase + 0x8000000)

/-! ### The shadow switch (R103, R104, R110 to R114) -/

/-- A precise exception: cause, address and INFO of R112; where RETI returns, and the bundle it is raised for. -/
structure Exc where
  cause : Nat
  addr  : Nat := 0
  info  : Nat := 0
  deriving DecidableEq, Repr

/-- Steps 1 and 3 of the shadow switch at a bundle boundary, with the vector's control register. -/
def Dev.shadowSwitch (d : Dev) (c ret left vec : Nat) : Dev :=
  let d := d.land c
  let k := d.core c
  let k := (((k.setCrN 0x14 ret).setCrN 0x18 k.status).setCrN 0x2C k.vri.toNat).setCrN 0x30 left
  let k := k.setCrN 0x4 2
  (d.setCore c { k with
    vri := 0, pc := (k.cr vec).setWidth 16, bundle := [], rptNext := none, lv := false }).tick c

/-- The exception record (R112, R116). -/
def Core.record (k : Core) (e : Exc) (imprecise inRpt multi : Bool) (eopc : Nat) : Core :=
  (((k.setCrN 0x1C (e.cause + 256 * b2n imprecise + 512 * b2n inRpt + 1024 * b2n multi + 65536 * (e.info % 4096))).setCrN
    0x20 e.addr).setCrN 0x24 (e.addr >>> 32 % 256)).setCrN 0x28 eopc

/-- A squashed operation is counted (R150). -/
def Dev.squashCount (d : Dev) (c n : Nat) : Dev := if n = 0 then d else d.coreCount c 3 n

/-- Operations of a core on a Level-1 unit are squashed (R150). -/
def Dev.squashL1 (d : Dev) (c u : Nat) : Dev :=
  let k := d.core c
  let n := k.cxOuts u
  (d.setCore c { k with outst := k.outst.filter (fun o => !(o.cx && o.unit = u)) }).squashCount c n

/-- The status register of a Level-0 job's unit. -/
def cxStatus (u : Nat) : Nat := if u = 0 then 0x100 else 0x104

/-- A core's Level-0 job is squashed: in its final phase or not is a free choice, and a late squash lets the job run to its
end (R151, R152, assumption log 28). -/
def Dev.squashL0 (d : Dev) (c u : Nat) : Dev :=
  let g := d.attached (c / 8)
  let busy := if u = 0 then d.crcBusy c else d.sortBusy c
  if !busy then d
  else if d.freeBelow 2 = 1 then
    if u = 0 then d.used.setAttached (c / 8) { g with crc := g.crc.map (fun j => { j with late := true }) }
    else d.used.setAttached (c / 8) { g with sort := g.sort.map (fun j => { j with late := true }) }
  else
    let d := d.used.setAttached (c / 8) (if u = 0 then { g with crc := none } else { g with sort := none })
    (d.setCore c ((d.core c).setCrN (cxStatus u) 5)).squashCount c 1

/-- KILL on unit `u` of CXn (R149). -/
def Dev.killUnit (d : Dev) (c u : Nat) : Dev := if u = 0 ∨ u = 3 then d.squashL0 c u else d.squashL1 c u

/-- Every operation of the core on every unit is squashed (R149). -/
def Dev.killAll (d : Dev) (c : Nat) : Dev := (List.range 4).foldl (fun (d : Dev) u => d.killUnit c u) d

/-- A double fault (R113): the core stops, its attached-unit work is squashed and its node fails with 0xFE. -/
def Dev.doubleFault (d : Dev) (c : Nat) (e : Exc) (imprecise inRpt : Bool) (eopc : Nat) : Dev :=
  let d := d.land c
  let k := (d.core c).record { e with cause := 0x0F, info := e.cause } imprecise inRpt false eopc
  let d := d.setCore c { k with stopped := true, bundle := [], rptNext := none, lv := false }
  let d := d.killAll c
  let d := d.setCore c { d.core c with held := (d.core c).held.map (fun h => { h with excess := false }) }
  let d := d.completeHeld c 0xFE
  let m := d.member c
  let d := d.setMember c { pool := none, pending := none }
  let d := match m.pool with | some p => d.emptyReady p | none => d
  d.fault 0x01 1 0 c (e.cause + 256 * (k.cr 0x14).toNat)

/-- An exception is taken at a boundary: the shadow switch and the record (R103), or a double fault. -/
def Dev.takeExc (d : Dev) (c : Nat) (e : Exc) (ret left : Nat) (imprecise inRpt multi : Bool) (eopc : Nat) : Dev :=
  if (d.core c).bank then d.doubleFault c e imprecise inRpt eopc
  else
    let d := d.setCore c ((d.core c).record e imprecise inRpt multi eopc)
    let d := d.coreCount c 0 1
    let d := d.shadowSwitch c ret left 0x10
    d.trace 6 c (e.cause + 256 * ret)

/-- A recorded imprecise exception is taken when a switch is allowed: in the foreground, outside an RPT sequence (R109,
R111). The return address is the next bundle's, or the TAKE's when the core is blocked in TAKE (assumption log 29). -/
def Dev.takeImprecise (d : Dev) (c : Nat) : Dev :=
  let k := d.core c
  match k.impPend with
  | none => d
  | some e =>
    let running := match k.rptNext with | some (_, some _) => true | _ => false
    if k.bank || running || k.stopped then d
    else
      let ret := if k.take.isSome then (k.pc - 4).toNat else k.pc.toNat
      let left := match k.rptNext with | some (n, _) => n | none => 0
      let d := d.setCore c { k with impPend := none, impMulti := false, take := none }
      d.takeExc c { cause := e.cause, addr := e.addr, info := e.info } ret left true false k.impMulti e.eopc

/-- An error response arrives (R111, R113): one of the handler's own operations in the handler is a double fault. -/
def Dev.impArrive (d : Dev) (c : Nat) (e : ImpErr) : Dev :=
  let k := d.core c
  if e.bank && k.bank then d.doubleFault c { cause := e.cause, addr := e.addr, info := e.info } true false e.eopc
  else if k.impPend.isSome then d.setCore c { k with impMulti := true }
  else (d.setCore c { k with impPend := some e }).takeImprecise c

/-- An enabled interrupt is pending: the lowest line (R100). -/
def Dev.dueLine (d : Dev) (c : Nat) : Option Nat :=
  let m := d.ipend c &&& ((d.core c).cr 0x38).toNat
  (List.range 4).find? (fun i => bit m i)

/-- The conditions of R101 at a bundle boundary. -/
def Core.mayAccept (k : Core) : Bool :=
  (k.cr 0x4).getLsbD 0 && !k.bank && k.impPend.isNone && !k.stopped
    && (match k.rptNext with | some (_, some _) => false | _ => true)

/-- An interrupt is accepted (R59, R101, R103): a gated core wakes, and a TAKE is abandoned. -/
def Dev.acceptLine (d : Dev) (c line : Nat) : Dev :=
  let d := (d.undoze (pwrCluster (c / 8))).setPower (pwrCore c) .active
  let k := d.core c
  let ret := if k.take.isSome then (k.pc - 4).toNat else k.pc.toNat
  let left := match k.rptNext with | some (n, _) => n | none => 0
  let d := d.setCore c { k with take := none }
  let d := d.coreCount c 1 1
  let d := d.shadowSwitch c ret left 0xC
  d.trace 6 c (0x80 + line + 256 * ret)

/-! ### Core reset (R81, R149, R151) and latched lines (R100) -/

/-- Reset of one core: its attached-unit work is squashed, and a job in its final phase still writes its result. -/
def Dev.coreReset (d : Dev) (c : Nat) : Dev :=
  let d := d.killAll c
  let g := d.attached (c / 8)
  let d := d.setAttached (c / 8) {
    crc := g.crc.map (fun j => if j.core = c then { j with gone := true } else j)
    sort := g.sort.map (fun j => if j.core = c then { j with gone := true } else j) }
  d.resetCore c

/-- The TIMER line is latched once the device time has reached CTK_TCMP (R100). -/
def Dev.timerLine (d : Dev) (c : Nat) : Dev :=
  let k := d.core c
  let t := (k.cr 0x50).toNat + 2 ^ 32 * (k.cr 0x54).toNat
  if k.tcmpArmed && decide (t ≤ d.now) then
    d.setCore c { k.setCrN 0x34 ((k.cr 0x34).toNat ||| 1) with tcmpArmed := false }
  else d

/-- A request from Supervisor firmware latches the SUPERVISOR line (R100). -/
def Dev.supervisorLine (d : Dev) (c : Nat) : Dev :=
  let k := d.core c
  d.setCore c (k.setCrN 0x34 ((k.cr 0x34).toNat ||| 8))

end Sys2Proof.Machine
end

