-- ==== Sys2Proof/Machine/CetikScalar.lean ====
section
/-!
DEFINITION. Scalar, predicate, scalar memory and control operations of a Cetik core (R58, R89 to R97, R107).
-/
namespace Sys2Proof.Machine

/-- What an operation does at the end of its issue: every operation of a bundle reads before any of them writes. -/
abbrev Later := Dev → Dev

/-- Results of one latency are exposed. -/
def exposeAll (c lat : Nat) (wrs : List RegWr) : Later :=
  fun d => wrs.foldl (fun (d : Dev) wr => d.expose c lat wr false false) d

/-- An error response is on its way to the core. -/
def Dev.pushErr (d : Dev) (c : Nat) (e : ImpErr) : Dev :=
  let k := d.core c
  d.setCore c { k with errs := k.errs ++ [e] }

/-- A scoreboarded operation is outstanding. -/
def Dev.pushOutst (d : Dev) (c : Nat) (o : Outst) : Dev :=
  let k := d.core c
  d.setCore c { k with outst := k.outst ++ [o] }

/-- The imprecise error of a response to an access at `a` by the bundle at `pc` (R112, R347, R348). -/
def respErr (k : Core) (pc a : Nat) (store : Bool) (poison : Option Nat) : ImpErr :=
  match poison with
  | some l => ⟨0x09, l, 0, pc, k.bank, store⟩
  | none => ⟨0x08, a, 0, pc, k.bank, store⟩

/-! ### Arithmetic (R89) -/

/-- ALU by SUB. -/
def aluOp (sub : Nat) (a b : BitVec 32) : BitVec 32 :=
  let n := b.toNat % 32
  match sub with
  | 0 => a + b
  | 1 => a - b
  | 2 => a &&& b
  | 3 => a ||| b
  | 4 => a ^^^ b
  | 5 => a <<< n
  | 6 => a >>> n
  | 7 => a.sshiftRight n
  | 8 => if a.toInt ≤ b.toInt then a else b
  | 9 => if a.toInt ≤ b.toInt then b else a
  | 10 => if a.toNat ≤ b.toNat then a else b
  | 11 => if a.toNat ≤ b.toNat then b else a
  | 12 => BitVec.ofNat 32 (if a = 0 then 32 else 31 - a.toNat.log2)
  | _ => BitVec.ofNat 32 (popcount 32 a.toNat)

/-- Shift by an immediate: IMM9[6:5] selects SHL, SHR or SAR. -/
def shiOp (imm : Nat) (a : BitVec 32) : BitVec 32 :=
  let n := imm % 32
  match fld imm 6 5 with
  | 0 => a <<< n
  | 1 => a >>> n
  | _ => a.sshiftRight n

/-- MUL, MULH and MULHU. -/
def mulOp (sub : Nat) (a b : BitVec 32) : BitVec 32 :=
  match sub with
  | 0 => a * b
  | 1 => BitVec.ofInt 32 (a.toInt * b.toInt / 2 ^ 32)
  | _ => BitVec.ofNat 32 (a.toNat * b.toNat / 2 ^ 32)

/-- The outcome of CMP by COND. -/
def cmpOp (cond : Nat) (a b : BitVec 32) : Bool :=
  match cond with
  | 0 => a = b
  | 1 => decide (a ≠ b)
  | 2 => decide (a.toInt < b.toInt)
  | 3 => decide (b.toInt ≤ a.toInt)
  | 4 => decide (a.toNat < b.toNat)
  | _ => decide (b.toNat ≤ a.toNat)

/-- All 64 bits of a predicate. -/
def allBits (b : Bool) : BitVec 64 := if b then BitVec.allOnes 64 else 0

/-- PLOG by SUB. -/
def plogOp (sub : Nat) (a b : BitVec 64) : BitVec 64 :=
  match sub with
  | 0 => a &&& b
  | 1 => a ||| b
  | 2 => a ^^^ b
  | 3 => a &&& ~~~b
  | _ => ~~~a

/-- The latency and the writes of an operation common to S0 and S1. -/
def commonRun (k : Core) (w : Nat) : Nat × List RegWr :=
  let a := k.s (opA w)
  let b := k.s (opB w)
  let imm := BitVec.ofInt 32 (opImm9 w)
  let zimm := BitVec.ofNat 32 (fld w 8 0)
  let d (v : BitVec 32) : Nat × List RegWr := (1, [k.wrS (opD w) v.toNat])
  match opOf w with
  | some .alu => d (aluOp (opSub w) a b)
  | some .addi => d (a + imm)
  | some .andi => d (a &&& imm)
  | some .ori => d (a ||| zimm)
  | some .xori => d (a ^^^ zimm)
  | some .shi => d (shiOp (fld w 8 0) a)
  | some .mul => (2, [k.wrS (opD w) (mulOp (opSub w) a b).toNat])
  | some .cmp => (1, [k.wrP (opPD w) (allBits (cmpOp (opSub w) a b))])
  | some .plog => (1, [k.wrP (opPD w) (plogOp (opSub w) (k.p (fld w 13 11)) (k.p (fld w 8 6)))])
  | some .mvsp => (1, [k.wrP (opPD w) (BitVec.ofNat 64 (k.pair (opA w)))])
  | some .mvps => (1, k.wrPair (opD w) (k.p (fld w 13 11)).toNat)
  | some .movw =>
    let n := fld w 22 18
    (1, [k.wrS n (if bit w 17 then 65536 * fld w 15 0 + k.sN n % 65536 else fld w 15 0)])
  | _ => (1, [])

/-! ### Scalar memory operations (R90, R94 to R97) -/

/-- Log2 of the size of a scalar access. -/
def scalarLog2 (w : Nat) : Nat :=
  match opOf w with
  | some .ldgw | some .stgw | some .aadd => 2
  | some .ldgd | some .stgd => 3
  | _ => memLog2 (opCode w)

/-- A scalar global operation. -/
def scalarGlobal (w : Nat) : Bool :=
  match opOf w with
  | some .ldgw | some .ldgd | some .stgw | some .stgd | some .aadd => true
  | _ => false

/-- The address of a scalar access: a global one adds the scaled offset to the pair (assumption log 30). -/
def scalarAddr (k : Core) (w : Nat) : Nat :=
  let off := opImm9 w * (2 ^ scalarLog2 w : Nat)
  match opOf w with
  | some .loadPi | some .storePi => k.sN (opA w)
  | _ => if scalarGlobal w then ofSigned 64 (k.pair (opA w) + off) else ofSigned 32 (k.sN (opA w) + off)

/-- ALIGN and ACCESS of a scalar access, alignment first. -/
def scalarExc (k : Core) (w : Nat) : Option Exc :=
  let a := scalarAddr k w
  let size := 2 ^ scalarLog2 w
  let ea := a % 2 ^ 40
  if a % size ≠ 0 then some { cause := 2, addr := ea }
  else if scalarGlobal w then
    let wr := decide (opOf w = some .stgw ∨ opOf w = some .stgd ∨ opOf w = some .aadd)
    let rd := decide (opOf w ≠ some .stgw ∧ opOf w ≠ some .stgd)
    if 2 ^ 40 ≤ a || !k.permits a rd wr || (decide (opOf w = some .aadd) && !atomicPlace a) then
      some { cause := 3, addr := ea }
    else none
  else if 0x40000 < a + size then some { cause := 3, addr := ea }
  else none

/-- The register writes of a scalar load of given bytes. -/
def loadWrites (k : Core) (w : Nat) (bs : List Byte) : List RegWr :=
  let c := opCode w
  let v := leNat bs
  match scalarLog2 w with
  | 3 => k.wrPair (opD w) v
  | 2 => [k.wrS (opD w) v]
  | 1 => [k.wrS (opD w) (if loadSigned c then ofSigned 32 (toSigned 16 v) else v)]
  | _ => [k.wrS (opD w) (if loadSigned c then ofSigned 32 (toSigned 8 v) else v)]

/-- The bytes of a scalar store. -/
def storeBytes (k : Core) (w : Nat) : List Byte :=
  match scalarLog2 w with
  | 3 => leBytes 8 (k.pair (opD w))
  | n => leBytes (2 ^ n) (k.sN (opD w))

/-- The write of a post-incremented base register. -/
def baseWrite (k : Core) (w scale : Nat) : RegWr :=
  k.wrS (opA w) (ofSigned 32 (k.sN (opA w) + opImm9 w * (scale : Nat)))

/-- A local load's result, or the error it brings (R90, R111). -/
def Dev.localLoad (d : Dev) (c pc : Nat) (k : Core) (a n : Nat) (mk : List Byte → List RegWr) : Dev × Later :=
  match d.memRead (.core c) a n with
  | (d, .ok bs) => (d, exposeAll c 6 (mk bs))
  | (d, .poison l) => (d, fun d => d.pushErr c (respErr k pc a false (some l)))
  | (d, .decode _) => (d, fun d => d.pushErr c (respErr k pc a false none))

/-- A global load: its registers are owed until the response arrives (R87, R90). -/
def Dev.globalLoad (d : Dev) (c pc : Nat) (k : Core) (a n : Nat) (regs : List PhysReg) (mk : List Byte → List RegWr) :
    Dev × Later :=
  let out (wrs : List RegWr) (e : Option ImpErr) : Outst := { regs := regs, wrs := wrs, err := e, bank := k.bank, eopc := pc }
  match d.busRead (.core c) a n with
  | (d, .ok bs) => (d, fun d => d.pushOutst c (out (mk bs) none))
  | (d, .poison l) => (d, fun d => d.pushOutst c (out [] (some (respErr k pc a false (some l)))))
  | (d, .decode _) => (d, fun d => d.pushOutst c (out [] (some (respErr k pc a false none))))

/-- A posted global store, and the error response it may bring (R90, R348). -/
def Dev.globalStore (d : Dev) (c pc : Nat) (k : Core) (a : Nat) (bs : List Byte) : Dev :=
  match d.busWrite (.core c) a bs with
  | (d, .ok) => d
  | (d, .decode _) => d.pushErr c (respErr k pc a true none)
  | (d, .error l) => d.pushErr c (respErr k pc a true (some (l / 64 * 64)))

/-- AADD (R90, R97). -/
def Dev.atomicAdd (d : Dev) (c pc : Nat) (k : Core) (w : Nat) : Dev :=
  let a := scalarAddr k w
  let regs := [sReg k.bank (opD w)]
  let out (wrs : List RegWr) (e : Option ImpErr) : Outst :=
    { regs := regs, wrs := wrs, err := e, atomic := true, bank := k.bank, eopc := pc }
  match d.busRead (.core c) a 4 with
  | (d, .ok bs) =>
    match d.busWrite (.core c) a (leBytes 4 ((leNat bs + k.sN (opD w)) % 2 ^ 32)) with
    | (d, .ok) => d.pushOutst c (out [k.wrS (opD w) (leNat bs)] none)
    | (d, .decode _) => d.pushOutst c (out [] (some (respErr k pc a true none)))
    | (d, .error l) => d.pushOutst c (out [] (some (respErr k pc a true (some (l / 64 * 64)))))
  | (d, .poison l) => d.pushOutst c (out [] (some (respErr k pc a true (some l))))
  | (d, .decode _) => d.pushOutst c (out [] (some (respErr k pc a true none)))

/-- The S1 memory operations of the bundle at `pc`. -/
def Dev.scalarMem (d : Dev) (c pc : Nat) (k : Core) (w : Nat) : Dev × Later :=
  let a := scalarAddr k w
  let size := 2 ^ scalarLog2 w
  match opOf w with
  | some .load => d.localLoad c pc k a size (loadWrites k w)
  | some .loadPi =>
    let (d, f) := d.localLoad c pc k a size (loadWrites k w)
    (d, fun d => exposeAll c 1 [baseWrite k w size] (f d))
  | some .store => (d, fun d => (d.memWrite (.core c) a (storeBytes k w)).1)
  | some .storePi => (d, fun d => exposeAll c 1 [baseWrite k w size] (d.memWrite (.core c) a (storeBytes k w)).1)
  | some .ldgw => d.globalLoad c pc k a 4 [sReg k.bank (opD w)] (loadWrites k w)
  | some .ldgd => d.globalLoad c pc k a 8 (sPair k.bank (opD w)) (loadWrites k w)
  | some .stgw | some .stgd => (d, fun d => d.globalStore c pc k a (storeBytes k w))
  | some .aadd => (d, fun d => d.atomicAdd c pc k w)
  | _ => (d, id)

/-! ### Control operations (R58, R91, R93) -/

/-- A token that the held node issues is buffered, up to 16; with no node held an EMIT is discarded and a POST is sent at
once (R58, R93). -/
def Dev.bufferToken (d : Dev) (c : Nat) (b : BufTok) : Dev :=
  let k := d.core c
  match k.held with
  | some h =>
    let h := if h.buf.length < 16 then { h with buf := h.buf ++ [b] } else { h with excess := true }
    d.setCore c { k with held := some h }
  | none =>
    match b with
    | .emit _ _ => d
    | .post t v => d.sendToken ⟨.core c, t, v⟩

/-- A taken branch from the bundle at `pc` (R88, R541). -/
def Dev.branch (d : Dev) (c pc target : Nat) : Dev :=
  let d := d.idleCycles c 2
  let d := d.setCore c { d.core c with pc := BitVec.ofNat 16 target }
  d.trace 5 c (pc + 65536 * (target % 65536))

/-- The target of BR and CALL. -/
def brTarget (pc w : Nat) : Nat := ofSigned 16 ((pc : Int) + 4 * toSigned 19 w)

/-- The S0 control operations that run at the end of their bundle; those that a bundle holds alone are met where the bundle
issues. -/
def Dev.controlOp (d : Dev) (c pc next : Nat) (k : Core) (w : Nat) : Dev × Later :=
  match opOf w with
  | some .br => (d, fun d => d.branch c pc (brTarget pc w))
  | some .call => (d, fun d => (exposeAll c 1 [k.wrS 31 next] d).branch c pc (brTarget pc w))
  | some .jr => (d, fun d => d.branch c pc (k.sN (opA w) % 65536))
  | some .emit => (d, fun d => d.bufferToken c (.emit (fld w 1 0) (k.pair (opA w))))
  | some .post => (d, fun d => d.bufferToken c (.post (k.pair (opA w)) (k.pair (opB w))))
  | some .mfc =>
    let o := 4 * opCR w
    let wr := k.wrS (opD w) (d.mfc c o)
    let d := d.mfcLatch c o
    if o = 0x48 then (d, fun d => d.pushOutst c { regs := [sReg k.bank (opD w)], wrs := [wr], bank := k.bank, eopc := pc })
    else (d, exposeAll c 1 [wr])
  | some .mtc => (d, fun d => d.mtc c (4 * opCR w) (k.sN (opA w)))
  | some .ien => (d, fun d => d.mtc c 0x4 (w % 2))
  | _ => (d, id)

/-- Precise exceptions of control operations: JR's alignment, a locked MTC, TRAP, and RPTR's count (R91, R99, R107). -/
def controlExc (k : Core) (w : Nat) : Option Exc :=
  match opOf w with
  | some .jr => if k.sN (opA w) % 4 ≠ 0 then some { cause := 2, addr := k.sN (opA w) % 65536 } else none
  | some .mtc => if k.mtcLocked (4 * opCR w) then some { cause := 3 } else none
  | some .trap => some { cause := 4, info := opCR w }
  | some .rptr => if 4096 < k.sN (opA w) then some { cause := 1 } else none
  | _ => none

end Sys2Proof.Machine
end

