-- ==== Sys2Proof/Machine/CetikVector.lean ====
section
/-!
DEFINITION. Vector arithmetic, accumulators and register permutes of a Cetik core (R118 to R128, R130).
-/
namespace Sys2Proof.Machine

/-! ### Lanes (R118) -/

/-- Lane `i` of `w` bits, as a number and as a two's-complement value. -/
def laneN {n : Nat} (w : Nat) (v : BitVec n) (i : Nat) : Nat := (v.toNat >>> (w * i)) % 2 ^ w
def laneS {n : Nat} (w : Nat) (v : BitVec n) (i : Nat) : Int := toSigned w (laneN w v i)

/-- Lanes of `w` bits put together, lane 0 lowest. -/
def ofLanes (w : Nat) (l : List Nat) : Nat := l.foldr (fun x acc => x % 2 ^ w + 2 ^ w * acc) 0

/-- Bits of one part of an element of type T, and its parts. -/
def tyPart (t : Nat) : Nat := match t with | 0 => 8 | 1 => 16 | 3 => 16 | _ => 32
def tyParts (t : Nat) : Nat := if t = 3 ∨ t = 4 then 2 else 1

/-- Bits of a lane of type T, and the lanes of a register. -/
def tyLane (t : Nat) : Nat := tyPart t * tyParts t
def tyCount (t : Nat) : Nat := 512 / tyLane t

/-- The rounding function of R122. -/
def roundShift (rnd : Nat) (x : Int) (s : Nat) : Int :=
  if s = 0 then x
  else
    let q := x / (2 ^ s : Nat)
    let r := x - q * (2 ^ s : Nat)
    let half : Int := (2 ^ (s - 1) : Nat)
    if rnd = 0 then q
    else if r > half || (r = half && rnd = 1) then q + 1
    else if r = half && rnd = 2 then q + q % 2
    else q

/-- CTK_VCTL.RND. -/
def Core.rnd (k : Core) : Nat := (k.cr 0x90).toNat % 4

/-- Saturation to `w` bits: the pattern, and whether the value changed (R122). -/
def satLane (w : Nat) (x : Int) : Nat × Bool := (ofSigned w (satS w x), decide (satS w x ≠ x))

/-- Wrapping to `w` bits. -/
def wrapLane (w : Nat) (x : Int) : Nat × Bool := (ofSigned w x, false)

/-- Two parts of a lane. -/
def joinParts (w : Nat) (a b : Nat × Bool) : Nat × Bool := (a.1 + 2 ^ w * b.1, a.2 || b.2)

/-- A register result lane by lane: enabled lanes of `lw` bits are computed, the others keep the destination (R127). -/
structure LaneOut where
  mask : Nat
  val  : Nat
  flag : Bool
  deriving DecidableEq, Repr

def Core.laneOut (k : Core) (w lw n : Nat) (f : Nat → Nat × Bool) : LaneOut :=
  let outs := (List.range n).map (fun i => if k.lane w i then some (f i) else none)
  { mask := ofLanes lw (outs.map (fun o => if o.isSome then 2 ^ lw - 1 else 0))
    val := ofLanes lw (outs.map (fun o => (o.getD (0, false)).1))
    flag := outs.any (fun o => (o.getD (0, false)).2) }

/-- The writes of a vector result, with CTK_VSAT.SAT when a lane saturated (R121, R122). -/
def LaneOut.toV (o : LaneOut) (n : Nat) : List RegWr :=
  [.v n (BitVec.ofNat 512 o.mask) (BitVec.ofNat 512 o.val)] ++ (if o.flag then [.vsat 1] else [])

/-! ### Typed arithmetic (R122, R123, R128) -/

/-- A lane of type T computed part by part. -/
def partLane (t : Nat) (f : Nat → Nat × Bool) : Nat × Bool :=
  if tyParts t = 1 then f 0 else joinParts (tyPart t) (f 0) (f 1)

/-- Part `p` of lane `i` of a register. -/
def partS (t : Nat) (v : BitVec 512) (i p : Nat) : Int := laneS (tyPart t) v (i * tyParts t + p)
def partU (t : Nat) (v : BitVec 512) (i p : Nat) : Nat := laneN (tyPart t) v (i * tyParts t + p)

/-- One part of a typed V0 operation. -/
def typedPart (op : CoreOp) (rnd t sub : Nat) (x y : Int) (u : Nat) : Nat × Bool :=
  let w := tyPart t
  match op with
  | .vadd => wrapLane w (x + y)
  | .vadds => satLane w (x + y)
  | .vsub => wrapLane w (x - y)
  | .vsubs => satLane w (x - y)
  | .vshl => ((u <<< sub) % 2 ^ w, false)
  | .vshr => (u >>> sub, false)
  | .vsar => wrapLane w (x / (2 ^ sub : Nat))
  | .vsarr => wrapLane w (roundShift rnd x (min sub (w - 1)))
  | .vmin => wrapLane w (min x y)
  | .vmax => wrapLane w (max x y)
  | .vabs => satLane w (if x < 0 then -x else x)
  | .vcls =>
    let m := if x < 0 then 2 ^ w - 1 - u else u
    (if m = 0 then w - 1 else w - 2 - m.log2, false)
  | _ => satLane w (roundShift rnd (x * y) 15)

/-- A complex value of two signed parts of `w` bits. -/
def cxLane {n : Nat} (w : Nat) (v : BitVec n) (i : Nat) : Int × Int := (laneS w v (2 * i), laneS w v (2 * i + 1))

/-- A × B and A × conj(B) (R123). -/
def cxMul (conj : Bool) (a b : Int × Int) : Int × Int :=
  if conj then (a.1 * b.1 + a.2 * b.2, a.2 * b.1 - a.1 * b.2)
  else (a.1 * b.1 - a.2 * b.2, a.1 * b.2 + a.2 * b.1)

/-- The Q15 product of VCMUL (R123). -/
def cxQ15 (rnd : Nat) (conj : Bool) (a b : Int × Int) : Nat × Bool :=
  let p := cxMul conj a b
  joinParts 16 (satLane 16 (roundShift rnd p.1 15)) (satLane 16 (roundShift rnd p.2 15))

/-- Sum of the products of the parts from `f` on. -/
def dotSum (w n f : Nat) (a b : BitVec 512) : Int :=
  (List.range n).foldl (fun (s : Int) i => s + laneS w a (f + i) * laneS w b (f + i)) 0

/-! ### Accumulators (R119, R125) -/

/-- The input of an accumulating operation: the register, under what earlier accumulating operations have in flight. -/
def Core.accIn (k : Core) (n : Nat) : BitVec 1536 :=
  k.inflight.foldl (fun v f =>
    match f.wr with
    | .a m mask x => if f.acc && m = n then underMask v mask x else v
    | _ => v) (k.a n)

/-- A 96-bit lane of two 48-bit parts, and whether either wrapped (R119). -/
def accLane (re im : Int) : Nat × Bool :=
  let r := ofSigned 48 re
  let i := ofSigned 48 im
  (r + 2 ^ 48 * i, decide (toSigned 48 r ≠ re) || decide (toSigned 48 i ≠ im))

/-- A lane after adding, subtracting or replacing by a product. -/
def accStep (old p : Int × Int) (mode : Nat) : Nat × Bool :=
  match mode with
  | 0 => accLane (old.1 + p.1) (old.2 + p.2)
  | 1 => accLane (old.1 - p.1) (old.2 - p.2)
  | 2 => accLane p.1 p.2
  | _ => accLane 0 0

/-- The writes of an accumulator result, with CTK_VSAT.ACC_WRAP when a lane wrapped. -/
def LaneOut.toA (o : LaneOut) (n : Nat) : List RegWr :=
  [.a n (BitVec.ofNat 1536 o.mask) (BitVec.ofNat 1536 o.val)] ++ (if o.flag then [.vsat 2] else [])

/-- VCMAC, VCMACB and VCMACBJ (R125, R128). -/
def vcmacOut (k : Core) (w : Nat) : LaneOut :=
  let acc := k.accIn (opPD w)
  let va := k.v (opA w)
  let vb := k.v (opB w)
  let sub := opSub w
  k.laneOut w 96 16 (fun i =>
    let old := cxLane 48 acc i
    let a := cxLane 16 va i
    match opOf w with
    | some .vcmac =>
      accStep old (cxMul (sub % 2 = 1) a (cxLane 16 vb i)) (if sub < 2 then 0 else if sub < 4 then 1 else if sub < 6 then 2 else 3)
    | some .vcmacb => accStep old (cxMul false a (cxLane 16 vb sub)) 0
    | _ => accStep old (cxMul true a (cxLane 16 vb sub)) 0)

/-! ### V0 (R128) -/

/-- The outcome of a lane of VCMP. -/
def vcmpLane (cond : Nat) (x y : Int) : Bool :=
  match cond with
  | 0 => x = y
  | 1 => decide (x ≠ y)
  | 2 => decide (x < y)
  | _ => decide (y ≤ x)

/-- The write of VCMP: bits of disabled lanes stay, bits above the lanes become 0 (R127, R128). -/
def vcmpWrite (k : Core) (w : Nat) : RegWr :=
  let t := opSub w
  let n := tyCount t
  let on (i : Nat) : Bool := decide (n ≤ i) || k.lane w i
  let val (i : Nat) : Bool :=
    decide (i < n) && vcmpLane (fld w 15 14) (laneS (tyPart t) (k.v (opA w)) i) (laneS (tyPart t) (k.v (opB w)) i)
  .p (k.bank && decide (opPD w < 4)) (opPD w) (BitVec.ofNat 64 (ofLanes 1 ((List.range 64).map (fun i => b2n (on i)))))
    (BitVec.ofNat 64 (ofLanes 1 ((List.range 64).map (fun i => b2n (val i)))))

/-- The result of a V0 operation that writes a vector register. -/
def v0Out (k : Core) (w : Nat) : LaneOut :=
  let va := k.v (opA w)
  let vb := k.v (opB w)
  let vd := k.v (opD w)
  let t := opSub w
  let typed (op : CoreOp) (t sub : Nat) : LaneOut :=
    k.laneOut w (tyLane t) (tyCount t) (fun i =>
      partLane t (fun p => typedPart op k.rnd t sub (partS t va i p) (partS t vb i p) (partU t va i p)))
  match opOf w with
  | some .vlog =>
    k.laneOut w 32 16 (fun i =>
      let x := laneN 32 va i
      let y := laneN 32 vb i
      ((match t with | 0 => x &&& y | 1 => x ||| y | 2 => x ^^^ y | _ => x &&& (y ^^^ 0xFFFFFFFF)), false))
  | some .vshl => typed .vshl t (opB w)
  | some .vshr => typed .vshr t (opB w)
  | some .vsar => typed .vsar t (opB w)
  | some .vsarr => typed .vsarr t (opB w)
  | some .vsel =>
    let lw := tyLane t
    { mask := 2 ^ 512 - 1
      val := ofLanes lw ((List.range (tyCount t)).map (fun i => if k.lane w i then laneN lw va i else laneN lw vb i))
      flag := false }
  | some .vcmul => k.laneOut w 32 16 (fun i => cxQ15 k.rnd (t = 1) (cxLane 16 va i) (cxLane 16 vb i))
  | some .vcmag => k.laneOut w 32 16 (fun i => satLane 32 (cxMul true (cxLane 16 va i) (cxLane 16 va i)).1)
  | some .vmulw => k.laneOut w 32 16 (fun i => wrapLane 32 (laneS 16 va (i + 16 * t) * laneS 16 vb (i + 16 * t)))
  | some .vdot2 =>
    k.laneOut w 32 16 (fun i => satLane 32 (dotSum 16 2 (2 * i) va vb + (if t = 1 then laneS 32 vd i else 0)))
  | some .vdot4 =>
    k.laneOut w 32 16 (fun i => satLane 32 (dotSum 8 4 (4 * i) va vb + (if t = 1 then laneS 32 vd i else 0)))
  | some .vacrd =>
    let acc := k.a (fld w 13 11)
    let sh := fld w 9 5
    let rd := fun (pw i : Nat) =>
      let l := cxLane 48 acc i
      joinParts pw (satLane pw (roundShift k.rnd l.1 sh)) (satLane pw (roundShift k.rnd l.2 sh))
    if t = 0 then k.laneOut w 32 16 (rd 16) else k.laneOut w 64 8 (fun i => rd 32 (i + (if t = 2 then 8 else 0)))
  | some op => typed op t 0
  | none => typed .vadd 0 0

/-- A V0 operation: latency 4. -/
def v0Run (c : Nat) (k : Core) (w : Nat) : Later :=
  match opOf w with
  | some .vcmp => exposeAll c 4 [vcmpWrite k w]
  | some .vcmac | some .vcmacb | some .vcmacbj =>
    fun d => ((vcmacOut k w).toA (opPD w)).foldl (fun (d : Dev) wr => d.expose c 4 wr true false) d
  | _ => exposeAll c 4 ((v0Out k w).toV (opD w))

/-! ### Register operations of V1 (R130) -/

/-- The result of VBCAST, VINS, VPERM, VSPLIT and VSLIDE. -/
def v1Out (k : Core) (w : Nat) : LaneOut :=
  let va := k.v (opA w)
  let vb := k.v (opB w)
  let t := opSub w
  let lanes (f : Nat → Nat) : LaneOut := k.laneOut w 32 16 (fun i => (f i, false))
  match opOf w with
  | some .vbcast =>
    let x := k.sN (opA w)
    lanes (fun i =>
      match t with
      | 0 => x
      | 1 => x % 65536 * 65537
      | 2 => x % 256 * 0x1010101
      | _ => if i % 2 = 0 then x else k.sN (opA w + 1))
  | some .vins => lanes (fun i => if i = t then k.sN (opA w) else laneN 32 (k.v (opD w)) i)
  | some .vperm => lanes (fun i => laneN 32 va (laneN 32 vb i % 16))
  | some .vsplit =>
    let part (i : Nat) : Nat := laneN 16 (if i < 16 then va else vb) (2 * (i % 16) + t)
    lanes (fun i =>
      if t < 2 then part (2 * i) + 65536 * part (2 * i + 1) else laneN 16 va i + 65536 * laneN 16 vb i)
  | _ => lanes (fun i => if i + t < 16 then laneN 32 va (i + t) else laneN 32 vb (i + t - 16))

/-- A register operation of V1: latency 4. -/
def v1Run (c : Nat) (k : Core) (w : Nat) : Later :=
  match opOf w with
  | some .vext => exposeAll c 4 [k.wrS (opD w) (laneN 32 (k.v (opA w)) (opSub w))]
  | _ => exposeAll c 4 ((v1Out k w).toV (opD w))

end Sys2Proof.Machine
end

