-- ==== Sys2Proof/Machine/CetikMem.lean ====
section
/-!
DEFINITION. Vector memory operations, gathers, scatters and long vectors of a Cetik core (R120, R127, R129 to R136).
-/
namespace Sys2Proof.Machine

/-! ### Contiguous accesses (R129, R130) -/

/-- Address of a contiguous vector access: local ones have 32 bits, global ones 64. -/
def vecAddr (k : Core) (w : Nat) : Nat :=
  let off := opImm9 w * 64
  match opOf w with
  | some .vldPi | some .vstPi => k.sN (opA w)
  | some .vldg | some .vstg => ofSigned 64 (k.pair (opA w) + off)
  | _ => ofSigned 32 (k.sN (opA w) + off)

/-- Bytes of a contiguous vector access. -/
def vecBytes (w : Nat) : Nat :=
  match opOf w with | some .vacsv | some .vacld => 192 | _ => 64

/-- ALIGN and ACCESS of a contiguous access, over its whole extent (R127, R129). -/
def vecExc (k : Core) (w : Nat) : Option Exc :=
  let a := vecAddr k w
  let ea := a % 2 ^ 40
  if a % 64 ≠ 0 then some { cause := 2, addr := ea }
  else
    let ok := match opOf w with
      | some .vldg => decide (a < 2 ^ 40) && k.permits a true false
      | some .vstg => decide (a < 2 ^ 40) && k.permits a false true
      | _ => decide (a + vecBytes w ≤ 0x40000)
    if ok then none else some { cause := 3, addr := ea }

/-- A register's 64 bytes, and back. -/
def vecToBytes (v : BitVec 512) : List Byte := leBytes 64 v.toNat

/-- The write of a loaded vector under the lane predicate. -/
def vldWrite (k : Core) (w : Nat) (bs : List Byte) : List RegWr :=
  let v := leNat bs
  (k.laneOut w 32 16 (fun i => ((v >>> (32 * i)) % 2 ^ 32, false))).toV (opD w)

/-- Lanes of 4 bytes that a store writes. -/
def storeLanes (k : Core) (w : Nat) : List Nat := (List.range 16).filter (fun i => k.lane w i)

/-- A write of some lanes of a line of on-chip memory is one partial write (R348, R349). -/
def Dev.maskLine (d : Dev) (ag : Agent) (r : Region) (l : Nat) (lanes : List Nat) (bs : List Byte) : Dev × Bool :=
  let d := d.bump (memCnt 9)
  let put (old : List Byte) : List Byte :=
    lanes.foldl (fun acc i => spliceAt acc (4 * i) ((bs.drop (4 * i)).take 4)) old
  match d.mem.decodeLine l with
  | (.poison, _) => (d.pwPoison r l ag.word, false)
  | (.uncorrectable, _) => ((d.ueLine r l 2 ag.word).pwPoison r l ag.word, false)
  | (v, old) =>
    let d := d.ceLine r l v 2 ag.word
    (({ d with mem := d.mem.storeLine l (put old) }).unfilter (64 * l), true)

/-- A 64-byte store of enabled lanes: disabled lanes are not written (R127). -/
def Dev.laneStore (d : Dev) (ag : Agent) (a : Nat) (lanes : List Nat) (bs : List Byte) : Dev × WResp :=
  if lanes.length = 16 then d.busWrite ag a bs
  else if lanes = [] then (d, .ok)
  else
    let d := d.wakeFor a
    match d.locate ag a with
    | (.ddr, _) | (.regs, _) | (.hole, _) =>
      lanes.foldl (fun (acc : Dev × WResp) i =>
        match acc.1.busWrite ag (a + 4 * i) ((bs.drop (4 * i)).take 4) with
        | (d, r) => (d, if acc.2 = .ok then r else acc.2)) (d, .ok)
    | (r, p) =>
      match d.maskLine ag r (p / 64) lanes bs with
      | (d, true) => (d, .ok)
      | (d, false) => (d, .error a)

/-- Lanes of an accumulator as its 192 bytes, which are its bits (R120). -/
def accToBytes (v : BitVec 1536) : List Byte := leBytes 192 v.toNat

/-- The contiguous vector memory operations of the bundle at `pc` (R130). -/
def Dev.vecMem (d : Dev) (c pc : Nat) (k : Core) (w : Nat) : Dev × Later :=
  let a := vecAddr k w
  let base : Later := exposeAll c 1 [baseWrite k w 64]
  let store : Later := fun d => (d.laneStore (.core c) a (storeLanes k w) (vecToBytes (k.v (opD w)))).1
  match opOf w with
  | some .vld => d.localLoad c pc k a 64 (vldWrite k w)
  | some .vldPi =>
    let (d, f) := d.localLoad c pc k a 64 (vldWrite k w)
    (d, fun d => base (f d))
  | some .vst => (d, store)
  | some .vstPi => (d, fun d => base (store d))
  | some .vldg => d.globalLoad c pc k a 64 [.v (opD w)] (vldWrite k w)
  | some .vstg => (d, fun d =>
      match d.laneStore (.core c) a (storeLanes k w) (vecToBytes (k.v (opD w))) with
      | (d, .ok) => d
      | (d, .decode _) => d.pushErr c (respErr k pc a true none)
      | (d, .error l) => d.pushErr c (respErr k pc a true (some (l / 64 * 64))))
  | some .vacsv => (d, fun d => (d.memWrite (.core c) a (accToBytes (k.a (opPD w)))).1)
  | some .vacld => d.localLoad c pc k a 192 (fun bs => [.a (opPD w) (BitVec.allOnes 1536) (BitVec.ofNat 1536 (leNat bs))])
  | _ => (d, id)

/-! ### Gathers and scatters (R131, R132) -/

/-- Elements and element size of a gather or scatter. -/
def gathCount (w : Nat) : Nat := if opSub w = 0 then 16 else 8
def gathSize (w : Nat) : Nat := if opSub w = 0 then 4 else 8

/-- The exact address of element `e`. -/
def gathAddr (k : Core) (w e : Nat) : Int := (k.sN (opA w) : Int) + (gathSize w : Nat) * laneS 32 (k.v (opB w)) e

/-- The first faulting element from VRI on, with its exception. -/
def gathExc (k : Core) (w : Nat) : Option (Nat × Exc) :=
  ((List.range (gathCount w)).filter (fun e => decide (k.vri.toNat ≤ e) && k.lane w e)).findSome? (fun e =>
    let a := gathAddr k w e
    let size := gathSize w
    if a % (size : Nat) ≠ 0 then some (e, { cause := 2, addr := ofSigned 40 a, info := e })
    else if a < 0 || 0x40000 < a + (size : Nat) then some (e, { cause := 3, addr := ofSigned 40 a, info := e })
    else none)

/-- Elements that are committed: enabled, from VRI, below the first fault. -/
def gathElems (k : Core) (w : Nat) : List Nat :=
  let stop := match gathExc k w with | some (e, _) => e | none => gathCount w
  (List.range stop).filter (fun e => decide (k.vri.toNat ≤ e) && k.lane w e)

/-- Passes over the 16 banks: the most distinct words in one bank (R131). -/
def bankPasses (words : List Nat) : Nat :=
  let ws := words.eraseDups
  (List.range 16).foldl (fun m b => max m (ws.filter (fun x => x % 16 = b)).length) 1

/-- The words that committed elements touch. -/
def gathWords (k : Core) (w : Nat) : List Nat :=
  (gathElems k w).flatMap (fun e =>
    let a := (gathAddr k w e).toNat / 4
    if gathSize w = 4 then [a] else [a, a + 1])

/-- A gather's elements are read and written at its latency; a poisoned one leaves the destination unwritten (R130, R131). -/
def Dev.gather (d : Dev) (c pc : Nat) (k : Core) (w : Nat) : Dev × Later :=
  let size := gathSize w
  let es := gathElems k w
  let (d, got, bad) := es.foldl (fun (acc : Dev × List (Nat × Nat) × Option Nat) e =>
    match acc.1.memRead (.core c) (gathAddr k w e).toNat size with
    | (d, .ok bs) => (d, acc.2.1 ++ [(e, leNat bs)], acc.2.2)
    | (d, .poison l) => (d, acc.2.1, if acc.2.2.isSome then acc.2.2 else some l)
    | (d, .decode _) => (d, acc.2.1, acc.2.2)) (d, [], none)
  match bad with
  | some l => (d, fun d => d.pushErr c (respErr k pc l false (some l)))
  | none =>
    let lw := 8 * size
    let mask := got.foldl (fun m p => m + (2 ^ lw - 1) * 2 ^ (lw * p.1)) 0
    let val := got.foldl (fun m p => m + p.2 * 2 ^ (lw * p.1)) 0
    (d, exposeAll c 6 [.v (opD w) (BitVec.ofNat 512 mask) (BitVec.ofNat 512 val)])

/-- A scatter's elements are written in ascending order. -/
def scatter (c : Nat) (k : Core) (w : Nat) : Later := fun d =>
  let size := gathSize w
  (gathElems k w).foldl (fun (d : Dev) e =>
    (d.memWrite (.core c) (gathAddr k w e).toNat (leBytes size (laneN (8 * size) (k.v (opD w)) e))).1) d

/-- VGATH or VSCAT without a fault: passes beyond the first stall the core, and VRI becomes 0. -/
def Dev.gathRun (d : Dev) (c pc : Nat) (k : Core) (w : Nat) : Dev × Later :=
  let fin : Later := fun d =>
    let d := d.idleCycles c (bankPasses (gathWords k w) - 1)
    d.setCore c { d.core c with vri := 0 }
  if opOf w = some .vgath then
    let (d, f) := d.gather c pc k w
    (d, fun d => fin (f d))
  else (d, fun d => fin (scatter c k w d))

/-- The committed elements of a faulting VGATH or VSCAT; VRI is left at the faulting element (R132). -/
def Dev.gathPartial (d : Dev) (c pc : Nat) (k : Core) (w e : Nat) : Dev :=
  let d :=
    if opOf w = some .vgath then
      let (d, f) := d.gather c pc k w
      f d
    else scatter c k w d
  d.setCore c { d.core c with vri := BitVec.ofNat 12 e }

/-! ### Long vectors (R134 to R136) -/

/-- CTK_VLEN. -/
def Core.vlen (k : Core) : Nat := (k.cr 0x98).toNat % 8192

/-- The sources of an LV that lie in memory, and its destination array, as base addresses. -/
def lvSources (k : Core) (w : Nat) : List Nat :=
  let a := k.sN (opA w)
  if opSub w = 0 ∨ opSub w = 5 then [a] else [a, k.sN (opB w)]
def lvDest (k : Core) (w : Nat) : Option Nat := if opSub w = 6 then none else some (k.sN (opD w))

/-- A destination array that overlaps a source without being the same array makes the bundle illegal (R134). -/
def lvOverlap (k : Core) (w : Nat) : Bool :=
  let n := 4 * k.vlen
  match lvDest k w with
  | none => false
  | some x => (lvSources k w).any (fun a => decide (a ≠ x ∧ a < x + n ∧ x < a + n))

/-- Elements of the group that starts at VRI. -/
def lvElems (k : Core) : List Nat :=
  (List.range 16).filterMap (fun i => if k.vri.toNat + i < k.vlen then some (k.vri.toNat + i) else none)

/-- The fault of element `e`: its arrays in the order A, B, D, alignment first (R132, assumption log 31). -/
def lvElemExc (k : Core) (w e : Nat) : Option Exc :=
  let xs := (lvSources k w ++ (lvDest k w).toList).map (fun x => x + 4 * e)
  match xs.find? (fun x => decide (x % 4 ≠ 0)) with
  | some x => some { cause := 2, addr := x, info := e }
  | none =>
    match xs.find? (fun x => decide (0x40000 < x + 4)) with
    | some x => some { cause := 3, addr := x, info := e }
    | none => none

/-- The first faulting element of the group. -/
def lvExc (k : Core) (w : Nat) : Option (Nat × Exc) :=
  (lvElems k).findSome? (fun e => (lvElemExc k w e).map (fun x => (e, x)))

/-- One ci16 element in memory. -/
def Dev.lvRead (d : Dev) (c a : Nat) : Dev × Except Nat (Int × Int) :=
  match d.memRead (.core c) a 4 with
  | (d, .ok bs) => (d, .ok (toSigned 16 (leAt bs 0 2), toSigned 16 (leAt bs 2 2)))
  | (d, .poison l) => (d, .error l)
  | (d, .decode x) => (d, .error x)

/-- An element's result by SUB 0 to 5 (R134). -/
def lvResult (rnd sub : Nat) (a b : Int × Int) : Nat × Bool :=
  match sub with
  | 0 => joinParts 16 (wrapLane 16 a.1) (wrapLane 16 a.2)
  | 1 => joinParts 16 (satLane 16 (a.1 + b.1)) (satLane 16 (a.2 + b.2))
  | 2 => joinParts 16 (satLane 16 (a.1 - b.1)) (satLane 16 (a.2 - b.2))
  | 4 => cxQ15 rnd true a b
  | _ => cxQ15 rnd false a b

/-- The sources of elements `es`: values in order, or the first poisoned line. -/
def Dev.lvFetch (d : Dev) (c : Nat) (k : Core) (w : Nat) (es : List Nat) :
    Dev × Except Nat (List (Nat × (Int × Int) × (Int × Int))) :=
  let src := lvSources k w
  let cst := (toSigned 16 (k.sN (opB w)), toSigned 16 (k.sN (opB w) / 65536))
  es.foldl (fun (acc : Dev × Except Nat (List (Nat × (Int × Int) × (Int × Int)))) e =>
    match acc.2 with
    | .error _ => acc
    | .ok l =>
      match acc.1.lvRead c (src.getD 0 0 + 4 * e) with
      | (d, .error x) => (d, .error x)
      | (d, .ok a) =>
        match src[1]? with
        | none => (d, .ok (l ++ [(e, a, cst)]))
        | some y =>
          match d.lvRead c (y + 4 * e) with
          | (d, .error x) => (d, .error x)
          | (d, .ok b) => (d, .ok (l ++ [(e, a, b)]))) (d, .ok [])

/-- One element group over the elements `es`: memory results land at the end of the fifth cycle after it, LVDOTJ's with
latency 4 (R135). -/
def Dev.lvGroup (d : Dev) (c pc : Nat) (k : Core) (w : Nat) (es : List Nat) : Dev :=
  match d.lvFetch c k w es with
  | (d, .error l) => d.pushErr c (respErr k pc l false (some l))
  | (d, .ok l) =>
    match lvDest k w with
    | some x =>
      let outs := l.map (fun t => (t.1, lvResult k.rnd (opSub w) t.2.1 t.2.2))
      let bs := outs.flatMap (fun o => leBytes 4 o.2.1)
      let d := if outs = [] then d else d.expose c 6 (.mem (x + 4 * (es.headD 0)) bs) false true
      if outs.any (fun o => o.2.2) then d.expose c 6 (.vsat 1) false true else d
    | none =>
      let n := fld w 16 14
      let acc := k.accIn n
      let lanes := l.map (fun t => (t.1 % 16, accStep (cxLane 48 acc (t.1 % 16)) (cxMul true t.2.1 t.2.2) 0))
      let mask := lanes.foldl (fun m p => m + (2 ^ 96 - 1) * 2 ^ (96 * p.1)) 0
      let val := lanes.foldl (fun m p => m + p.2.1 * 2 ^ (96 * p.1)) 0
      let d := if lanes = [] then d else d.expose c 4 (.a n (BitVec.ofNat 1536 mask) (BitVec.ofNat 1536 val)) true true
      if lanes.any (fun p => p.2.2) then d.expose c 4 (.vsat 2) false true else d

end Sys2Proof.Machine
end

