-- ==== Sys2Proof/Machine/Complex.lean ====
section
/-!
DEFINITION. Exact complex arithmetic of the beam engines: rationals, rounding, matrices and factorisations (R174, R178 to
R185).
-/
namespace Sys2Proof.Machine

/-- A complex rational. -/
structure CQ where
  re : Rat := 0
  im : Rat := 0
  deriving DecidableEq, Repr

def CQ.add (a b : CQ) : CQ := ⟨a.re + b.re, a.im + b.im⟩
def CQ.sub (a b : CQ) : CQ := ⟨a.re - b.re, a.im - b.im⟩
def CQ.mul (a b : CQ) : CQ := ⟨a.re * b.re - a.im * b.im, a.re * b.im + a.im * b.re⟩
def CQ.conj (a : CQ) : CQ := ⟨a.re, -a.im⟩
def CQ.scale (a : CQ) (x : Rat) : CQ := ⟨a.re * x, a.im * x⟩
def CQ.norm2 (a : CQ) : Rat := a.re * a.re + a.im * a.im

/-- The sum of a list. -/
def CQ.sum (l : List CQ) : CQ := l.foldl CQ.add {}

/-- The sum of rationals. -/
def sumQ (l : List Rat) : Rat := l.foldl (· + ·) 0

/-- A power of two. -/
def pow2 (e : Int) : Rat := if 0 ≤ e then (2 ^ e.toNat : Nat) else 1 / ((2 ^ (-e).toNat : Nat) : Rat)

/-- Rounded half to even (R174). -/
def roundHalfEven (x : Rat) : Int :=
  let f := x.floor
  let r := x - f
  if r < 1 / 2 then f else if 1 / 2 < r then f + 1 else if f % 2 = 0 then f else f + 1

/-- Absolute value. -/
def absQ (x : Rat) : Rat := if x < 0 then -x else x

/-- The square root of a rational to 48 significant bits. -/
def sqrtQ (x : Rat) : Rat :=
  if x ≤ 0 then 0 else ((isqrt (x.num.toNat * x.den * 4 ^ 48) : Nat) : Rat) / ((x.den * 2 ^ 48 : Nat) : Rat)

/-! ### Matrices -/

/-- A matrix as its rows. -/
abbrev Mat := List (List CQ)

/-- Element (r, c). -/
def Mat.at (m : Mat) (r c : Nat) : CQ := (m.getD r []).getD c {}

/-- A matrix by its elements. -/
def matOf (r c : Nat) (f : Nat → Nat → CQ) : Mat := (List.range r).map (fun i => (List.range c).map (f i))

/-- The conjugate transpose of an r × c matrix. -/
def Mat.herm (m : Mat) (r c : Nat) : Mat := matOf c r (fun i j => (m.at j i).conj)

/-- The product of an r × n and an n × c matrix. -/
def Mat.mul (a b : Mat) (r n c : Nat) : Mat :=
  matOf r c (fun i j => CQ.sum ((List.range n).map (fun k => (a.at i k).mul (b.at k j))))

/-- λ added to the diagonal. -/
def Mat.addDiag (m : Mat) (n : Nat) (x : Rat) : Mat :=
  matOf n n (fun i j => if i = j then (m.at i j).add ⟨x, 0⟩ else m.at i j)

def identityMat (n : Nat) : Mat := matOf n n (fun i j => if i = j then ⟨1, 0⟩ else {})

/-- Square of the Frobenius norm. -/
def Mat.frob (m : Mat) : Rat := sumQ (m.map (fun r => sumQ (r.map CQ.norm2)))

/-- A factorisation G = U D U^H with U unit lower-triangular: rows of U below the diagonal, and D. -/
structure Ldl where
  u : Mat
  d : List Rat
  deriving DecidableEq, Repr

/-- One row of the factorisation of G, from its elements with c ≤ r and the real part of its diagonal (R179). -/
def ldlRow (g : Mat) (f : Ldl) (i : Nat) : Ldl :=
  let row := (List.range i).foldl (fun (row : List CQ) j =>
    let s := CQ.sum ((List.range j).map (fun k => ((row.getD k {}).mul ((f.u.at j k).conj)).scale (f.d.getD k 0)))
    row ++ [((g.at i j).sub s).scale (1 / f.d.getD j 1)]) []
  let d := (g.at i i).re - sumQ ((List.range i).map (fun k => (row.getD k {}).norm2 * f.d.getD k 0))
  { u := f.u ++ [row], d := f.d ++ [d] }

/-- The factorisation; none when a pivot is 0 or less (R182). -/
def ldl (g : Mat) (n : Nat) : Option Ldl :=
  (List.range n).foldl (fun (f : Option Ldl) i =>
    match f with
    | none => none
    | some f =>
      let f := ldlRow g f i
      if f.d.getD i 0 ≤ 0 then none else some f) (some ⟨[], []⟩)

/-- L with real positive diagonal such that L L^H = G (R179); its square roots to 48 bits. -/
def Ldl.lower (f : Ldl) (n : Nat) : Mat :=
  let s := f.d.map sqrtQ
  matOf n n (fun i j =>
    if j < i then (f.u.at i j).scale (s.getD j 0) else if i = j then ⟨s.getD i 0, 0⟩ else {})

/-- Rows of L^−1 B for a lower-triangular L with real diagonal (R180). -/
def solveFwd (l b : Mat) (n cols : Nat) : Mat :=
  (List.range n).foldl (fun (x : Mat) i =>
    x ++ [(List.range cols).map (fun c =>
      ((b.at i c).sub (CQ.sum ((List.range i).map (fun k => (l.at i k).mul (x.at k c))))).scale (1 / (l.at i i).re))]) []

/-- Rows of L^−H B (R180). -/
def solveBwd (l b : Mat) (n cols : Nat) : Mat :=
  (List.range n).foldl (fun (x : Mat) t =>
    let i := n - 1 - t
    let row := (List.range cols).map (fun c =>
      let s := CQ.sum ((List.range (n - 1 - i)).map (fun k => ((l.at (i + 1 + k) i).conj).mul (x.at k c)))
      ((b.at i c).sub s).scale (1 / (l.at i i).re))
    row :: x) []

/-- The inverse of the factorised matrix. -/
def Ldl.inverse (f : Ldl) (n : Nat) : Mat :=
  let u := matOf n n (fun i j => if j < i then f.u.at i j else if i = j then ⟨1, 0⟩ else {})
  let y := solveFwd u (identityMat n) n n
  let z := matOf n n (fun i j => (y.at i j).scale (1 / f.d.getD i 1))
  solveBwd u z n n

/-- Upper bound of the square of a matrix's 2-norm condition number, from its inverse. -/
def condBound (m inv : Mat) : Rat := m.frob * inv.frob

end Sys2Proof.Machine
end

