-- ==== Sys2Proof/Machine/CetikCx.lean ====
section
/-!
DEFINITION. The attached units CX0 to CX3 (R138 to R163).
-/
namespace Sys2Proof.Machine

/-! ### Level-0 starts (R142, R143, R154, R161) -/

/-- Width and generator of a CRC select (R154). -/
def cxCrc (sel : Nat) : Nat × Nat :=
  match sel with
  | 0 => (24, 0x864CFB) | 1 => (24, 0x800063) | 2 => (24, 0xB2B117) | 3 => (16, 0x1021) | 4 => (11, 0x621)
  | 5 => (6, 0x21) | _ => (8, 0x9B)

/-- The first byte of a region outside the private data alias. -/
def outsideAlias (a n : Nat) : Option Nat := if n = 0 ∨ a + n ≤ 0x40000 then none else some (max a 0x40000)

/-- ACCESS takes precedence over BAD_OPERAND; the regions are looked at source first (R143). -/
def startExc (regions : List (Nat × Nat)) (bad : Bool) (unit : Nat) : Option Exc :=
  match regions.findSome? (fun r => outsideAlias r.1 r.2) with
  | some a => some { cause := 3, addr := a }
  | none => if bad then some { cause := 0xC, info := 16 + unit } else none

/-- Operand checks of a CRC start; the bytes of a source whose length is out of range are not known (R143, R154). -/
def crcExc (k : Core) (w : Nat) : Option Exc :=
  let n := k.sN (opB w)
  let dst := k.sN (opB w + 1)
  let range := decide (1 ≤ n ∧ n ≤ 65536)
  startExc ((if range then [(k.sN (opA w), ceilDiv n 8)] else []) ++ [(dst, 4)]) (!range || dst % 4 ≠ 0) 0

/-- Operand checks of a sort start (R143, R161). -/
def sortExc (k : Core) (w : Nat) : Option Exc :=
  let b := k.sN (opB w)
  let n := b % 8192
  let kk := fld b 22 16
  let src := k.sN (opA w)
  let dst := k.sN (opB w + 1)
  let range := decide (1 ≤ n ∧ n ≤ 4096 ∧ 1 ≤ kk ∧ kk ≤ 64)
  let overlap := decide (src < dst + 8 * kk ∧ dst < src + 8 * n)
  let resv := decide (fld b 15 13 ≠ 0) || decide (fld b 31 23 ≠ 0)
  startExc (if range then [(src, 8 * n), (dst, 8 * kk)] else []) (!range || resv || src % 8 ≠ 0 || dst % 8 ≠ 0 || overlap) 3

/-- A start that the unit refuses: PD := all ones, and the refusal is counted (R142). -/
def startBusy (c : Nat) (k : Core) (w : Nat) : Later :=
  fun d => exposeAll c 1 [k.wrP (cxPD w) (allBits true)] (d.coreCount c 2 1)

/-- An accepted start: PD := 0, the status register is cleared, and the acceptance is counted (R142, R162). -/
def startOk (c : Nat) (k : Core) (w unit : Nat) (g : Attached) : Later := fun d =>
  let d := d.setAttached (c / 8) g
  let k' := (d.core c).setCrN (cxStatus unit) 0
  let d := d.setCore c (k'.setCr 0x110 (k'.cr 0x110 + 1))
  exposeAll c 1 [k.wrP (cxPD w) (allBits false)] d

/-- CX0 start (R142, R154). -/
def crcStart (c pc : Nat) (k : Core) (w : Nat) : Later := fun d =>
  let g := d.attached (c / 8)
  match g.crc with
  | some _ => startBusy c k w d
  | none =>
    let j : CrcJob := {
      core := c
      poly := opSub w % 8
      ones := decide (8 ≤ opSub w)
      src := k.sN (opA w)
      nbits := k.sN (opB w)
      dst := k.sN (opB w + 1)
      bank := k.bank
      eopc := pc }
    startOk c k w 0 { g with crc := some j } d

/-- CX3 start (R142, R161). -/
def sortStart (c pc : Nat) (k : Core) (w : Nat) : Later := fun d =>
  let g := d.attached (c / 8)
  match g.sort with
  | some _ => startBusy c k w d
  | none =>
    let b := k.sN (opB w)
    let j : SortJob := {
      core := c
      largest := decide (opSub w = 0)
      src := k.sN (opA w)
      count := b % 8192
      k := fld b 22 16
      dst := k.sN (opB w + 1)
      bank := k.bank
      eopc := pc }
    startOk c k w 3 { g with sort := some j } d

/-! ### CX1: the inverse unit (R156, R157) -/

/-- A 4 × 4 matrix of ci16 Q15 values from a vector. -/
def invInput (v : BitVec 512) : Mat :=
  matOf 4 4 (fun r c =>
    let x := cxLane 16 v (4 * r + c)
    ⟨(x.1 : Rat) / 32768, (x.2 : Rat) / 32768⟩)

/-- The Hermitian matrix that INVH reads: lanes with c ≤ r, real diagonals. -/
def invhInput (v : BitVec 512) : Mat :=
  let m := invInput v
  matOf 4 4 (fun r c => if c < r then m.at r c else if c = r then ⟨(m.at r r).re, 0⟩ else (m.at c r).conj)

/-- Column elimination step of the exact inverse over the rows of [M | I]; none when no row from `i` on has a pivot. -/
def gaussStep (m : Option Mat) (i : Nat) : Option Mat :=
  match m with
  | none => none
  | some (rows : Mat) =>
    match ((List.range 4).filter (fun r => decide (i ≤ r))).find? (fun r => decide ((rows.at r i).norm2 ≠ 0)) with
    | none => none
    | some p =>
      let rowP := rows.getD p []
      let rowI := rows.getD i []
      let rows := (rows.set p rowI).set i rowP
      let piv := rowP.getD i {}
      let inv := piv.conj.scale (1 / piv.norm2)
      let rowN := rowP.map (fun x => x.mul inv)
      some ((List.range 4).map (fun r =>
        if r = i then rowN
        else
          let f := Mat.at rows r i
          List.zipWith (fun x y => x.sub (f.mul y)) (rows.getD r []) rowN))

/-- The exact inverse; none for a singular matrix. -/
def exactInverse (m : Mat) : Option Mat :=
  let start : Mat := (List.range 4).map (fun r => m.getD r [] ++ (identityMat 4).getD r [])
  ((List.range 4).foldl gaussStep (some start)).map (fun (x : Mat) => x.map (fun r => r.drop 4))

/-- The smallest E for which every part of X · 2^−E lies in [−1, 1) (R157). -/
def invExp (x : Mat) : Option Int :=
  let fits (e : Int) : Bool :=
    let one := pow2 e
    x.all (fun r => r.all (fun z => decide (-one ≤ z.re ∧ z.re < one ∧ -one ≤ z.im ∧ z.im < one)))
  ((List.range 64).map (fun (n : Nat) => (n : Int) - 16)).find? fits

/-- One part of the result: within 2 LSB of the rounded value (R157, assumption log 32). -/
def Dev.invPart (d : Dev) (e : Int) (x : Rat) : Dev × Nat :=
  let v := roundHalfEven (x * pow2 (15 - e))
  (d.used, ofSigned 16 (satS 16 (v + (d.freeBelow 5 : Nat) - 2)))

/-- VD and sD of an inverse. -/
def Dev.invResult (d : Dev) (hermitian : Bool) (va : BitVec 512) : Dev × Nat × Nat :=
  let m := if hermitian then invhInput va else invInput va
  let x := if hermitian then (ldl m 4).map (fun f => f.inverse 4) else exactInverse m
  match x with
  | none => (d, 0, 256)
  | some x =>
    match invExp x with
    | none => (d, 0, 256)
    | some e =>
      if condBound m x ≤ (2 ^ 20 : Nat) then
        let (d, l) := (x.flatMap (fun (r : List CQ) => r.flatMap (fun z => [z.re, z.im]))).foldl
          (fun (acc : Dev × List Nat) v =>
            let (d, n) := acc.1.invPart e v
            (d, acc.2 ++ [n])) (d, [])
        (d, ofLanes 16 l, ofSigned 8 e)
      else
        let v := (d.freeBits 512).toNat
        let d := d.used
        (d.used, v, (d.freeBits 8).toNat)

/-- INV and INVH (R140, R156, R157). -/
def invStart (c pc : Nat) (k : Core) (w : Nat) : Later := fun d =>
  let (d, v, e) := d.invResult (decide (opOf w = some .invh)) (k.v (opA w))
  d.pushOutst c {
    regs := [.v (opD w), sReg k.bank (opB w)]
    wrs := [.v (opD w) (BitVec.allOnes 512) (BitVec.ofNat 512 v), k.wrS (opB w) e]
    cx := true, unit := 1, bank := k.bank, eopc := pc }

/-! ### CX2: the soft demapper (R158 to R160) -/

/-- The odd level of one axis by its bits, most significant first (TS 38.211 5.1.3 to 5.1.6). -/
def axisLevel (bits : List Bool) : Int :=
  match bits with
  | [] => 1
  | b :: rest =>
    let s : Int := if b then -1 else 1
    let inner : Int := match rest with | [] => 1 | _ => (2 ^ rest.length : Nat) - axisLevel rest
    s * inner

/-- The constellation point of the bits of a symbol, as levels; `odd` for π/2-BPSK of odd parity. -/
def cxPoint (m : Nat) (odd : Bool) (bits : List Bool) : Int × Int :=
  if m = 1 then
    let x : Int := if bits.headD false then -1 else 1
    if odd then (-x, x) else (x, x)
  else
    let pick (p : Nat) : List Bool := (List.range (m / 2)).map (fun i => bits.getD (2 * i + p) false)
    (axisLevel (pick 0), axisLevel (pick 1))

/-- The scale c of R158. -/
def demapScale (fn : Nat) : Int :=
  match fn with
  | 0 | 1 | 2 => 5793 | 3 => 2591 | 4 => 1264 | _ => 628

/-- Every symbol value with its point. -/
def cxPoints (fn i : Nat) : List (List Bool × (Int × Int)) :=
  let m := demapBits fn
  let odd := (fn = 0 && i % 2 = 1) || (fn = 1 && i % 2 = 0)
  (List.range (2 ^ m)).map (fun n =>
    let bits := (List.range m).map (fun b => n.testBit b)
    let p := cxPoint m odd bits
    (bits, (demapScale fn * p.1, demapScale fn * p.2)))

/-- The least squared distance to the points whose bit `b` has a value. -/
def minDist (pts : List (List Bool × (Int × Int))) (y : Int × Int) (b : Nat) (v : Bool) : Int :=
  let ds := (pts.filter (fun p => p.1.getD b false = v)).map (fun p =>
    (y.1 - p.2.1) * (y.1 - p.2.1) + (y.2 - p.2.2) * (y.2 - p.2.2))
  ds.foldl min (ds.headD 0)

/-- LLR(i, k) of R159. -/
def demapLlr (pts : List (List Bool × (Int × Int))) (y : Int × Int) (wt b : Nat) : Nat :=
  ofSigned 8 (satS 8 (roundShift 1 ((minDist pts y b true - minDist pts y b false) * (wt : Nat)) 24))

/-- The output bytes of the demapper (R160). -/
def demapBytes (fn : Nat) (va vb : BitVec 512) : List Nat :=
  (List.range 16).flatMap (fun i =>
    let pts := cxPoints fn i
    (List.range (demapBits fn)).map (fun b => demapLlr pts (cxLane 16 va i) (laneN 16 vb (2 * i)) b))

/-- DEMAP (R158 to R160). -/
def demapStart (c pc : Nat) (k : Core) (w : Nat) : Later := fun d =>
  let fn := opSub w
  let bs := demapBytes fn (k.v (opA w)) (k.v (opB w))
  let wr (n : Nat) (l : List Nat) : RegWr := .v n (BitVec.allOnes 512) (BitVec.ofNat 512 (ofLanes 8 l))
  let two := decide (6 ≤ demapBits fn)
  d.pushOutst c {
    regs := [.v (opD w)] ++ (if two then [.v (opD w + 1)] else [])
    wrs := [wr (opD w) (bs.take 64)] ++ (if two then [wr (opD w + 1) (bs.drop 64)] else [])
    cx := true, unit := 2, bank := k.bank, eopc := pc }

/-! ### Issue of CX operations -/

/-- A Level-1 operation: counted, with a free wait for its issue slot (R140, R162, assumption log 33). -/
def levelOne (c : Nat) (f : Later) : Later := fun d =>
  let n := d.freeBelow 64
  let d := d.used.idleCycles c n
  let k := d.core c
  f (d.setCore c (k.setCr 0x110 (k.cr 0x110 + 1)))

/-- The CX operations (R139, R145, R149). -/
def cxRun (c pc : Nat) (k : Core) (w : Nat) : Later :=
  match opOf w with
  | some .crcZero | some .crcOnes => crcStart c pc k w
  | some .topkLargest | some .topkSmallest => sortStart c pc k w
  | some .test => fun d =>
    exposeAll c 1 [k.wrP (cxPD w) (allBits (if cxUnit w = 0 then d.crcBusy c else d.sortBusy c))] d
  | some .kill => fun d => d.killUnit c (cxUnit w)
  | some .inv | some .invh => levelOne c (invStart c pc k w)
  | some .demap => levelOne c (demapStart c pc k w)
  | _ => id

/-- Precise exceptions of CX operations. -/
def cxExc (k : Core) (w : Nat) : Option Exc :=
  match opOf w with
  | some .crcZero | some .crcOnes => crcExc k w
  | some .topkLargest | some .topkSmallest => sortExc k w
  | _ => none

/-! ### Results and ends (R141, R144, R146, R151, R153, R155, R161) -/

/-- The job's core learns of its end. -/
def Dev.jobStatus (d : Dev) (c u : Nat) (gone : Bool) (v : Nat) : Dev :=
  if gone then d else d.setCore c ((d.core c).setCrN (cxStatus u) v)

/-- What a Level-0 job computes from its source bytes: the CRC word, or the sorted entries. -/
def crcResult (j : CrcJob) (bs : List Byte) : List Byte :=
  let g := cxCrc j.poly
  leBytes 4 (crcOf g.1 g.2 j.ones bs j.nbits)

/-- Insertion after entries that come before or are equal: keys in order, equal ones by position. -/
def insEntry (largest : Bool) (e : Int × Nat) : List (Int × Nat) → List (Int × Nat)
  | [] => [e]
  | x :: xs => if (if largest then x.1 < e.1 else e.1 < x.1) then e :: x :: xs else x :: insEntry largest e xs

def sortResult (j : SortJob) (bs : List Byte) : List Byte :=
  let es := (List.range j.count).map (fun i => (toSigned 32 (leAt bs (8 * i) 4), leAt bs (8 * i + 4) 4))
  let sorted := es.foldl (fun l e => insEntry j.largest e l) []
  let pad : Int × Nat := (if j.largest then -2147483648 else 2147483647, 0xFFFFFFFF)
  (List.range j.k).flatMap (fun i =>
    let e := sorted.getD i pad
    leBytes 4 (ofSigned 32 e.1) ++ leBytes 4 e.2)

/-- A Level-0 job ends: by a failed check, by a poisoned read, or with its result written in its final phase. -/
def Dev.jobEnd (d : Dev) (c u : Nat) (chk late gone bank : Bool) (eopc src n dst : Nat) (f : List Byte → List Byte) : Dev :=
  let fail (d : Dev) (code addr : Nat) : Dev :=
    let d := d.jobStatus c u gone (3 + 8 * b2n late + 16 * code)
    if gone then d else d.impArrive c ⟨0xC, addr, 16 * code + u, eopc, bank, false⟩
  if chk then fail d 3 0
  else
    match d.memRead (.core c) src n with
    | (d, .ok bs) => ((d.memWrite (.core c) dst (f bs)).1).jobStatus c u gone (1 + 8 * b2n late)
    | (d, .poison l) => fail d 2 l
    | (d, .decode x) => fail d 2 x

/-- LEVEL_0_JOB_END of cluster `g`'s unit 0 or 3: the unit becomes free (R146). -/
def Dev.levelZeroEnd (d : Dev) (g u : Nat) (chk : Bool) : Dev :=
  let x := d.attached g
  if u = 0 then
    match x.crc with
    | none => d
    | some j =>
      (d.setAttached g { x with crc := none }).jobEnd j.core 0 chk j.late j.gone j.bank j.eopc j.src (ceilDiv j.nbits 8)
        j.dst (crcResult j)
  else
    match x.sort with
    | none => d
    | some j =>
      (d.setAttached g { x with sort := none }).jobEnd j.core 3 chk j.late j.gone j.bank j.eopc j.src (8 * j.count)
        j.dst (sortResult j)

/-- LEVEL_1_RESULT: the oldest operation of the core on the unit delivers its result, or fails its check and is squashed
(R141, R150, R153). -/
def Dev.levelOneResult (d : Dev) (c u : Nat) (chk : Bool) : Dev :=
  match takeFirst (fun (o : Outst) => o.cx && o.unit = u) (d.core c).outst with
  | none => d
  | some (o, rest) =>
    let d := d.setCore c { d.core c with outst := rest }
    if chk then (d.squashCount c 1).impArrive c ⟨0xC, 0, 48 + u, o.eopc, o.bank, false⟩
    else
      let d := d.land c
      o.wrs.foldl (fun (d : Dev) wr => d.setCore c ((d.core c).writeReg wr)) d

end Sys2Proof.Machine
end

