-- ==== Sys2Proof/Machine/CetikIssue.lean ====
section
/-!
DEFINITION. Issue of a core's bundles, repeats, long vectors, TAKE and RETI, and the events that reach a core (R55, R83, R85,
R87, R92, R101, R104, R107 to R111, R135, R136, R140, R148).
-/
namespace Sys2Proof.Machine

/-! ### One operation of a bundle -/

/-- Bit 0 of the predicate governs the whole operation (R82, R127, R139). -/
def wholePred (w : Nat) : Bool :=
  decide (opUnit w < 2) || decide (opOf w = some .vext) || (opUnit w = 3 && decide (0x30 ≤ opCode w))

/-- The operation executes, under the bank and predicates of `k`. -/
def Core.runs (k : Core) (w : Nat) : Bool := !wholePred w || k.enabled w

/-- The precise exception of an operation (R110). -/
def opExc (k : Core) (w : Nat) : Option Exc :=
  if !k.runs w then none
  else match opOf w with
    | some .load | some .loadPi | some .store | some .storePi | some .ldgw | some .ldgd | some .stgw | some .stgd
    | some .aadd => scalarExc k w
    | some .jr | some .mtc | some .trap | some .rptr => controlExc k w
    | some .vld | some .vldPi | some .vst | some .vstPi | some .vldg | some .vstg | some .vacsv | some .vacld => vecExc k w
    | some .vgath | some .vscat => (gathExc k w).map (fun p => p.2)
    | some .crcZero | some .crcOnes | some .topkLargest | some .topkSmallest => cxExc k w
    | _ => none

/-- What an operation of the bundle at `pc` reads at once and does at the end of its issue. -/
def Dev.opRun (d : Dev) (c pc next : Nat) (k : Core) (w : Nat) : Dev × Later :=
  if !k.runs w then (d, id)
  else match opUnit w with
    | 0 | 1 =>
      match opOf w with
      | some .alu | some .addi | some .andi | some .ori | some .xori | some .shi | some .mul | some .cmp | some .plog
      | some .mvsp | some .mvps | some .movw =>
        let r := commonRun k w
        (d, exposeAll c r.1 r.2)
      | _ => if opUnit w = 0 then d.controlOp c pc next k w else d.scalarMem c pc k w
    | 2 => (d, v0Run c k w)
    | _ =>
      match opOf w with
      | some .vbcast | some .vext | some .vins | some .vperm | some .vsplit | some .vslide => (d, v1Run c k w)
      | some .vgath | some .vscat => d.gathRun c pc k w
      | some .vld | some .vldPi | some .vst | some .vstPi | some .vldg | some .vstg | some .vacsv | some .vacld =>
        d.vecMem c pc k w
      | _ => (d, cxRun c pc k w)

/-- A store to memory. -/
def isStore (w : Nat) : Bool :=
  match opOf w with
  | some .store | some .storePi | some .stgw | some .stgd | some .aadd | some .vst | some .vstPi | some .vstg | some .vscat
  | some .vacsv => true
  | _ => false

/-- The order in which two stores of one bundle reach memory is a free choice (assumption log 34). -/
def Dev.laterOrder (d : Dev) (ls : List (Nat × Later)) : Dev × List (Nat × Later) :=
  if (ls.filter (fun (l : Nat × Later) => isStore l.1)).length < 2 then (d, ls)
  else (d.used, if d.freeBelow 2 = 1 then ls.reverse else ls)

/-- One issue of a legal bundle: an exception of its first operation that raises one, with nothing else written but a
gather's or scatter's committed elements (R110, R132), or its effects and the end of the bundle cycle. -/
def Dev.issueOnce (d : Dev) (c pc next : Nat) (ws : List Nat) : Dev × Option Exc :=
  let d := d.land c
  let k := d.core c
  match ws.findSome? (fun w => (opExc k w).map (fun e => (w, e))) with
  | some (w, e) =>
    if opOf w = some .vgath ∨ opOf w = some .vscat then (d.gathPartial c pc k w e.info, some e) else (d, some e)
  | none =>
    let (d, ls) := ws.foldl (fun (acc : Dev × List (Nat × Later)) w =>
      let (d, f) := acc.1.opRun c pc next k w
      (d, acc.2 ++ [(w, f)])) (d, [])
    let (d, ls) := d.laterOrder ls
    let d := d.setCore c { d.core c with pc := BitVec.ofNat 16 next }
    let d := ls.foldl (fun (d : Dev) l => l.2 d) d
    (d.tick c, none)

/-! ### Stalls before issue (R87, R91, R92, R140, R148) -/

/-- A bundle waits. -/
def Dev.bundleWaits (d : Dev) (c : Nat) (ws : List Nat) : Bool :=
  let k := d.core c
  let owed := k.outst.flatMap (fun o => o.regs)
  let fence := k.errs.any (fun e => e.store) || k.outst.any (fun o => o.atomic)
  ws.any (fun w => (opDests k.bank w ++ opSrcs k.bank w).any (fun r => owed.contains r))
    || ws.any (fun w => k.runs w &&
      (match opOf w with
      | some .fence => fence
      | some .take =>
        fence || decide (k.errs ≠ []) || k.outst.any (fun o => o.cx) || d.crcBusy c || d.sortBusy c
      | some .inv | some .invh => decide (2 ≤ k.cxOuts 1)
      | some .demap => decide (2 ≤ k.cxOuts 2)
      | _ => false))

/-! ### After a bundle -/

/-- The bundle is gone; a recorded imprecise exception is taken at the boundary. -/
def Dev.settleCore (d : Dev) (c : Nat) : Dev :=
  (d.setCore c { d.core c with bundle := [] }).takeImprecise c

/-- An exception of the bundle at `pc`: TRAP returns to the next bundle (R110). -/
def Dev.bundleExc (d : Dev) (c pc next left : Nat) (inRpt : Bool) (e : Exc) : Dev :=
  d.takeExc c e (if e.cause = 4 then next else pc) left false inRpt false pc

/-! ### Operations that are alone in their bundle -/

/-- TAKE (R55, R66, R92): the held node completes, a pending change of membership takes effect, and the core waits. -/
def Dev.takeIssue (d : Dev) (c next : Nat) (k : Core) (w : Nat) : Dev :=
  let d := d.setCore c { d.core c with pc := BitVec.ofNat 16 next, bundle := [] }
  let d := d.tick c
  let pool := (d.member c).pool
  let d := (d.completeHeld c (k.sN (opA w) % 256)).applyPending c
  let d := match pool with | some p => if (d.member c).pool ≠ some p then d.emptyReady p else d | none => d
  let t : TakeWait := { dst := sReg k.bank (opD w), since := d.smd.order }
  let d := d.setCore c { d.core c with take := some t }
  { d with smd := { d.smd with order := d.smd.order + 1 } }

/-- RETI (R104): the reverse switch; every foreground result in flight is written before the foreground resumes (R106). -/
def Dev.retiIssue (d : Dev) (c : Nat) : Dev :=
  let d := d.tick c
  let d := d.land c
  let k := d.core c
  let left := (k.cr 0x30).toNat
  let k' := (k.setCrN 0x4 ((k.cr 0x18).toNat % 2)).setCrN 0x30 0
  let d := d.setCore c { k' with
    pc := (k.cr 0x14).setWidth 16, vri := (k.cr 0x2C).setWidth 12, bundle := [],
    rptNext := if left = 0 then none else some (left, none) }
  let d := d.tick c
  ((d.land c).landAll c (fun f => f.fg)).takeImprecise c

/-- One element group of LV, or its end (R132, R135, R136). -/
def Dev.lvIssue (d : Dev) (c pc next w : Nat) : Dev :=
  let d := d.land c
  let k := d.core c
  let start := k.vri.toNat
  let finish (d : Dev) : Dev :=
    (d.setCore c { d.core c with vri := 0, pc := BitVec.ofNat 16 next, lv := false }).settleCore c
  if k.vlen ≤ start then finish (d.tick c)
  else
    match lvExc k w with
    | some (e, x) =>
      let d := d.lvGroup c pc k w ((lvElems k).filter (fun i => decide (i < e)))
      let d := d.setCore c { d.core c with vri := BitVec.ofNat 12 e }
      d.bundleExc c pc next 0 false x
    | none =>
      let d := (d.lvGroup c pc k w (lvElems k)).tick c
      if k.vlen ≤ start + 16 then
        let d := (d.landAll c (fun f => f.lv && f.fg = !k.bank)).idleCycles c 5
        finish d
      else d.setCore c { d.core c with vri := BitVec.ofNat 12 (start + 16), lv := true }

/-! ### Issue of a complete bundle -/

/-- Why a bundle is illegal where it stands: R83, RETI outside the shadow bank (R104), an LV overlap (R134). -/
def Core.illegal (k : Core) (ws : List Nat) : Option Nat :=
  match badOp k.pc.toNat ws with
  | some u => some u
  | none =>
    match ws.find? (fun w => (decide (opOf w = some .reti) && !k.bank) || (decide (opOf w = some .lv) && lvOverlap k w)) with
    | some w => some (opUnit w)
    | none => none

/-- Iterations of a repeated bundle: an exception in one leaves the rest to RETI (R107, R109). -/
def Dev.rptLoop (c pc next : Nat) (ws : List Nat) : Nat → Dev → Dev
  | 0, d => (d.setCore c { d.core c with rptNext := none }).settleCore c
  | n + 1, d =>
    match d.issueOnce c pc next ws with
    | (d, none) => Dev.rptLoop c pc next ws n d
    | (d, some e) => d.bundleExc c pc next (n + 1) true e

/-- The words of the bundle that a core has been given. -/
def Core.words (k : Core) : List Nat := k.bundle.map (fun w => w.toNat)

/-- The bundle has its last operation: END, a fifth operation, or the end of program memory (R83). -/
def Core.complete (k : Core) : Bool :=
  match k.words.getLast? with
  | some w => opEnd w || decide (5 ≤ k.bundle.length) || decide (0xFFFF < k.pc.toNat + 4 * k.bundle.length)
  | none => false

/-- A bundle that RPT repeats (R107, R108). -/
def Dev.issueRepeated (d : Dev) (c n : Nat) (src : Option Nat) (ws : List Nat) : Dev :=
  let k := d.core c
  let pc := k.pc.toNat
  let next := pc + 4 * ws.length
  let tickRpt (d : Dev) : Dev := if src.isSome then (d.tick c).land c else d
  if n = 0 then
    let d := (tickRpt d).tick c
    (d.setCore c { d.core c with pc := BitVec.ofNat 16 next, rptNext := none }).settleCore c
  else
    match src, noRepeat ws with
    | some a, some u => d.bundleExc c a next 0 false { cause := 1, info := u }
    | _, _ =>
      if d.bundleWaits c ws then d
      else
        let d := tickRpt d
        match k.illegal ws with
        | some u => d.bundleExc c pc next n true { cause := 1, info := u }
        | none => Dev.rptLoop c pc next ws n d

/-- A bundle outside a repeat. -/
def Dev.issuePlain (d : Dev) (c : Nat) (ws : List Nat) : Dev :=
  let k := d.core c
  let pc := k.pc.toNat
  let next := pc + 4 * ws.length
  match k.illegal ws with
  | some u => d.bundleExc c pc next 0 false { cause := 1, info := u }
  | none =>
    if d.bundleWaits c ws then d
    else
      let w := ws.headD 0
      let rpt (n : Nat) : Dev :=
        d.setCore c { k with pc := BitVec.ofNat 16 next, bundle := [], rptNext := some (n, some pc) }
      let plain : Dev :=
        match d.issueOnce c pc next ws with
        | (d, none) => d.settleCore c
        | (d, some e) => d.bundleExc c pc next 0 false e
      if !k.runs w || (opExc k w).isSome then plain
      else match opOf w with
        | some .take => d.takeIssue c next k w
        | some .reti => d.retiIssue c
        | some .rpt => rpt (fld w 11 0 + 1)
        | some .rptr => rpt (k.sN (opA w))
        | some .lv => d.lvIssue c pc next w
        | _ => plain

/-- The core can issue: it is out of reset, running and not blocked in TAKE. -/
def Dev.coreRuns (d : Dev) (c : Nat) : Bool :=
  let k := d.core c
  k.released && !k.stopped && k.take.isNone
    && (match d.power (pwrCluster (c / 8)) with | .doze | .off => false | _ => true)

/-- A complete bundle issues or waits; at its boundary an enabled interrupt comes first (R101), and a poisoned line of
program memory under it raises POISON (R347). -/
def Dev.tryIssue (d : Dev) (c : Nat) (fresh : Bool) : Dev :=
  let d := d.land c
  let k := d.core c
  match if fresh && k.mayAccept then d.dueLine c else none with
  | some line => d.acceptLine c line
  | none =>
    let ws := k.words
    let pc := k.pc.toNat
    let (d, f) := if fresh then d.memRead (.core c) (0x40000 + pc) (min (4 * ws.length) (0x10000 - pc)) else (d, .ok [])
    match f with
    | .poison l => d.takeExc c { cause := 9, addr := l } pc (match k.rptNext with | some (n, _) => n | none => 0) true false false pc
    | _ =>
      match k.rptNext with
      | some (n, src) => d.issueRepeated c n src ws
      | none => d.issuePlain c ws

/-- A bundle that has waited is tried again; the cycles it waited are free (R85, R115). -/
def Dev.retryIssue (d : Dev) (c : Nat) : Dev :=
  let k := d.core c
  if d.coreRuns c && k.complete && !k.lv && !d.bundleWaits c k.words then
    let n := (d.freeBits 32).toNat
    (d.used.idleCycles c n).tryIssue c false
  else d

/-- The next operation that a core executes. -/
def Dev.coreOp (d : Dev) (c : Nat) (w : BitVec 32) : Dev :=
  let k := d.core c
  if !d.coreRuns c then d
  else if k.lv then
    if decide (k.bundle ≠ [w]) then d
    else match if k.mayAccept then d.dueLine c else none with
      | some line => d.acceptLine c line
      | none => d.lvIssue c k.pc.toNat (k.pc.toNat + 4) w.toNat
  else if k.complete then d
  else
    let k' := { k with bundle := k.bundle ++ [w] }
    let d := d.setCore c k'
    if k'.complete then d.tryIssue c true else d

/-! ### Events that reach a core -/

/-- EXPOSED_RESULT: results whose latency has ended are written (R85). -/
def Dev.exposedResult (d : Dev) (c : Nat) : Dev := d.land c

/-- SCOREBOARD_RESULT: a response arrives, is written after exposed results of the same cycle, and its bits are cleared
(R87). -/
def Dev.scoreboardResult (d : Dev) (c i : Nat) : Dev :=
  let k := d.core c
  match (k.outst.filter (fun o => !o.cx && o.err.isNone))[i]? with
  | none => d
  | some o =>
    let d := (d.setCore c { k with outst := k.outst.erase o }).land c
    let d := o.wrs.foldl (fun (d : Dev) wr => d.setCore c ((d.core c).writeReg wr)) d
    d.retryIssue c

/-- IMPRECISE_EXCEPTION: an error response arrives; a scoreboarded operation writes nothing and its bits are cleared
(R111). -/
def Dev.errorResponse (d : Dev) (c i : Nat) : Dev :=
  let k := d.core c
  match k.errs[i]? with
  | some e => ((d.setCore c { k with errs := k.errs.eraseIdx i }).impArrive c e).retryIssue c
  | none =>
    match (k.outst.filter (fun o => !o.cx && o.err.isSome))[i - k.errs.length]? with
    | none => d
    | some o =>
      let d := d.setCore c { k with outst := k.outst.erase o }
      match o.err with
      | some e => (d.impArrive c e).retryIssue c
      | none => d

/-- INTERRUPT_ACCEPT (R101). -/
def Dev.acceptInterrupt (d : Dev) (c : Nat) : Dev :=
  let d' := d.land c
  let k := d'.core c
  if k.released && k.mayAccept && (!k.complete || k.lv) && decide (d.power (pwrCluster (c / 8)) ≠ .off) then
    match d'.dueLine c with
    | some line => d'.acceptLine c line
    | none => d
  else d

/-- LEVEL_1_RESULT and LEVEL_0_JOB_END, and the bundle that waited for them. -/
def Dev.deliverL1 (d : Dev) (c u : Nat) (chk : Bool) : Dev := (d.levelOneResult c u chk).retryIssue c
def Dev.endL0 (d : Dev) (g u : Nat) (chk : Bool) : Dev :=
  let x := d.attached g
  let c := if u = 0 then x.crc.map (fun j => j.core) else x.sort.map (fun j => j.core)
  match c with
  | some c => (d.levelZeroEnd g u chk).retryIssue c
  | none => d

end Sys2Proof.Machine
end

