-- ==== Sys2Proof/Machine/CipherRun.lean ====
section
/-!
DEFINITION. Cipher jobs: taking one, its checks, the operations, withholding and completion (R431 to R452).
-/
namespace Sys2Proof.Machine

/-! ### The descriptor (R436, R437) -/

/-- A cipher descriptor with its arguments put in place. -/
structure CDesc where
  op     : Nat
  dir    : Nat
  cls    : Nat
  ivsrc  : Bool
  tagLen : Nat
  trim   : Nat
  cplQ   : Nat
  cplV   : Bool
  slot   : Nat
  page   : Nat
  len    : Nat
  aadLen : Nat
  iv     : List Byte
  inA    : Nat
  outA   : Nat
  aadA   : Nat
  tagA   : Nat
  deriving DecidableEq, Repr

/-- An address of the descriptor, or the argument that names it (R170, R436): targets 1 IN, 2 OUT, 3 AAD, 4 TAG. -/
def cphArg (bs : List Byte) (tgt : Nat) : Nat :=
  let c := leAt bs 0 4
  if fld c 9 7 = tgt then fld (leAt bs 8 8) 39 0
  else if fld c 12 10 = tgt then fld (leAt bs 16 8) 39 0
  else fld (leAt bs (56 + 8 * tgt) 8) 39 0

/-- The descriptor that bytes spell. -/
def parseCph (bs : List Byte) : CDesc :=
  let c := leAt bs 0 4
  let cpl := leAt bs 4 4
  { op := fld c 3 0, dir := fld c 4 4, cls := fld c 5 5, ivsrc := bit c 6, tagLen := fld c 17 13, trim := fld c 20 18,
    cplQ := fld cpl 17 0, cplV := bit cpl 31, slot := leAt bs 32 2 % 1024, page := leAt bs 34 1 % 64, len := leAt bs 36 4,
    aadLen := leAt bs 40 4, iv := (bs.drop 48).take 16, inA := cphArg bs 1, outA := cphArg bs 2, aadA := cphArg bs 3,
    tagA := cphArg bs 4 }

/-- Operation kinds (R434). -/
def CDesc.gcm (c : CDesc) : Bool := c.op = 2
def CDesc.cmac (c : CDesc) : Bool := c.op = 3
def CDesc.nea (c : CDesc) : Bool := c.op = 4 || c.op = 6 || c.op = 8
def CDesc.nia (c : CDesc) : Bool := c.op = 5 || c.op = 7 || c.op = 9
def CDesc.crypts (c : CDesc) : Bool := c.op = 1 || c.gcm || c.nea
def CDesc.tags (c : CDesc) : Bool := c.gcm || c.cmac || c.nia

/-- Message length in bits (R435). -/
def CDesc.bits (c : CDesc) : Nat := 8 * c.len - c.trim

/-- All bytes of a range are 0. -/
def zeroAt (bs : List Byte) (off n : Nat) : Bool := decide (leAt bs off n = 0)

/-- Reserved fields are 0 (R436). -/
def cphReservedOk (bs : List Byte) : Bool :=
  let c := leAt bs 0 4
  decide (fld c 31 21 = 0) && decide (fld c 9 7 ≤ 4) && decide (fld c 12 10 ≤ 4) && decide (fld (leAt bs 4 4) 30 18 = 0)
    && decide (leAt bs 32 2 < 1024) && decide (leAt bs 34 1 < 64) && zeroAt bs 35 1 && zeroAt bs 44 4
    && (List.range 4).all (fun i => decide (fld (leAt bs (64 + 8 * i) 8) 63 40 = 0)) && zeroAt bs 96 32

/-- The IV field is as the operation uses it; it is not used with IVSRC = 1 (R436). -/
def CDesc.ivOk (c : CDesc) : Bool :=
  if c.ivsrc || c.cmac then c.iv.all (fun b => decide (b = 0))
  else if c.op = 1 then true
  else if c.gcm then (c.iv.drop 12).all (fun b => decide (b = 0))
  else decide (leAt c.iv 4 1 < 32) && decide (leAt c.iv 5 1 < 2) && (c.iv.drop 6).all (fun b => decide (b = 0))

/-- LEN and TRIM are within their limits (R437). -/
def CDesc.lenOk (c : CDesc) : Bool :=
  if c.op ≤ 3 then
    c.trim = 0 && (c.op ≠ 1 || decide (1 ≤ c.len))
      && decide (c.len ≤ if c.cls = 1 && !(c.gcm && c.dir = 1) then 2 ^ 30 else 65536)
  else decide (1 ≤ c.len) && decide (c.len ≤ 65536)

/-- TAGLEN is one that the operation has (R437). -/
def CDesc.tagOk (c : CDesc) : Bool :=
  if c.gcm then [4, 8, 12, 13, 14, 15, 16].contains c.tagLen
  else if c.cmac then decide (4 ≤ c.tagLen) && decide (c.tagLen ≤ 16)
  else if c.nia then c.tagLen = 4 else c.tagLen = 0

/-- Check 1 of R440 but for the page and class. -/
def cphDescOk (bs : List Byte) : Bool :=
  let c := parseCph bs
  cphReservedOk bs && decide (1 ≤ c.op) && decide (c.op ≤ 9) && c.lenOk && c.tagOk && c.ivOk && !(c.ivsrc && c.cmac)
    && (if c.gcm then decide (c.aadLen ≤ 65536) else c.aadLen = 0 && c.aadA = 0)
    && (c.crypts || c.outA = 0) && (c.tags || c.tagA = 0)

/-! ### Windows (R433) -/

/-- A window's memory is cluster memory, Pool or DDR5. -/
def Dev.windowPlace (d : Dev) (a : Nat) : Bool :=
  let r := (d.locate .supervisor a).1
  r = .cluster || r = .pool || r = .ddr

/-- An extent lies inside one window of a page with the permission asked for; an empty extent always does. -/
def Dev.inWindows (d : Dev) (page a n : Nat) (write : Bool) : Bool :=
  n = 0 || (List.range 4).any (fun w =>
    let (base, s, r, wr) := Config.cphWindow (BitVec.ofNat 64 (d.par 0x70 0x11 (4 * page + w)))
    (if write then wr else r) && decide (base.toNat ≤ a) && decide (a + n ≤ base.toNat + 2 ^ (12 + s.val))
      && d.windowPlace a && d.windowPlace (a + n - 1))

/-- Check 3 of R440. -/
def Dev.cphExtents (d : Dev) (c : CDesc) : Bool :=
  let p := c.page
  d.inWindows p c.inA c.len false && (!c.gcm || d.inWindows p c.aadA c.aadLen false)
    && (!c.crypts || d.inWindows p c.outA (ceilDiv c.bits 8) true)
    && (!c.tags || d.inWindows p c.tagA c.tagLen (c.dir = 0))

/-! ### Faults (R445, R448) -/

/-- A key that suits an operation (R434): 0 AES-128, 1 AES-256, 2 SNOW 3G, 3 ZUC. -/
def CDesc.keyOk (c : CDesc) (ktype : Nat) : Bool :=
  match c.op with
  | 1 | 2 | 3 => decide (ktype ≤ 1)
  | 4 | 5 => ktype = 2
  | 6 | 7 => ktype = 0
  | _ => ktype = 3

/-- Class and number of a cipher engine by its index. -/
def cphCls (e : Nat) : Nat := if e < 8 then 6 else 7
def cphNum (e : Nat) : Nat := if e < 8 then e else e - 8

/-- Supervisor records a fault of an engine; after 3 within 1 s it stops giving it work and the slot that the engine's job
latched is zeroised (R448). -/
def Dev.cphFault (d : Dev) (e : Nat) (slot : Option Nat) : Dev :=
  let d := d.fault 2 1 10 e 0x15
  let v := d.ceng e
  let recent := (v.faults ++ [d.time.raw]).filter (fun t => decide (d.nsSince t < 10 ^ 9))
  let d := d.setCeng e { v with faults := recent, nFault := (v.nFault + 1) % 2 ^ 32 }
  if recent.length < 3 || v.stopped then d
  else
    let d := d.setCeng e { d.ceng e with stopped := true }
    let d := match slot with | some k => d.zeroiseSlot k | none => d
    d.fault 3 1 10 e 0

/-- The slot's key is latched; a counter value is reserved with IVSRC = 1 (R440, R444, R445). -/
def Dev.cphLatch (d : Dev) (j : CJob) (c : CDesc) : Dev × CJob :=
  let s := d.keySlot c.slot
  if s.badPar then
    (((d.zeroiseSlot c.slot).fault 9 1 12 0 c.slot), { j with slot := some c.slot, status := some (0x37, none) })
  else
    let j := { j with slot := some c.slot, key := s.key, fixed := s.fixed }
    if !c.ivsrc then (d, j)
    else
      let n := s.next.toNat
      let spent := s.next + 1 = s.limit
      let d := d.setKeySlot c.slot { s with next := s.next + 1, st := if spent then 2 else s.st }
      let d := if spent then (d.cphInt c.page 3).bump (cphCnt c.page 4) else d
      (d, { j with ctr := some n })

/-- The checks of R440 in order, then the latch. -/
def Dev.cphCheck (d : Dev) (e : Nat) (j : CJob) : Dev × CJob :=
  let c := parseCph j.bytes
  let no := fun (s : Nat) => (d, { j with status := some (s, none) })
  let pageOk := match j.page with | some u => c.page = u | none => c.cls = (if e < 8 then 0 else 1)
  let s := d.keySlot c.slot
  if !cphDescOk j.bytes || !pageOk then no 0x10
  else if j.page.isNone && !(bit (d.cphAccess c.page) 24 && bit (d.cphAccess c.page) 31) then no 0x35
  else if !d.cphExtents c then no 0x34
  else if d.slotOwner c.slot ≠ some c.page then no 0x31
  else if s.st = 0 then no 0x30
  else if s.st = 2 && c.ivsrc then no 0x33
  else if !c.keyOk s.ktype || (c.ivsrc && !s.hwctr) then no 0x31
  else d.cphLatch j c

/-! ### Taking a job (R431) -/

/-- The cipher engines run: a Service mode, enabled by P 0x70.0001 (R454). -/
def Dev.cphOn (d : Dev) : Bool := (d.pwr.mode = 4 || d.pwr.mode = 5) && decide (d.par 0x70 1 0 ≠ 0)

/-- JOB record of a cipher job (R541). -/
def Dev.cphTrace (d : Dev) (e : Nat) (j : CJob) (ended : Bool) (status : Nat) : Dev :=
  let s : Option Job := match j.smilda with
    | some k => d.smd.jobs.find? (fun x => x.cls = cphCls e && x.unit = cphNum e && x.stage = k)
    | none => none
  d.trace 4 0 (jobTrace ((s.map (fun x => handleOf x.inst x.gen)).getD 0) ((s.map (·.node)).getD 0) (cphCls e) (cphNum e)
    false ended status)

/-- A taken job starts: the engine wakes from Nap, and the job is checked (R166, R440). -/
def Dev.cphStart (d : Dev) (e : Nat) (j : CJob) : Dev :=
  let d := match j.smilda with | some k => d.markStarted (cphCls e) (cphNum e) k | none => d
  let d := d.cphTrace e j false 0
  let i := pwrEng (cphCls e) (cphNum e)
  let d := if d.power i = .nap then d.setPower i .active else d
  let (d, j) := if j.status.isSome then (d, j) else d.cphCheck e j
  d.setCeng e { d.ceng e with run := some j }

/-- The next entry of the engine's Smilda queue that names one of its own staging entries; others are discarded and
counted (R431). -/
def Dev.cphEntryGo : Nat → Dev → Nat → Nat → Dev × Option (List Byte)
  | 0, d, _, _ => (d, none)
  | f + 1, d, e, q =>
    match d.takeEntry q with
    | (d, none) => (d, none)
    | (d, some (_, bs)) =>
      if inOwnStage (cphCls e) (cphNum e) (fld (leAt bs 0 8) 39 0) then (d, some bs)
      else Dev.cphEntryGo f (d.setCeng e { d.ceng e with nDiscard := ((d.ceng e).nDiscard + 1) % 2 ^ 32 }) e q

/-- A Smilda-path job from its entry (R431, R578). -/
def Dev.cphSmildaJob (d : Dev) (e : Nat) (bs : List Byte) : CJob :=
  let a := fld (leAt bs 0 8) 39 0
  let j : CJob := { smilda := some (a / 256) }
  if !entryReservedOk bs || leAt bs 8 1 % 8 ≠ 3 then { j with status := some (0x10, none) }
  else if a % 64 ≠ 0 then { j with status := some (0x13, none) }
  else { j with bytes := d.stageBytes (cphCls e) (cphNum e) a 128 }

/-- The class that a page-path job asks for, as its descriptor in memory says; none where it is not read (R433). -/
def Dev.cphPeek (d : Dev) (u a : Nat) : Option Nat :=
  if a % 64 ≠ 0 || !d.inWindows u a 128 false then none
  else
    match (d.busRead (.cipher 0) a 128).2 with
    | .ok bs => some (fld (leAt bs 0 4) 5 5)
    | _ => none

/-- The oldest job of a page that this engine may take: its place in the FIFO (R431). -/
def Dev.cphOldest (d : Dev) (u e : Nat) : Option Nat :=
  let want := if e < 8 then 0 else 1
  (List.range (d.cpage u).fifo.length).find? (fun i =>
    match d.cphPeek u ((d.cpage u).fifo.getD i 0) with
    | some c => c = want
    | none => true)

/-- A page-path job from a submission (R433, R440): an unaligned address is BAD_DESC, one outside the windows ACCESS. -/
def Dev.cphPageJob (d : Dev) (u a e : Nat) : Dev × CJob :=
  let j : CJob := { page := some u }
  if !d.inWindows u a 128 false then (d, { j with status := some (0x34, none) })
  else if a % 64 ≠ 0 then (d, { j with status := some (0x10, none) })
  else
    match d.busRead (.cipher e) a 128 with
    | (d, .ok bs) => (d, { j with bytes := bs })
    | (d, .decode x) => (d, { j with status := some (0x11, some x) })
    | (d, .poison x) => (d, { j with status := some (0x12, some x) })

/-- CIPHER_TAKE: an idle engine takes the head of its Smilda queue, else the oldest page-path job of its class, pages in
round-robin order after the one served last (R431). -/
def Dev.cphTake (d : Dev) (e : Nat) : Dev :=
  let v := d.ceng e
  let i := pwrEng (cphCls e) (cphNum e)
  if !d.cphOn || v.stopped || v.run.isSome || !(d.power i = .active || d.power i = .nap) then d
  else
    let q := d.par 0x70 2 e
    let (d, own) := Dev.cphEntryGo ((d.queue q).occ + 1) d e q
    match own with
    | some bs => d.cphStart e (d.cphSmildaJob e bs)
    | none =>
      let order := (List.range 64).map (fun i => (v.lastPage + 1 + i) % 64)
      match order.find? (fun u => (d.cphOldest u e).isSome) with
      | none => d
      | some u =>
        let p := d.cpage u
        let k := (d.cphOldest u e).getD 0
        let d := d.setCpage u { p with fifo := p.fifo.eraseIdx k }
        let d := d.setCeng e { d.ceng e with lastPage := u }
        let (d, j) := d.cphPageJob u (p.fifo.getD k 0) e
        d.cphStart e j

/-! ### The operations (R434, R435, R438, R446) -/

/-- The IV that CTR and GCM use: 16 bytes for CTR, 12 for GCM (R438). -/
def CJob.iv (j : CJob) (c : CDesc) : List Nat :=
  match j.ctr with
  | some n => beN 4 j.fixed.toNat ++ beN 8 n ++ (if c.gcm then [] else [0, 0, 0, 0])
  | none => toNats (if c.gcm then c.iv.take 12 else c.iv)

/-- COUNT, BEARER and DIRECTION of a 3GPP operation (R438). -/
def CJob.count (j : CJob) (c : CDesc) : Nat × Nat × Nat :=
  match j.ctr with
  | some n => (n % 2 ^ 32, j.fixed.toNat % 32, b2n (j.fixed.getLsbD 5))
  | none => (leAt c.iv 0 4, leAt c.iv 4 1 % 32, leAt c.iv 5 1 % 2)

/-- Number of the 3GPP algorithm. -/
def CDesc.alg (c : CDesc) : Nat := c.op / 2 - 1

/-- The output bytes of an encryption or decryption. -/
def CJob.crypt (j : CJob) (c : CDesc) (data : List Byte) : List Byte :=
  let key := toNats j.key
  let x := toNats data
  ofNats (
    if c.op = 1 then
      xorN x (ctrStream (aesKeys key) (if c.ivsrc then 32 else 128) (ofBe (j.iv c)) x.length)
    else if c.gcm then gcmCrypt (aesKeys key) (j.iv c) x
    else
      let (n, b, dir) := j.count c
      nea c.alg key n b dir x c.bits)

/-- The tag over additional data and the text it covers, TAGLEN bytes (R435). -/
def CJob.mac (j : CJob) (c : CDesc) (aad text : List Byte) : List Byte :=
  let key := toNats j.key
  (ofNats (
    if c.gcm then gcmTag (aesKeys key) (j.iv c) (toNats aad) (toNats text)
    else if c.cmac then beN 16 (Machine.cmac (aesKeys key) (toNats text) (8 * c.len))
    else
      let (n, b, dir) := j.count c
      Machine.nia c.alg key n b dir (toNats text) c.bits)).take c.tagLen

/-- Read an operand; an error ends the job, with output written up to a free count (R447). -/
def Dev.cphRead (d : Dev) (e a n : Nat) : Dev × Except (Nat × Nat) (List Byte) :=
  if n = 0 then (d, .ok [])
  else
    match d.busRead (.cipher e) a n with
    | (d, .ok bs) => (d, .ok bs)
    | (d, .decode x) => (d, .error (0x11, x))
    | (d, .poison x) => (d, .error (0x12, x))

/-- The job ends; `most` bounds the OUT bytes that it may have written by then. -/
def Dev.cphEnd (d : Dev) (e : Nat) (j : CJob) (status : Nat) (addr : Option Nat) (most : Nat) : Dev :=
  let n := d.freeBelow (most + 1)
  d.used.setCeng e { d.used.ceng e with run := some { j with status := some (status, addr), wrote := max j.wrote n } }

/-- Write the output; answers the error of a write that failed. -/
def Dev.cphOut (d : Dev) (e : Nat) (c : CDesc) (out : List Byte) : Dev × Option (Nat × Nat) :=
  if out = [] then (d, none)
  else
    let (d, w) := d.busWrite (.cipher e) c.outA out
    (d, wrespStatus w)

/-- A verifying operation compares the computed tag with TAG (R446, R448). -/
def Dev.cphVerify (d : Dev) (e : Nat) (j : CJob) (c : CDesc) (tag : List Byte) : Dev × CJob :=
  match d.cphRead e c.tagA c.tagLen with
  | (d, .error (s, a)) => (d, { j with status := some (s, some a) })
  | (d, .ok got) =>
    if got = tag then (d, { j with status := some (0, none) })
    else (d, { j with status := some (1, none), authFail := true })

/-- A job whose output has been made writes it and ends: OK, or the error of the write. -/
def Dev.cphRelease (d : Dev) (e : Nat) (j : CJob) (c : CDesc) (out tag : List Byte) : Dev :=
  match d.cphOut e c out with
  | (d, none) => d.setCeng e { d.ceng e with run := some { j with status := some (0, none), wrote := out.length, tag := tag } }
  | (d, some (s, a)) => d.setCeng e { d.ceng e with run := some { j with status := some (s, some a), wrote := out.length } }

/-- GCM decryption (R446): one pass with a hold buffer on bulk; on lite the first pass verifies and the second releases. -/
def Dev.cphOpen (d : Dev) (e : Nat) (j : CJob) (c : CDesc) (aad text : List Byte) : Dev :=
  let full := j.mac { c with tagLen := 16 } aad text
  if j.step = 0 then
    let (d, v) := d.cphVerify e j c (full.take c.tagLen)
    let go := v.status = some (0, none) && decide (c.len ≠ 0)
    if !go then d.setCeng e { d.ceng e with run := some v }
    else if e < 8 then d.setCeng e { d.ceng e with run := some { j with step := 1, tag := full } }
    else d.cphRelease e j c (j.crypt c text) []
  else if full = j.tag then d.cphRelease e j c (j.crypt c text) []
  else
    let (d, _) := d.cphOut e c (j.crypt c text)
    d.setCeng e { d.ceng e with run := some { j with status := some (0x36, none), wrote := c.len, tag := [] } }

/-- One operation of a running job whose OP is `op`; `fault` says that a check of R448 fails. -/
def Dev.cphRun (d : Dev) (e op : Nat) (fault : Bool) : Dev :=
  match (d.ceng e).run with
  | none => d
  | some j =>
    let c := parseCph j.bytes
    let streams := if c.crypts && !(c.gcm && c.dir = 1 && j.step = 0) then ceilDiv c.bits 8 else 0
    if j.status.isSome || c.op ≠ op then d
    else if fault then (d.cphEnd e j 0x15 none (if c.gcm && c.dir = 1 && 8 ≤ e then 0 else streams)).cphFault e j.slot
    else
      match d.cphRead e c.aadA (if c.gcm then c.aadLen else 0) with
      | (d, .error (s, a)) => d.cphEnd e j s (some a) 0
      | (d, .ok aad) =>
        match d.cphRead e c.inA c.len with
        | (d, .error (s, a)) => d.cphEnd e j s (some a) (if c.gcm && c.dir = 1 && 8 ≤ e then 0 else min streams (a + 64 - c.inA))
        | (d, .ok text) =>
          if c.gcm && c.dir = 1 then d.cphOpen e j c aad text
          else if c.crypts then
            let out := j.crypt c text
            d.cphRelease e j c out (if c.gcm then j.mac c aad out else [])
          else if c.dir = 1 then
            let (d, v) := d.cphVerify e j c (j.mac c [] text)
            d.setCeng e { d.ceng e with run := some v }
          else d.setCeng e { d.ceng e with run := some { j with status := some (0, none), tag := j.mac c [] text } }

/-! ### Completion (R447 to R450) -/

/-- The completion word. -/
def CJob.word (j : CJob) (c : CDesc) (status : Nat) : Nat :=
  c.outA + 2 ^ 40 * status + 2 ^ 48 * b2n j.authFail + 2 ^ 49 * b2n c.ivsrc

/-- A generating operation writes its tag; an error of that write ends the job with it (R446, R450). -/
def Dev.cphTag (d : Dev) (e : Nat) (j : CJob) (c : CDesc) : Dev × CJob :=
  if j.status = some (0, none) && c.tags && c.dir = 0 && decide (0 < c.tagLen) then
    match d.busWrite (.cipher e) c.tagA j.tag with
    | (d, .ok) => (d, j)
    | (d, w) => (d, { j with status := (wrespStatus w).map (fun p => (p.1, some p.2)) })
  else (d, j)

/-- The page whose counters a job's completion updates. -/
def CJob.pageOf (j : CJob) (c : CDesc) : Option Nat :=
  match j.page with
  | some u => some u
  | none => if j.bytes = [] then none else some c.page

/-- Page registers of a completion (R449, R454). -/
def Dev.cphCount (d : Dev) (u status len : Nat) (authFail : Bool) : Dev :=
  let d := d.bump (cphCnt u 0)
  let d := if isSuccess status then d.bumpBy (cphCnt u 3) len else (d.cphInt u 0).bump (cphCnt u 1)
  let d := if authFail then (d.cphInt u 1).bump (cphCnt u 2) else d
  if status = 0x32 then (d.cphInt u 4).bump (cphCnt u 5) else d

/-- CIPHER_COMPLETION: the tag is written, or after an error the output is overwritten with zeros; then the completion is
delivered (R447, R449). -/
def Dev.cphComplete (d : Dev) (e : Nat) : Dev :=
  match (d.ceng e).run with
  | none => d
  | some j =>
    if j.status.isNone then d
    else
      let c := parseCph j.bytes
      let (d, j) := d.cphTag e j c
      let (status, addr) := j.status.getD (0, none)
      let d := if isSuccess status || j.wrote = 0 then d else (d.busWrite (.cipher e) c.outA (zeros j.wrote)).1
      let d := d.setCeng e { d.ceng e with run := none }
      let (d, ea) := if isSuccess status then (d, c.outA) else d.errAddr addr
      let d := match j.pageOf c with | some u => d.cphCount u status c.len j.authFail | none => d
      let d := d.cphTrace e j true status
      let w := j.word c status
      match j.smilda with
      | some k =>
        { d with smd := { d.smd with cpls := d.smd.cpls ++ [⟨cphCls e, cphNum e, k, w, status⟩] } }
      | none =>
        if c.cplV && j.bytes ≠ [] then
          d.postHw (.cipher e) c.cplQ (leBytes 2 c.page ++ leBytes 2 c.slot ++ leBytes 4 (w >>> 32)
            ++ leBytes 8 (j.ctr.getD (2 ^ 64 - 1)) ++ leBytes 8 d.now ++ leBytes 8 ea)
        else d

end Sys2Proof.Machine
end

