-- ==== Sys2Proof/Machine/Hss.lean ====
section
/-!
DEFINITION. SHA-256 and the verification of HSS/LMS signatures with the parameters of R522 (FIPS 180-4 and RFC 8554, taken
from those standards; assumption log 18).
-/
namespace Sys2Proof.Machine

/-! ### SHA-256 -/

/-- The 64 round constants. -/
def shaK : List Nat := [
  0x428a2f98, 0x71374491, 0xb5c0fbcf, 0xe9b5dba5, 0x3956c25b, 0x59f111f1, 0x923f82a4, 0xab1c5ed5,
  0xd807aa98, 0x12835b01, 0x243185be, 0x550c7dc3, 0x72be5d74, 0x80deb1fe, 0x9bdc06a7, 0xc19bf174,
  0xe49b69c1, 0xefbe4786, 0x0fc19dc6, 0x240ca1cc, 0x2de92c6f, 0x4a7484aa, 0x5cb0a9dc, 0x76f988da,
  0x983e5152, 0xa831c66d, 0xb00327c8, 0xbf597fc7, 0xc6e00bf3, 0xd5a79147, 0x06ca6351, 0x14292967] ++ [
  0x27b70a85, 0x2e1b2138, 0x4d2c6dfc, 0x53380d13, 0x650a7354, 0x766a0abb, 0x81c2c92e, 0x92722c85,
  0xa2bfe8a1, 0xa81a664b, 0xc24b8b70, 0xc76c51a3, 0xd192e819, 0xd6990624, 0xf40e3585, 0x106aa070,
  0x19a4c116, 0x1e376c08, 0x2748774c, 0x34b0bcb5, 0x391c0cb3, 0x4ed8aa4a, 0x5b9cca4f, 0x682e6ff3,
  0x748f82ee, 0x78a5636f, 0x84c87814, 0x8cc70208, 0x90befffa, 0xa4506ceb, 0xbef9a3f7, 0xc67178f2]

/-- The initial hash value. -/
def shaInit : List Nat :=
  [0x6a09e667, 0xbb67ae85, 0x3c6ef372, 0xa54ff53a, 0x510e527f, 0x9b05688c, 0x1f83d9ab, 0x5be0cd19]

/-- Rotation right of 32 bits. -/
def rotr32 (x n : Nat) : Nat := (x >>> n) ||| ((x <<< (32 - n)) % 2 ^ 32)

/-- The message schedule: 16 words extended to 64, the newest first. -/
def shaExtend : Nat → List Nat → List Nat
  | 0, w => w
  | n + 1, w =>
    let a := w.getD 14 0
    let b := w.getD 1 0
    let s0 := (rotr32 a 7 ^^^ rotr32 a 18) ^^^ (a >>> 3)
    let s1 := (rotr32 b 17 ^^^ rotr32 b 19) ^^^ (b >>> 10)
    shaExtend n (((w.getD 15 0 + s0 + w.getD 6 0 + s1) % 2 ^ 32) :: w)

/-- One round on the eight working words. -/
def shaRound (s : List Nat) (kw : Nat) : List Nat :=
  match s with
  | [a, b, c, d, e, f, g, h] =>
    let s1 := (rotr32 e 6 ^^^ rotr32 e 11) ^^^ rotr32 e 25
    let ch := (e &&& f) ^^^ ((e ^^^ 0xFFFFFFFF) &&& g)
    let t1 := h + s1 + ch + kw
    let s0 := (rotr32 a 2 ^^^ rotr32 a 13) ^^^ rotr32 a 22
    let maj := ((a &&& b) ^^^ (a &&& c)) ^^^ (b &&& c)
    [(t1 + s0 + maj) % 2 ^ 32, a, b, c, (d + t1) % 2 ^ 32, e, f, g]
  | _ => s

/-- One block of 64 bytes. -/
def shaBlock (h : List Nat) (block : List Byte) : List Nat :=
  let w := (List.range 16).reverse.map (fun i => beNat ((block.drop (4 * i)).take 4))
  let ws := (shaExtend 48 w).reverse
  let s := (List.zipWith (fun k w => k + w) shaK ws).foldl shaRound h
  List.zipWith (fun a b => (a + b) % 2 ^ 32) h s

/-- Blocks one after another, within a bound on their number. -/
def shaBlocks : Nat → List Nat → List Byte → List Nat
  | 0, h, _ => h
  | n + 1, h, m => shaBlocks n (shaBlock h (m.take 64)) (m.drop 64)

/-- SHA-256 of a byte string: 32 bytes. -/
def sha256 (m : List Byte) : List Byte :=
  let n := m.length
  let p := m ++ [0x80] ++ zeros ((119 - n % 64) % 64) ++ beBytes 8 (8 * n)
  (shaBlocks (p.length / 64) shaInit p).flatMap (fun w => beBytes 4 w)

/-! ### LM-OTS and LMS (RFC 8554) -/

/-- Type codes of R522: LMS_SHA256_M32_H10 and LMOTS_SHA256_N32_W4. -/
def lmsType : Nat := 6
def otsType : Nat := 3

/-- Big-endian field of a byte string. -/
def beField (bs : List Byte) (off len : Nat) : Nat := beNat ((bs.drop off).take len)
def slice (bs : List Byte) (off len : Nat) : List Byte := (bs.drop off).take len

/-- Coefficient `i` of 4 bits. -/
def coef4 (s : List Byte) (i : Nat) : Nat :=
  let b := (s.getD (i / 2) 0).toNat
  if i % 2 = 0 then b / 16 else b % 16

/-- The checksum of a 32-byte digest: 64 coefficients, shifted left by 4. -/
def cksm (q : List Byte) : List Byte :=
  beBytes 2 (((List.range 64).foldl (fun acc i => acc + (15 - coef4 q i)) 0) * 16)

/-- A chain from coefficient `j` on, `n` steps. -/
def chainGo (pre : List Byte) (i : Nat) : Nat → Nat → List Byte → List Byte
  | 0, _, x => x
  | n + 1, j, x => chainGo pre i n (j + 1) (sha256 (pre ++ beBytes 2 i ++ beBytes 1 j ++ x))

/-- Candidate public key of an LM-OTS signature: identifier, leaf, randomiser, 67 chain values, message. -/
def otsCandidate (iden : List Byte) (q : Nat) (c : List Byte) (ys : List (List Byte)) (msg : List Byte) : List Byte :=
  let pre := iden ++ beBytes 4 q
  let h := sha256 (pre ++ beBytes 2 0x8181 ++ c ++ msg)
  let code := h ++ cksm h
  let zs := ys.zipIdx.flatMap (fun p => chainGo pre p.2 (15 - coef4 code p.2) (coef4 code p.2) p.1)
  sha256 (pre ++ beBytes 2 0x8080 ++ zs)

/-- The root from a leaf value and its path, node number halving up to 1. -/
def lmsRoot (iden : List Byte) : Nat → List Byte → List (List Byte) → List Byte
  | _, x, [] => x
  | n, x, p :: ps =>
    let pair := if n % 2 = 1 then p ++ x else x ++ p
    lmsRoot iden (n / 2) (sha256 (iden ++ beBytes 4 (n / 2) ++ beBytes 2 0x8383 ++ pair)) ps

/-- Sizes in bytes: an LMS signature, an LMS public key. -/
def lmsSigLen : Nat := 2508
def lmsPubLen : Nat := 56

/-- An LMS signature of a message verifies under a public key. -/
def lmsVerify (pub msg sig : List Byte) : Bool :=
  let iden := slice pub 8 16
  let q := beField sig 0 4
  decide (pub.length = lmsPubLen) && decide (sig.length = lmsSigLen) && decide (beField pub 0 4 = lmsType)
    && decide (beField pub 4 4 = otsType) && decide (beField sig 4 4 = otsType) && decide (beField sig 2184 4 = lmsType)
    && decide (q < 1024)
    && (let ys := (List.range 67).map (fun i => slice sig (40 + 32 * i) 32)
        let kc := otsCandidate iden q (slice sig 8 32) ys msg
        let leaf := sha256 (iden ++ beBytes 4 (1024 + q) ++ beBytes 2 0x8282 ++ kc)
        let path := (List.range 10).map (fun i => slice sig (2188 + 32 * i) 32)
        decide (lmsRoot iden (1024 + q) leaf path = slice pub 24 32))

/-- An HSS signature of two levels verifies under a 60-byte public key (R522). -/
def hssVerify (pub msg sig : List Byte) : Bool :=
  let sig0 := slice sig 4 lmsSigLen
  let pub1 := slice sig (4 + lmsSigLen) lmsPubLen
  let sig1 := slice sig (4 + lmsSigLen + lmsPubLen) lmsSigLen
  decide (pub.length = 60) && decide (sig.length = 5076) && decide (beField pub 0 4 = 2) && decide (beField sig 0 4 = 1)
    && lmsVerify (slice pub 4 lmsPubLen) pub1 sig0 && lmsVerify pub1 msg sig1

end Sys2Proof.Machine
end

