-- ==== Sys2Proof/Machine/Apply.lean ====
section
/-!
DEFINITION. Supervisor applies the dictionary's current values to the registers that hold them, and loads what the signal
bundle holds (R64, R73, R81, R199, R338, R360, R368, R398, R419, R424, R427, R457, R552, R567).
-/
namespace Sys2Proof.Machine

/-- Supervisor writes a register word, and a 64-bit register. -/
def Dev.supWrite (d : Dev) (a v : Nat) : Dev := (d.busWrite .supervisor a (leBytes 4 v)).1
def Dev.supWrite64 (d : Dev) (a v : Nat) : Dev := (d.busWrite .supervisor a (leBytes 8 v)).1

/-! ### Time (R424, R427) -/

/-- TMU_CTRL as areas of the dictionary give it. -/
def Dev.tmuCtrlValue (d : Dev) : Nat :=
  let s := d.par 0x20 0x10 0
  b2n (decide (s ≠ 0)) + 2 * b2n (decide (s = 3)) + 4 * (d.par 0x20 0x52 0 % 2)

/-- The register that an item of the Time area holds is written. -/
def Dev.applyTimeItem (d : Dev) (i e : Nat) : Dev :=
  let v := d.par 0x20 i e
  match i with
  | 0x10 => d.supWrite (tmuBase + 4) d.tmuCtrlValue
  | 0x20 => d.supWrite (tmuBase + 0x100 + 8 * e) v
  | 0x21 => d.supWrite (tmuBase + 0x104 + 8 * e) v
  | 0x30 => d.supWrite (tmuBase + 0x80) v
  | 0x31 => d.supWrite (tmuBase + 0xA4) v
  | 0x40 => d.supWrite64 (tmuBase + 0x300) (ofSigned 64 (toSigned 32 v))
  | 0x51 => d.supWrite (tmuBase + 0x208) v
  | 0x52 => d.supWrite (tmuBase + 4) d.tmuCtrlValue
  | 0x60 => d.supWrite (tmuBase + 0xAC) (v % 2 ^ 20 + 2 ^ 24 * (d.par 0x20 0x61 0 % 2))
  | 0x61 => d.supWrite (tmuBase + 0xAC) (d.par 0x20 0x60 0 % 2 ^ 20 + 2 ^ 24 * (v % 2))
  | 0x62 => d.supWrite (tmuBase + 0xB0) v
  | 0x63 => d.supWrite (tmuBase + 0xA8) v
  | _ => d

/-- The TDD table that a BLOB of 1,096 bytes holds (R424). -/
def tddOfBlob (b : List Byte) : TddTab :=
  { period := leAt b 0 4, init := BitVec.ofNat 16 (leAt b 4 2), nev := leAt b 6 2
    adv := (List.range 16).map (fun n => toSigned 32 (leAt b (8 + 4 * n) 4))
    evs := (List.range 128).map (fun n => BitVec.ofNat 64 (leAt b (72 + 8 * n) 8)) }

/-- A table as such a BLOB. -/
def TddTab.blob (t : TddTab) : List Byte :=
  leBytes 4 t.period ++ leBytes 2 t.init.toNat ++ leBytes 2 t.nev
    ++ (List.range 16).flatMap (fun n => leBytes 4 (ofSigned 32 (t.adv.getD n 0)))
    ++ (List.range 128).flatMap (fun n => leBytes 8 (t.evs.getD n 0).toNat)

/-- Supervisor accepts a table: the conditions hold, and events at and above NEV are 0. -/
def TddTab.blobOk (t : TddTab) : Bool := t.ok && (t.evs.drop t.nev).all (fun e => decide (e = 0))

/-- Supervisor writes the staged registers and then COMMIT. -/
def Dev.commitTable (d : Dev) (b : List Byte) : Dev :=
  let d := (d.supWrite (tmuBase + 0x200) (leAt b 0 4)).supWrite (tmuBase + 0x204) (leAt b 4 2)
  let d := d.supWrite (tmuBase + 0x20C) (leAt b 6 2)
  let d := (List.range 16).foldl (fun (d : Dev) n => d.supWrite (tmuBase + 0x240 + 4 * n) (leAt b (8 + 4 * n) 4)) d
  let d := (List.range 128).foldl (fun (d : Dev) n => d.supWrite64 (tmuBase + 0x1000 + 8 * n) (leAt b (72 + 8 * n) 8)) d
  d.supWrite (tmuBase + 0x210) 1

/-- The Time area's values on entry to Standby and to a Service mode; a table that is set and not the active one is
committed. -/
def Dev.applyTime (d : Dev) : Dev :=
  let d := [0x10, 0x30, 0x31, 0x40, 0x51, 0x60, 0x62, 0x63].foldl (fun (d : Dev) i => d.applyTimeItem i 0) d
  let d := (List.range 9).foldl (fun (d : Dev) e => (d.applyTimeItem 0x20 e).applyTimeItem 0x21 e) d
  let b := d.param 0x20 0x50 0
  let t := tddOfBlob b
  if t.blobOk && d.time.tddArmed.isNone && decide (t.blob ≠ d.time.tddAct.blob) then d.commitTable b else d

/-! ### Memory, observation, GPIO -/

/-- The retirement state (R360). -/
def Dev.applyRetire (d : Dev) : Dev :=
  let d := (List.range 256).foldl (fun (d : Dev) e =>
    let v := d.par 0x60 0x10 e
    d.retireEntry e (if v = 0xFFFFFFFF then 0 else BitVec.ofNat 64 (v % 2 ^ 23 + 2 ^ 63))) d
  (d.poolRetire (d.par 0x60 0x11 0)).clusterRetire (d.par 0x60 0x12 0)

/-- The Memory area's values on entry to a Service mode (R368). -/
def Dev.applyMem (d : Dev) : Dev :=
  ((d.supWrite (memBase + 0x30) (d.par 0x60 2 0)).supWrite (memBase + 0x58) (d.par 0x60 0x13 0)).applyRetire

/-- MEM_DDR_CFG in Boot (R338). -/
def Dev.applyDdr (d : Dev) : Dev := d.supWrite (memBase + 0x20) (d.par 0x60 1 0)

/-- The observation registers that area 0x90 holds (R552); base and size are accepted only while SINK is 0. -/
def Dev.applyObs (d : Dev) : Dev :=
  let d := (d.supWrite64 (obsBase + 0x20) (d.par 0x90 0x103 0)).supWrite (obsBase + 0x28) (d.par 0x90 0x104 0)
  let d := d.supWrite (obsBase + 0x38) (d.par 0x90 0x101 0)
  let d := (List.range 6).foldl (fun (d : Dev) e => d.supWrite (obsBase + 0x40 + 4 * e) (d.par 0x90 0x102 e)) d
  d.supWrite (obsBase + 4) (d.par 0x90 0x100 0 % 4 + 4 * (d.par 0x90 0x105 0 % 2))

/-- The GPIO settings on entry to Standby (R567); TDD_CTL drives from then on (R563). -/
def Dev.applyPins (d : Dev) : Dev :=
  { d with pins := { d.pins with
    gpioCfg := (List.range 32).map (fun n => d.par 0x10 0x60 n), gpioDrive := BitVec.ofNat 32 (d.par 0x10 0x62 0),
    gpioOn := true, tddOn := true } }

/-! ### Profile registers (R64, R73, R199, R239, R270, R300, R332, R335, R398) -/

/-- Smilda's registers that numbered items hold. -/
def Dev.applySmilda (d : Dev) : Dev :=
  let d := (d.supWrite64 (smdBase + 0x20) (d.par 0x40 1 0)).supWrite64 (smdBase + 0x28) (d.par 0x40 2 0)
  ((d.supWrite (smdBase + 0x30) (d.par 0x40 3 0)).supWrite (smdBase + 0x34) (d.par 0x40 4 0)).supWrite
    (smdBase + 0x38) (d.par 0x40 5 0)

/-- The address is that of a unit's CTRL register. -/
def isCtrl (a : Nat) : Bool :=
  match regPlace a with
  | some p => decide (p.off = 4)
  | none => false

/-- Elements of the unit items: register word, value and size. -/
def Dev.unitValues (d : Dev) : List (Nat × Nat × Nat) :=
  Config.unitItems.flatMap (fun x =>
    (x.regs.zipIdx).map (fun p => (p.1, d.par x.attr.area x.attr.item p.2, x.attr.size)))

/-- The registers of the unit items, CTRL registers or the others; the queue manager's are left while it is enabled. -/
def Dev.applyUnits (d : Dev) (ctrl : Bool) : Dev :=
  d.unitValues.foldl (fun (d : Dev) v =>
    let a := v.1
    let skip := decide (isCtrl a ≠ ctrl) || (d.qmgOn && decide (qmgBase ≤ a) && decide (a < qmgBase + 0x100000))
    if skip then d else if v.2.2 = 8 then d.supWrite64 a v.2.1 else d.supWrite a v.2.1) d

/-- CTRL register of an engine, mover or receiver. -/
def ctrlAddr (cls u : Nat) : Nat := if cls = 9 then wbuRBase u + 4 else engBase cls u + 4

/-- The profile enables a unit; the wake and burst unit only in Profile 3 (R272, R461). -/
def Dev.profileEnables (d : Dev) (cls u : Nat) : Bool :=
  if cls = 6 ∨ cls = 7 then decide (d.par 0x70 1 0 ≠ 0)
  else (decide (cls ≠ 5 ∧ cls ≠ 9) || d.profile3)
    && d.unitValues.any (fun v => decide (v.1 = ctrlAddr cls u) && bit v.2.1 0)

/-- A cluster that Supervisor keeps Off (R360, R461). -/
def Dev.heldOff (d : Dev) (k : Nat) : Bool := bit (d.par 0x10 0x15 0) k || bit (d.regN (memBase + 0x54)) k

/-- Engines, movers and receivers: every class and number. -/
def allUnits : List (Nat × Nat) :=
  (List.range 10).flatMap (fun c => (List.range (if c = 9 then 4 else classSize c)).map (fun u => (c, u)))

/-- Units that the profile leaves unused go Off (R461, R517). -/
def Dev.unusedOff (d : Dev) : Dev :=
  let d := (List.range 24).foldl (fun (d : Dev) k => if d.heldOff k then d.clusterOff k else d) d
  allUnits.foldl (fun (d : Dev) p => if d.profileEnables p.1 p.2 then d else d.unitOff p.1 p.2) d

/-- Clusters and units that the profile uses leave Off, or wake (R457, R461). -/
def Dev.usedOn (d : Dev) : Dev :=
  let d := (List.range 24).foldl (fun (d : Dev) k => if d.heldOff k then d else (d.clusterOn k).undoze k) d
  allUnits.foldl (fun (d : Dev) p =>
    if d.profileEnables p.1 p.2 then (d.unitOn p.1 p.2).undoze (pwrEng p.1 p.2) else d) d

/-! ### Cores (R64, R81) -/

/-- A core's program memory is loaded from the images kept. -/
def Dev.loadCore (d : Dev) (c : Nat) : Dev :=
  let lo := lmBase c
  d.sup.images.foldl (fun (d : Dev) w =>
    if lo ≤ w.1 ∧ w.1 < lo + 0x80000 then (d.memWrite .supervisor w.1 w.2).1 else d) d

/-- A core in reset, or stopped, is reloaded and released (R81, R546). -/
def Dev.releaseCore (d : Dev) (c : Nat) : Dev :=
  let k := d.core c
  if k.released && !k.stopped then d
  else
    let d := (d.coreReset c).loadCore c
    d.setCore c { d.core c with released := true }

/-- The profile's pool assignment of a core (R64). -/
def Dev.assignPool (d : Dev) (c : Nat) : Dev :=
  let p := d.par 0x40 0x10 c
  let now := (d.member c).pool
  if p = 0xFF then (if now.isSome then d.poolLeave c none else d)
  else if now.isNone then d.poolAdd c p
  else if now = some p then d
  else d.poolLeave c (some p)

/-- Cores of powered clusters are released and take their pools. -/
def Dev.releaseCores (d : Dev) : Dev :=
  (List.range 192).foldl (fun (d : Dev) c =>
    if d.heldOff (c / 8) then d else (d.releaseCore c).assignPool c) d

/-! ### Queues (R332, R472) -/

/-- Values of area 0x54 by item and element, for the queues to LOAD. -/
def Dev.queueValues (d : Dev) : List (Nat × List Byte) :=
  (Config.unitItems.filter (fun x => x.attr.area = 0x54)).flatMap (fun x =>
    (List.range x.attr.count).map (fun e => (paramKey 0x54 x.attr.item e, d.param 0x54 x.attr.item e)))

/-- The queue manager is enabled and the profile's queues are LOADed. -/
def Dev.loadQueues (d : Dev) : Dev :=
  let d := if d.qmgOn then d else d.qmgEnable true
  (Config.queuesToLoad d.queueValues).foldl (fun (d : Dev) q => d.qLoad q) d

end Sys2Proof.Machine
end

