-- ==== Sys2Proof/Machine/Calib.lean ====
section
/-!
DEFINITION. Calibration and sensing: in-service targets, runs and steps, analogue trims (R481 to R494).
-/
namespace Sys2Proof.Machine

/-- A target, and its replacement. -/
def Dev.calTarget (d : Dev) (k : Nat) : CalTarget := Tab.get (fun _ => {}) d.cal.targets k
def Dev.setCalTarget (d : Dev) (k : Nat) (t : CalTarget) : Dev :=
  { d with cal := { d.cal with targets := Tab.put (fun _ => {}) d.cal.targets k t } }

/-- Count: 0 RUN, 1 STEP, 2 MOVE, 3 FORCED, 4 FAIL, 5 VOLT_ALARM, 6 SENSOR_INVALID (R495, R538). -/
def Dev.calCount (d : Dev) (i n : Nat) : Dev := d.catCount (0xC0 + i) n

/-- A sensor's reading in 1/8 °C; none while it is invalid (R481). -/
def Dev.sensor (d : Dev) (n : Nat) : Option Int := Tab.get (fun _ => none) d.cal.sensors n

/-- Governing sensor of a target (R483). -/
def calSensor (k : Nat) : Nat :=
  if k < 12 then 46 + k / 2 else if k < 28 then 38 + (k - 12) / 2 else if k < 36 then 38 + (k - 28) else 58

/-- A target's unit is powered and in use (R483). -/
def Dev.calInUse (d : Dev) (k : Nat) : Bool :=
  if k < 12 then d.nchOk && decide (k / 2 < d.nch)
  else if k < 28 then
    let p := (k - 12) / 2
    let m := d.portMode p
    !(d.port p).off && ((k % 2 = 0 && decide (1 ≤ m) && decide (m ≤ 5)) || (k % 2 = 1 && (m = 3 || m = 5)))
  else (d.port (k - 28)).up

/-- A target is adjusted: its unit is in use, its enable bit is 1, and the device is in a mode that runs it. -/
def Dev.calAdjusted (d : Dev) (k : Nat) : Bool :=
  decide (3 ≤ d.pwr.mode) && decide (d.pwr.mode ≤ 6) && bit (d.par 0x11 0x13 0) k && d.calInUse k

/-! ### Elements (R483) -/

/-- Elements of a target: of a DDR5 target three for each of five lanes, of a lane one for NRZ and three for PAM4. -/
def Dev.calElems (d : Dev) (k : Nat) : Nat :=
  if k < 12 then 15 else if k < 28 then (if d.portMode ((k - 12) / 2) = 1 then 1 else 3) else 1

/-- Range of an element's tap. -/
def calRange (k e : Nat) : Int × Int :=
  if k < 12 then (0, if e % 3 = 1 then 63 else 127) else if k < 28 then (-64, 63) else (0, 511)

/-- An element's tap: where training left it, until a step moves it. -/
def CalTarget.tap (t : CalTarget) (k e : Nat) : Int :=
  match Tab.get (fun _ => none) t.taps e with
  | some x => x
  | none => if 12 ≤ k ∧ k < 28 then 0 else min (calRange k e).2 (Config.trainedTap k e)

/-! ### Runs (R484, R485, R491, R492, R494) -/

/-- A run begins: T_last takes the governing reading, where that is valid. -/
def Dev.calStart (d : Dev) (k : Nat) : Dev :=
  let t := d.calTarget k
  let now := d.time.raw
  (d.setCalTarget k { t with
    running := true, began := now, due := now, moves := 0, tlast := (d.sensor (calSensor k)).orElse (fun _ => t.tlast) }).calCount 0 1

/-- A trigger; ignored while a run of the target is in progress and for a skipped target. -/
def Dev.calTrigger (d : Dev) (k : Nat) : Dev := if (d.calTarget k).inUse && !(d.calTarget k).running then d.calStart k else d

/-- A run ends with a status. -/
def Dev.calEnd (d : Dev) (k status : Nat) : Dev :=
  let t := d.calTarget k
  d.setCalTarget k { t with
    running := false, rTime := d.now, rStart := t.tlast.getD 0, rStatus := status, rMoves := min 255 t.moves }

/-- A target starts to be adjusted, which triggers a run, or becomes skipped, which ends its run with STATUS unchanged. -/
def Dev.calRefreshOne (d : Dev) (k : Nat) : Dev :=
  let t := d.calTarget k
  let on := d.calAdjusted k
  if on && !t.inUse then (d.setCalTarget k { t with inUse := true }).calTrigger k
  else if !on && t.inUse then
    let d := if t.running then d.calEnd k t.rStatus else d
    d.setCalTarget k { d.calTarget k with inUse := false }
  else d

/-- Every target's use is looked at again. -/
def Dev.calRefresh (d : Dev) : Dev := (List.range 37).foldl (fun (d : Dev) k => d.calRefreshOne k) d

/-- The tap that an element's margins below, at and above its tap ask for; equal margins on both sides leave the choice
open. -/
def calWant (left : Bool) (tap : Int) (m : Nat × Nat × Nat) : Int :=
  if m.2.1 < m.1 ∧ (m.2.2 < m.1 ∨ (m.2.2 = m.1 ∧ left)) then tap - 1
  else if m.2.1 < m.2.2 then tap + 1
  else tap

/-- One element in a step: the target with its tap moved, and 0 stayed, 1 moved, 2 RANGE, 3 NO_EYE. -/
def calElem (left : Bool) (t : CalTarget) (k e : Nat) (m : Nat × Nat × Nat) : CalTarget × Nat :=
  let tap := t.tap k e
  let want := calWant left tap m
  if k < 28 ∧ m = (0, 0, 0) then (t, 3)
  else if want = tap then (t, 0)
  else if want < (calRange k e).1 ∨ (calRange k e).2 < want then (t, 2)
  else ({ t with taps := Tab.put (fun _ => none) t.taps e (some want), moves := t.moves + 1 }, 1)

/-- A step of a run: every element is measured and moves at most one tap; the run ends after a step without a move, at the
end of a range, or without an eye. An element for which no margins are given is centred. -/
def Dev.calStep (d : Dev) (k : Nat) (margins : List (Nat × Nat × Nat)) : Dev :=
  if 37 ≤ k || !(d.calTarget k).running then d
  else
    let left := (d.freeBits 1).getLsbD 0
    let d := d.used
    let t0 := d.calTarget k
    let (t, rs) := (List.range (d.calElems k)).foldl (fun (acc : CalTarget × List Nat) e =>
      let (t, r) := calElem left acc.1 k e (margins.getD e (0, 1, 0))
      (t, acc.2 ++ [r])) (t0, [])
    let d := ((d.setCalTarget k { t with due := d.time.raw }).calCount 1 1).calCount 2 (t.moves - t0.moves)
    let bad := if rs.contains 3 then 2 else if rs.contains 2 then 1 else 0
    if bad ≠ 0 then (((d.calEnd k bad).calCount 4 1).fault 5 1 15 4 (k + 256 * bad))
    else if rs.contains 1 then d
    else d.calEnd k 0

/-- A SerDes or timestamp step that has found no gap for P 0x11.0012 ms is forced (R487). -/
def Dev.calForced (d : Dev) (k : Nat) (margins : List (Nat × Nat × Nat)) : Dev :=
  if 12 ≤ k && decide (k < 37) && (d.calTarget k).running
      && decide (10 ^ 6 * d.par 0x11 0x12 0 ≤ d.nsSince (d.calTarget k).due) then
    (d.calStep k margins).calCount 3 1
  else d

/-- The maximum run interval has passed since a target's last run began (R484). -/
def Dev.calInterval (d : Dev) (k : Nat) : Dev :=
  let s := d.par 0x11 0x11 0
  if k < 37 ∧ s ≠ 0 ∧ 10 ^ 9 * s ≤ d.nsSince (d.calTarget k).began then d.calTrigger k else d

/-- RUN_INTERVAL: each target whose interval has passed is triggered (R484). -/
def Dev.calIntervals (d : Dev) : Dev := (List.range 37).foldl (fun (d : Dev) k => d.calInterval k) d

/-- A governing reading has drifted by at least DRIFT from T_last (R484). -/
def Dev.calDrift (d : Dev) (k : Nat) : Dev :=
  match d.sensor (calSensor k), (d.calTarget k).tlast with
  | some x, some y => if 8 * d.par 0x11 0x10 0 ≤ (x - y).natAbs then d.calTrigger k else d
  | _, _ => d

/-! ### Analogue trims (R488 to R492) -/

/-- A trim's record, and its replacement; 6 is the PCIe termination. -/
def Dev.trim (d : Dev) (n : Nat) : TrimState := Tab.get (fun _ => {}) d.cal.trims n
def Dev.setTrim (d : Dev) (n : Nat) (t : TrimState) : Dev :=
  { d with cal := { d.cal with trims := Tab.put (fun _ => {}) d.cal.trims n t } }

/-- Reading of a trim's governing sensor. -/
def Dev.trimReading (d : Dev) (n : Nat) : Option Int := d.sensor (Config.trimSensor n).val

/-- A trim runs: whether it finds a code or locks is the circuit's affair (assumption log 36). Without a code the fused
default is used; a PLL that does not lock is a fatal error; full training leaves the targets at their trained taps. -/
def Dev.runTrim (d : Dev) (n : Nat) : Dev :=
  let bad := (d.freeBits 1).getLsbD 0
  let d := d.used
  let status := if !bad || n = 5 then 0 else if n = 1 ∨ n = 2 then 5 else 4
  let d := d.setTrim n { time := d.now, start := (d.trimReading n).getD 0, status := status, due := false }
  let d := if n = 5 then
      (List.range 28).foldl (fun (d : Dev) k => d.setCalTarget k { d.calTarget k with taps := [] }) d
    else d
  if status = 5 then d.raiseFatal 0x85 15 4 n else d

/-- The trims of a mask run. -/
def Dev.runTrims (d : Dev) (mask : Nat) : Dev :=
  (List.range 7).foldl (fun (d : Dev) n => if bit mask n then d.runTrim n else d) d

/-- A circuit's sensor has moved by at least the trim drift since its last trim: TRIM_DUE is set and recorded (R490). -/
def Dev.trimDrift (d : Dev) (n : Nat) : Dev :=
  let t := d.trim n
  match d.trimReading n with
  | none => d
  | some x =>
    if !t.due && decide (8 * d.par 0x11 0x20 0 ≤ (x - t.start).natAbs) then (d.setTrim n { t with due := true }).fault 7 0 15 4 n
    else d

/-! ### What the dictionary serves (R491, R495) -/

/-- P 0x11.0002. -/
def Dev.trimFlags (d : Dev) : Nat := b2n d.cal.trimRun.isSome + 2 * b2n ((List.range 7).any (fun n => (d.trim n).due))

/-- P 0x11.0003. -/
def Dev.calRunning (d : Dev) : Nat := ((List.range 37).filter (fun k => (d.calTarget k).running)).foldl (fun a k => a + 2 ^ k) 0

/-- The 16 bytes of a result record. -/
def calRecord (time : Nat) (start : Int) (status moves : Nat) : List Byte :=
  leBytes 8 time ++ leBytes 2 (ofSigned 16 start) ++ leBytes 1 status ++ leBytes 1 moves ++ zeros 4
def CalTarget.record (t : CalTarget) : List Byte := calRecord t.rTime t.rStart t.rStatus t.rMoves
def TrimState.record (t : TrimState) : List Byte := calRecord t.time t.start t.status 0

end Sys2Proof.Machine
end

