-- ==== Sys2Proof/Machine/BeamDesc.lean ====
section
/-!
DEFINITION. Beam job descriptors, their checks, operand layouts and the BFP24 and ci16 formats (R168 to R174, R177).
-/
namespace Sys2Proof.Machine

/-- An operand block (R168). -/
structure Opd where
  addr : Nat
  exp  : Int
  s1   : Nat
  rs   : Nat
  deriving DecidableEq, Repr

/-- A beam descriptor with its arguments put in place. -/
structure BDesc where
  op    : Nat
  var   : Nat
  opt   : Bool
  wcon  : Bool
  bfmt  : Bool
  ofmt  : Bool
  cplQ  : Nat
  deadline : Nat
  r     : Nat
  c     : Nat
  nsc   : Nat
  nsym  : Nat
  ngrp  : Nat
  iter  : Nat
  tole  : Nat
  last  : Nat
  reg   : Rat
  noise : Rat
  wscale : Nat
  gstat : Nat
  opa   : Opd
  opb   : Opd
  opc   : Opd
  opd   : Opd
  out0  : Opd
  out1  : Opd
  deriving DecidableEq, Repr

/-- A value in scalar format (R168). -/
def scalarOf (w : Nat) : Rat := (fld w 15 0 : Nat) * pow2 (toSigned 8 (fld w 23 16) - 15)

/-- Operand block `tgt` of ARGUSE with its argument put in place (R169, R170): 1 OPA, 2 OPB, 3 OPC, 4 OPD, 5 OUT0, 6 OUT1. -/
def beamOpd (bs : List Byte) (tgt : Nat) : Opd :=
  let off := match tgt with | 1 => 64 | 2 => 80 | 3 => 96 | 4 => 128 | 5 => 112 | _ => 144
  let w := leAt bs off 8
  let c := leAt bs 0 4
  let addr :=
    if fld c 14 12 = tgt then fld (leAt bs 16 8) 39 0
    else if fld c 17 15 = tgt then fld (leAt bs 24 8) 39 0
    else fld w 39 0
  ⟨addr, toSigned 8 (fld w 47 40), leAt bs (off + 8) 4, leAt bs (off + 12) 4⟩

/-- The descriptor that bytes spell (R168, R169). -/
def parseBeam (bs : List Byte) : BDesc :=
  let c := leAt bs 0 4
  let dim := leAt bs 32 4
  let grp := leAt bs 36 4
  { op := fld c 3 0, var := fld c 7 4, opt := bit c 8, wcon := bit c 9, bfmt := bit c 10, ofmt := bit c 11,
    cplQ := fld (leAt bs 4 4) 17 0, deadline := leAt bs 8 8, r := fld dim 6 0, c := fld dim 14 8, nsc := fld dim 21 16,
    nsym := fld dim 27 24 + 1, ngrp := fld grp 12 0, iter := fld grp 19 16, tole := fld grp 24 20, last := fld grp 30 25,
    reg := scalarOf (leAt bs 40 4), noise := scalarOf (leAt bs 44 4), wscale := leAt bs 48 2,
    gstat := fld (leAt bs 56 8) 39 0, opa := beamOpd bs 1, opb := beamOpd bs 2, opc := beamOpd bs 3, opd := beamOpd bs 4,
    out0 := beamOpd bs 5, out1 := beamOpd bs 6 }

/-- An operand is present (R168). -/
def Opd.present (o : Opd) : Bool := decide (o.addr ≠ 0)

/-- Training symbols of EQ1 and EQM (R169). -/
def BDesc.train (b : BDesc) : Nat := b.var + 1

/-- M and N of GRAM (R177). -/
def BDesc.gramM (b : BDesc) : Nat := if b.var % 2 = 0 then b.c else b.r
def BDesc.gramN (b : BDesc) : Nat := if b.var % 2 = 0 then b.r else b.c

/-- TRANSB of SOLVE. -/
def BDesc.transb (b : BDesc) : Bool := bit b.var 2

/-- Reserved fields of the descriptor are 0 (R168). -/
def beamReservedOk (bs : List Byte) : Bool :=
  let dim := leAt bs 32 4
  decide (fld (leAt bs 0 4) 31 18 = 0) && decide (fld (leAt bs 4 4) 30 18 = 0) && !bit dim 7 && !bit dim 15
    && decide (fld dim 23 22 = 0) && decide (fld dim 31 28 = 0) && decide (fld (leAt bs 36 4) 15 13 = 0)
    && !bit (leAt bs 36 4) 31 && decide (fld (leAt bs 40 4) 31 24 = 0) && decide (fld (leAt bs 44 4) 31 24 = 0)
    && decide (leAt bs 50 2 = 0) && decide (leAt bs 52 4 = 0) && decide (fld (leAt bs 56 8) 63 40 = 0)
    && [64, 80, 96, 112, 128, 144].all (fun o => decide (fld (leAt bs o 8) 63 48 = 0))

/-- Options that the operation has; the others are 0 (R169, R171). -/
def BDesc.optionsOk (b : BDesc) : Bool :=
  (match b.op with
    | 1 => decide (b.var ≤ 1)
    | 3 => decide (b.var % 4 ≤ 2) && decide (b.var < 8) && !(b.transb && !b.bfmt)
    | 6 | 7 => true
    | _ => b.var = 0)
    && (!b.opt || b.op = 1 || b.op = 6) && (!b.wcon || b.op = 4) && (!b.bfmt || b.op = 3 || b.op = 4)
    && (!b.ofmt || b.op = 3)

/-- Dimension limits (R168, R177). -/
def BDesc.limitsOk (b : BDesc) : Bool :=
  decide (1 ≤ b.r) && decide (b.r ≤ 64) && decide (1 ≤ b.c) && decide (b.c ≤ 64) && decide (1 ≤ b.nsc) && decide (b.nsc ≤ 48)
    && decide (1 ≤ b.ngrp) && decide (b.ngrp ≤ 4096) && decide (b.last ≤ 48)
    && (match b.op with
      | 1 => decide (b.gramM ≤ 16) && b.nsym = 1
      | 2 => b.r = b.c && decide (b.c ≤ 16) && b.nsym = 1
      | 3 => decide (b.c ≤ 16) && b.nsym = 1
      | 4 => decide (b.r * b.c ≤ 1024)
      | 5 => decide (b.c ≤ 16) && decide (1 ≤ b.iter) && decide (b.iter ≤ 8)
      | 6 => b.c = 1
      | 7 => decide (b.r ≤ 16) && decide (b.c ≤ 8) && decide (b.train * b.nsc ≤ 96) && b.nsym = 1
      | _ => false)

/-- Operands that the operation requires are present (R171, R177). -/
def BDesc.operandsOk (b : BDesc) : Bool :=
  let p := Opd.present
  match b.op with
  | 1 => p b.opa && p b.out0 && (!b.opt || p b.out1)
  | 2 => p b.opb && p b.out0
  | 3 => p b.opa && p b.opb && p b.out0
  | 4 => p b.opb && p b.opc && p b.out0
  | 5 => p b.opa && p b.opb && p b.opc && p b.out0
  | 6 => p b.opa && p b.opc && p b.opd && p b.out0
  | _ => p b.opa && p b.opd && p b.out0

/-- ARGUSE fields name operands, and not the same one (R169, R171). -/
def argUseOk (u0 u1 top : Nat) : Bool := decide (u0 ≤ top) && decide (u1 ≤ top) && !(decide (u0 ≠ 0) && u0 = u1)

/-- An operand that the operation uses is aligned: ci16, BFP24 or U16 weights (R171). -/
def Opd.ci16Ok (o : Opd) : Bool := o.addr % 4 = 0 && o.rs % 4 = 0
def Opd.bfpOk (o : Opd) : Bool := o.addr % 64 = 0 && o.s1 % 64 = 0
def Opd.weightOk (o : Opd) : Bool := o.addr % 2 = 0 && o.s1 % 2 = 0

/-- Alignment of every operand that the operation uses (R171, R177). -/
def BDesc.alignOk (b : BDesc) : Bool :=
  let fmt := fun (ci : Bool) (o : Opd) => if ci then o.ci16Ok else o.bfpOk
  let w := !b.out1.present || b.out1.weightOk
  b.gstat % 2 = 0
    && (match b.op with
      | 1 => b.opa.ci16Ok && b.out0.bfpOk && (!b.opt || b.out1.bfpOk)
      | 2 => b.opb.bfpOk && b.out0.bfpOk
      | 3 => fmt b.bfmt b.opa && b.opb.bfpOk && fmt b.ofmt b.out0
      | 4 => fmt b.bfmt b.opb && b.opc.ci16Ok && b.out0.ci16Ok
      | 5 => b.opa.ci16Ok && b.opb.bfpOk && b.opc.ci16Ok && (!b.opd.present || b.opd.bfpOk) && b.out0.ci16Ok && w
      | 6 => b.opa.ci16Ok && b.opc.ci16Ok && b.opd.ci16Ok && b.out0.ci16Ok && w
      | _ => b.opa.ci16Ok && b.opd.ci16Ok && b.out0.bfpOk && (!b.out1.present || b.out1.ci16Ok))

/-- The descriptor checks of R171: 0, or BAD_DESC, then ALIGN. -/
def beamCheck (bs : List Byte) : Nat :=
  let b := parseBeam bs
  let c := leAt bs 0 4
  if !(beamReservedOk bs && decide (1 ≤ b.op) && decide (b.op ≤ 7) && b.optionsOk && b.limitsOk
      && argUseOk (fld c 14 12) (fld c 17 15) 6 && b.operandsOk
      && !(b.out1.present && decide (5 ≤ b.op) && leAt bs 44 2 = 0)) then 0x10
  else if !b.alignOk then 0x13 else 0

/-! ### Layouts (R172) -/

/-- Subcarriers of group g. -/
def BDesc.groupNsc (b : BDesc) (g : Nat) : Nat := if g + 1 = b.ngrp && b.last ≠ 0 then b.last else b.nsc

/-- Length of a BFP24 row. -/
def rowBytes (n : Nat) : Nat := 64 * ceilDiv (8 + 6 * n) 64

/-- Address of row r of a group's BFP24 matrix with rows of n elements. -/
def Opd.bfpRow (o : Opd) (g r n : Nat) : Nat := o.addr + g * o.s1 + r * rowBytes n

/-- Address of row r of a group's ci16 matrix. -/
def Opd.ciRow (o : Opd) (g r : Nat) : Nat := o.addr + g * o.s1 + r * o.rs

/-- Address of element (row r, subcarrier k, symbol s) of a data operand. -/
def Opd.data (o : Opd) (s r k : Nat) : Nat := o.addr + s * o.s1 + r * o.rs + 4 * k

/-! ### Formats (R172 to R174) -/

/-- The ci16 value of four bytes under an exponent. -/
def ci16Value (e : Int) (bs : List Byte) : CQ :=
  ⟨toSigned 16 (leAt bs 0 2) * pow2 (e - 15), toSigned 16 (leAt bs 2 2) * pow2 (e - 15)⟩

/-- n ci16 values. -/
def ci16Values (e : Int) (n : Nat) (bs : List Byte) : List CQ := (List.range n).map (fun i => ci16Value e (bs.drop (4 * i)))

/-- n values of a BFP24 row; ZERO stands for zeros (R173). -/
def bfpValues (n : Nat) (bs : List Byte) : List CQ :=
  if bit (leAt bs 1 1) 0 then List.replicate n {}
  else
    let s := pow2 (toSigned 8 (leAt bs 0 1) - 23)
    (List.range n).map (fun i => ⟨toSigned 24 (leAt bs (8 + 6 * i) 3) * s, toSigned 24 (leAt bs (11 + 6 * i) 3) * s⟩)

/-- The parts of a row. -/
def rowParts (row : List CQ) : List Rat := row.flatMap (fun x => [x.re, x.im])

/-- The exponent of a BFP24 row: the smallest that fits every part, 127 when none does (R174). -/
def bfpExp (ps : List Rat) : Option Int :=
  ((List.range 256).map (fun (i : Nat) => (i : Int) - 128)).find? (fun e =>
    ps.all (fun v => fitsS24 (roundHalfEven (v * pow2 (23 - e)))))
where
  fitsS24 (v : Int) : Bool := decide (satS 24 v = v)

/-- A row as BFP24 bytes, and whether it saturated (R173, R174). -/
def bfpRowBytes (row : List CQ) : List Byte × Bool :=
  let ps := rowParts row
  let size := rowBytes row.length
  if ps.all (fun v => decide (v = 0)) then (padTo size [BitVec.ofNat 8 0x80, 1], false)
  else
    let e := (bfpExp ps).getD 127
    let m := ps.map (fun v => ofSigned 24 (satS 24 (roundHalfEven (v * pow2 (23 - e)))))
    (padTo size (leBytes 1 (ofSigned 8 e) ++ [0] ++ zeros 6 ++ m.flatMap (leBytes 3)), (bfpExp ps).isNone)

/-- A row as ci16 bytes under an exponent, and whether it saturated (R174). -/
def ci16RowBytes (e : Int) (row : List CQ) : List Byte × Bool :=
  let q := (rowParts row).map (fun v => roundHalfEven (v * pow2 (15 - e)))
  (q.flatMap (fun v => leBytes 2 (ofSigned 16 (satS 16 v))), q.any (fun v => decide (satS 16 v ≠ v)))

/-! ### Reading and writing in a step (R191, R192, R194) -/

/-- Read several runs; of several errors the one lowest in address order is answered (R194). -/
def Dev.readMany (d : Dev) (ag : Agent) (l : List (Nat × Nat)) : Dev × List (List Byte) × Option (Nat × Nat) :=
  l.foldl (fun (acc : Dev × List (List Byte) × Option (Nat × Nat)) x =>
    let (d, got, err) := acc
    let (d, r) := d.busRead ag x.1 x.2
    let bs := match r with | .ok bs => bs | _ => []
    let err := match err, rrespStatus r with
      | none, e => e
      | some e, none => some e
      | some e, some e' => some (if e'.2 < e.2 then e' else e)
    (d, got ++ [bs], err)) (d, [], none)

/-- Write several runs line by line; the first failure stops the step's writes (R192). -/
def Dev.writeMany (d : Dev) (ag : Agent) (l : List (Nat × List Byte)) : Dev × Option (Nat × Nat) :=
  let pieces := l.flatMap (fun x => (linePieces x.1 x.2.length).map (fun p => (x.1 + p.1, (x.2.drop p.1).take p.2)))
  pieces.foldl (fun (acc : Dev × Option (Nat × Nat)) p =>
    if acc.2.isSome then acc
    else
      let (d, w) := acc.1.busWrite ag p.1 p.2
      (d, wrespStatus w)) (d, none)

end Sys2Proof.Machine
end

