-- ==== Sys2Proof/Machine/Beam.lean ====
section
/-!
DEFINITION. The steps of beam jobs and their completion (R167, R174, R175, R177 to R188, R191, R192, R198).

Where R175 gives a tolerance, an output part is the exact result moved by a free value within it; where an operation's
matrix is conditioned beyond the bound of R175, the output is free. The bound is tested by the Frobenius norms, which are
never below the 2-norm condition number (assumption log 22).
-/
namespace Sys2Proof.Machine

/-- What a step computes: its writes, and what it records of its group. -/
structure StepOut where
  writes : List (Nat × List Byte) := []
  sat    : Bool := false
  notPd  : Bool := false
  sweeps : Nat := 0
  conv   : Option Bool := none     -- DETECT with TOLE not 0: stopped on convergence, or capped
  deriving DecidableEq, Repr

/-- A step's computation, or the error of a read. -/
abbrev StepRes := Dev × Except (Nat × Nat) StepOut

/-! ### Free values within R175 -/

/-- A signed fraction in [−1, 1) from 32 bits of a free value. -/
def fracOf (f : Nat) (i : Nat) : Rat := toSigned 32 (f >>> (32 * i)) / (2 ^ 31 : Nat)

/-- A row within 2^−12 of its largest part of the exact one; parts that `keep` names are exact (R175). -/
def Dev.nudgeRow (d : Dev) (keep : Nat → Bool) (row : List CQ) : Dev × List CQ :=
  let m := (rowParts row).foldl (fun a v => max a (absQ v)) 0
  let f := (d.freeBits (64 * row.length)).toNat
  let mv := fun (i : Nat) (v : Rat) => if keep i then v else v + m * pow2 (-12) * fracOf f i
  (d.used, (List.range row.length).map (fun i =>
    let x := row.getD i {}
    ⟨mv (2 * i) x.re, mv (2 * i + 1) x.im⟩))

/-- A row of free values. -/
def Dev.freeRow (d : Dev) (keep : Nat → Bool) (row : List CQ) : Dev × List CQ :=
  let f := (d.freeBits (8 + 48 * row.length)).toNat
  let s := pow2 (toSigned 8 f - 23)
  let mv := fun (i : Nat) (v : Rat) => if keep i then v else toSigned 24 (f >>> (8 + 24 * i)) * s
  (d.used, (List.range row.length).map (fun i =>
    let x := row.getD i {}
    ⟨mv (2 * i) x.re, mv (2 * i + 1) x.im⟩))

/-- Rows of an operation whose matrices are within the bound of R175, or beyond it. -/
def Dev.settleRows (d : Dev) (within : Bool) (keep : Nat → Nat → Bool) (m : Mat) : Dev × Mat :=
  (List.range m.length).foldl (fun (acc : Dev × Mat) r =>
    let row := m.getD r []
    let (d, row) := if within then acc.1.nudgeRow (keep r) row else acc.1.freeRow (keep r) row
    (d, acc.2 ++ [row])) (d, [])

/-- No part is kept exact. -/
def keepNone (_ _ : Nat) : Bool := false

/-- Parts of a lower-triangular matrix that are 0 by R179. -/
def keepLower (r i : Nat) : Bool := decide (2 * r + 1 ≤ i)

/-- The condition bound of R175. -/
def wellConditioned (m inv : Mat) : Bool := decide (condBound m inv ≤ (2 ^ 24 : Nat))

/-- A weight: at most 65,535, rounded from a quotient correct to 24 bits (R174, R183, R188). -/
def Dev.weightOf (d : Dev) (v : Rat) : Dev × Nat :=
  let v := v + v * pow2 (-24) * fracOf (d.freeBits 32).toNat 0
  (d.used, min 65535 (roundHalfEven v).toNat)

/-! ### Operands -/

/-- A ci16 matrix of a group. -/
def Opd.readCi (o : Opd) (g r c : Nat) : List (Nat × Nat) := (List.range r).map (fun i => (o.ciRow g i, 4 * c))
def Opd.matCi (o : Opd) (c : Nat) (bs : List (List Byte)) : Mat := bs.map (ci16Values o.exp c)

/-- A BFP24 matrix of a group with rows of n elements. -/
def Opd.readBfp (o : Opd) (g r n : Nat) : List (Nat × Nat) := (List.range r).map (fun i => (o.bfpRow g i n, rowBytes n))
def matBfp (n : Nat) (bs : List (List Byte)) : Mat := bs.map (bfpValues n)

/-- Rows of a data operand for the subcarriers of a group and a symbol. -/
def Opd.readData (o : Opd) (s r k0 n : Nat) : List (Nat × Nat) := (List.range r).map (fun i => (o.data s i k0, 4 * n))

/-- Rows of a matrix as BFP24 or ci16 writes, and whether one saturated. -/
def Opd.writeBfp (o : Opd) (g n : Nat) (m : Mat) : List (Nat × List Byte) × Bool :=
  let rows := (List.range m.length).map (fun r => (o.bfpRow g r n, bfpRowBytes (m.getD r [])))
  (rows.map (fun x => (x.1, x.2.1)), rows.any (fun x => x.2.2))
def Opd.writeCi (o : Opd) (g : Nat) (m : Mat) : List (Nat × List Byte) × Bool :=
  let rows := (List.range m.length).map (fun r => (o.ciRow g r, ci16RowBytes o.exp (m.getD r [])))
  (rows.map (fun x => (x.1, x.2.1)), rows.any (fun x => x.2.2))
def Opd.writeData (o : Opd) (s k0 : Nat) (m : Mat) : List (Nat × List Byte) × Bool :=
  let rows := (List.range m.length).map (fun r => (o.data s r k0, ci16RowBytes o.exp (m.getD r [])))
  (rows.map (fun x => (x.1, x.2.1)), rows.any (fun x => x.2.2))

/-- A zero matrix. -/
def zeroMat (r c : Nat) : Mat := matOf r c (fun _ _ => {})

/-- The factor that SOLVE and DETECT use of stored elements: c ≤ r, the diagonal's real part (R180). -/
def lowerPart (l : Mat) (n : Nat) : Mat :=
  matOf n n (fun i j => if j < i then l.at i j else if i = j then ⟨(l.at i i).re, 0⟩ else {})

/-- A diagonal element's real part is 0 or less (R182). -/
def badDiag (m : Mat) (n : Nat) : Bool := (List.range n).any (fun i => decide ((m.at i i).re ≤ 0))

/-! ### Matrix operations -/

/-- L of a matrix, or zeros with NOT_PD (R179, R182). -/
def Dev.cholOf (d : Dev) (g : Mat) (n : Nat) : Dev × Mat × Bool :=
  match ldl g n with
  | none => (d, zeroMat n n, true)
  | some f =>
    let full := matOf n n (fun i j => if j ≤ i then g.at i j else (g.at j i).conj)
    let (d, l) := d.settleRows (wellConditioned full (f.inverse n)) keepLower (f.lower n)
    (d, l, false)

/-- A GRAM step (R178). -/
def Dev.gramStep (d : Dev) (ag : Agent) (b : BDesc) (g : Nat) : StepRes :=
  match d.readMany ag (b.opa.readCi g b.r b.c) with
  | (d, _, some e) => (d, .error e)
  | (d, bs, none) =>
    let a := b.opa.matCi b.c bs
    let m := b.gramM
    let prod := if b.var % 2 = 0 then (a.herm b.r b.c).mul a b.c b.r b.c else a.mul (a.herm b.r b.c) b.r b.c b.r
    let gm := prod.addDiag m b.reg
    let (w, sat) := b.out0.writeBfp g m gm
    if b.opt then
      let (d, l, bad) := d.cholOf gm m
      let (wl, satl) := b.out1.writeBfp g m l
      (d, .ok { writes := w ++ wl, sat := sat || satl, notPd := bad })
    else (d, .ok { writes := w, sat := sat })

/-- A CHOL step (R179). -/
def Dev.cholStep (d : Dev) (ag : Agent) (b : BDesc) (g : Nat) : StepRes :=
  match d.readMany ag (b.opb.readBfp g b.c b.c) with
  | (d, _, some e) => (d, .error e)
  | (d, bs, none) =>
    let (d, l, bad) := d.cholOf (matBfp b.c bs) b.c
    let (w, sat) := b.out0.writeBfp g b.c l
    (d, .ok { writes := w, sat := sat, notPd := bad })

/-- A SOLVE step (R180). -/
def Dev.solveStep (d : Dev) (ag : Agent) (b : BDesc) (g : Nat) : StepRes :=
  let n := b.c
  let ra := if b.transb then b.opa.readCi g b.r n else if b.bfmt then b.opa.readCi g n b.r else b.opa.readBfp g n b.r
  match d.readMany ag (ra ++ b.opb.readBfp g n n) with
  | (d, _, some e) => (d, .error e)
  | (d, bs, none) =>
    let ba := bs.take ra.length
    let bm := if b.transb then (b.opa.matCi n ba).herm b.r n else if b.bfmt then b.opa.matCi b.r ba else matBfp b.r ba
    let l := lowerPart (matBfp n (bs.drop ra.length)) n
    let (d, x, bad) :=
      if badDiag l n then (d, zeroMat n b.r, true)
      else
        let k := condBound l (solveFwd l (identityMat n) n n)
        let fwd := if b.var % 4 = 1 then bm else solveFwd l bm n b.r
        let x := if b.var % 4 = 0 then fwd else solveBwd l fwd n b.r
        let (d, x) := d.settleRows (decide (k ≤ if b.var % 4 = 2 then (2 ^ 12 : Nat) else (2 ^ 24 : Nat))) keepNone x
        (d, x, false)
    let (w, sat) := if b.ofmt then b.out0.writeCi g x else b.out0.writeBfp g b.r x
    (d, .ok { writes := w, sat := sat, notPd := bad })

/-! ### Data operations -/

/-- An APPLY step (R181). -/
def Dev.applyStep (d : Dev) (ag : Agent) (b : BDesc) (g s : Nat) : StepRes :=
  let k0 := g * b.nsc
  let n := b.groupNsc g
  let (wr, wc) := if b.wcon then (b.c, b.r) else (b.r, b.c)
  let rw := if b.bfmt then b.opb.readCi g wr wc else b.opb.readBfp g wr wc
  match d.readMany ag (rw ++ b.opc.readData s b.c k0 n) with
  | (d, _, some e) => (d, .error e)
  | (d, bs, none) =>
    let w := if b.bfmt then b.opb.matCi wc (bs.take wr) else matBfp wc (bs.take wr)
    let w := if b.wcon then w.herm wr wc else w
    let x := (bs.drop wr).map (ci16Values b.opc.exp n)
    let (ws, sat) := b.out0.writeData s k0 (w.mul x b.r b.c n)
    (d, .ok { writes := ws, sat := sat })

/-- One Gauss–Seidel sweep of one subcarrier (R185). -/
def sweepOne (gm : Mat) (z : List CQ) (c : Nat) (x : List CQ) : List CQ :=
  (List.range c).foldl (fun (x : List CQ) l =>
    let s := CQ.sum ((List.range c).map (fun j => if j = l then {} else (gm.at l j).mul (x.getD j {})))
    x.set l (((z.getD l {}).sub s).scale (1 / (gm.at l l).re))) x

/-- The sweeps of a step: at most `f` more of them, `t` done; answers x, the sweeps and the outcome (R185, R186). -/
def sweepGo (gm : Mat) (zs : Mat) (c tole : Nat) : Nat → Nat → Mat → Mat × Nat × Option Bool
  | 0, t, x => (x, t, if tole = 0 then none else some false)
  | f + 1, t, x =>
    let y : Mat := (List.range zs.length).map (fun k => sweepOne gm (zs.getD k []) c (x.getD k []))
    let diff := (List.range zs.length).flatMap (fun k =>
      (List.range c).map (fun l => (((y.at k l).sub (x.at k l)).norm2)))
    let num := sumQ diff
    let den := y.frob
    if tole ≠ 0 ∧ (den = 0 ∨ num ≤ den * pow2 (-(tole : Int))) then (y, t + 1, some true)
    else sweepGo gm zs c tole f (t + 1) y

/-- Weights of a group as U16 writes (R172). -/
def weightWrite (o : Opd) (g : Nat) (ws : List Nat) : List (Nat × List Byte) := [(o.addr + g * o.s1, ws.flatMap (leBytes 2))]

/-- Weights of DETECT: from the factor in OPD when present, else from the diagonal of G (R188). -/
def Dev.detectWeights (d : Dev) (b : BDesc) (gm : Mat) (l : Option Mat) : Dev × List Nat × Bool :=
  let n := b.c
  let base := (b.wscale : Rat) * pow2 (-8)
  let (qs, bad, ok) : List Rat × Bool × Bool := match l with
    | none => ((List.range n).map (fun i => 1 / (gm.at i i).re), false, true)
    | some l =>
      if badDiag l n then ([], true, true)
      else
        let inv := solveFwd l (identityMat n) n n
        let q := (List.range n).map (fun j => sumQ ((List.range n).map (fun i => (inv.at i j).norm2)))
        (q, false, decide (condBound l inv ≤ (2 ^ 12 : Nat)))
  if bad then (d, List.replicate n 0, true)
  else
    let (d, ws) := qs.foldl (fun (acc : Dev × List Nat) q =>
      if ok then
        let (d, w) := acc.1.weightOf (base / (b.noise * q))
        (d, acc.2 ++ [w])
      else (acc.1.used, acc.2 ++ [(acc.1.freeBits 16).toNat])) (d, [])
    (d, ws, false)

/-- A DETECT step under a cap (R185 to R188). -/
def Dev.detectStep (d : Dev) (ag : Agent) (b : BDesc) (g s cap : Nat) : StepRes :=
  let k0 := g * b.nsc
  let n := b.groupNsc g
  let c := b.c
  let first := s = 0 && b.out1.present
  let ll := if first && b.opd.present then b.opd.readBfp g c c else []
  match d.readMany ag (b.opa.readCi g b.r c ++ b.opb.readBfp g c c ++ b.opc.readData s b.r k0 n ++ ll) with
  | (d, _, some e) => (d, .error e)
  | (d, bs, none) =>
    let h := b.opa.matCi c (bs.take b.r)
    let gm := matBfp c ((bs.drop b.r).take c)
    let y : Mat := ((bs.drop (b.r + c)).take b.r).map (ci16Values b.opc.exp n)
    let l := if ll = [] then none else some (lowerPart (matBfp c (bs.drop (2 * b.r + c))) c)
    if badDiag gm c then
      let (wx, _) := b.out0.writeData s k0 (zeroMat c n)
      let ww := if first then weightWrite b.out1 g (List.replicate c 0) else []
      (d, .ok { writes := wx ++ ww, notPd := true })
    else
      let hh := h.herm b.r c
      let zs := (List.range n).map (fun k =>
        (List.range c).map (fun i => CQ.sum ((List.range b.r).map (fun r => (hh.at i r).mul (y.at r k)))))
      let x0 := zs.map (fun z => (List.range c).map (fun i => (z.getD i {}).scale (1 / (gm.at i i).re)))
      let (x, t, conv) := sweepGo gm zs c b.tole cap 0 x0
      let within := match ldl gm c with
        | some f => wellConditioned gm (f.inverse c)
        | none => false
      let (d, xt) := d.settleRows within keepNone (matOf c n (fun i k => x.at k i))
      let (wx, sat) := b.out0.writeData s k0 xt
      let (d, ws, bad) := if first then d.detectWeights b gm l else (d, [], false)
      let ww := if first then weightWrite b.out1 g ws else []
      (d, .ok { writes := wx ++ ww, sat := sat, notPd := bad, sweeps := t, conv := conv })

/-- Channel of one stream: per subcarrier, or one for the group with SMOOTH; none where the pilot energy is 0 (R183). -/
def eq1Channel (b : BDesc) (n : Nat) (p y : Nat → Nat → CQ) : List (Option CQ) :=
  let ts := List.range b.train
  let num := fun (k : Nat) => CQ.sum (ts.map (fun t => (y t k).mul (p t k).conj))
  let den := fun (k : Nat) => sumQ (ts.map (fun t => (p t k).norm2))
  let one := fun (a : CQ) (e : Rat) => if e = 0 then none else some (a.scale (1 / e))
  if b.opt then
    let ks := List.range n
    List.replicate n (one (CQ.sum (ks.map num)) (sumQ (ks.map den)))
  else (List.range n).map (fun k => one (num k) (den k))

/-- An EQ1 step (R183). -/
def Dev.eq1Step (d : Dev) (ag : Agent) (b : BDesc) (g s : Nat) : StepRes :=
  let k0 := g * b.nsc
  let n := b.groupNsc g
  let train := fun (o : Opd) => (List.range b.train).flatMap (fun t => o.readData t b.r k0 n)
  let nt := b.train * b.r
  match d.readMany ag (train b.opa ++ train b.opd ++ b.opc.readData s b.r k0 n) with
  | (d, _, some e) => (d, .error e)
  | (d, bs, none) =>
    let row := fun (o : Opd) (i : Nat) => ci16Values o.exp n (bs.getD i [])
    let hs := (List.range b.r).map (fun r =>
      eq1Channel b n (fun t k => (row b.opa (t * b.r + r)).getD k {}) (fun t k => (row b.opd (nt + t * b.r + r)).getD k {}))
    let bad := hs.any (fun l => l.any (·.isNone))
    let (d, xs) := (List.range b.r).foldl (fun (acc : Dev × Mat) r =>
      let d := acc.1
      let f := (d.freeBits (32 * n)).toNat
      let y := row b.opc (2 * nt + r)
      let x := (List.range n).map (fun k =>
        match (hs.getD r []).getD k none with
        | none => ({} : CQ)
        | some h =>
          let den := h.norm2 + b.reg
          if den = 0 then ci16Value b.out0.exp (leBytes 4 (f >>> (32 * k)))
          else ((y.getD k {}).mul h.conj).scale (1 / den))
      let keep := fun (i : Nat) => ((hs.getD r []).getD (i / 2) none).isNone
      let (d, x) := d.used.nudgeRow keep x
      (d, acc.2 ++ [x])) (d, [])
    let (wx, sat) := b.out0.writeData s k0 xs
    if s = 0 && b.out1.present then
      let (d, ws) := hs.foldl (fun (acc : Dev × List Nat) l =>
        if bad then (acc.1, acc.2 ++ [0])
        else
          let e := sumQ (l.map (fun h => (h.getD {}).norm2)) / (n : Rat)
          let (d, w) := acc.1.weightOf ((b.wscale : Rat) * pow2 (-8) * e / b.noise)
          (d, acc.2 ++ [w])) (d, [])
      (d, .ok { writes := wx ++ weightWrite b.out1 g ws, sat := sat, notPd := bad })
    else (d, .ok { writes := wx, sat := sat, notPd := bad })

/-- An EQM step (R184). -/
def Dev.eqmStep (d : Dev) (ag : Agent) (b : BDesc) (g : Nat) : StepRes :=
  let k0 := g * b.nsc
  let n := b.groupNsc g
  let ts := List.range b.train
  let pl := ts.flatMap (fun t => b.opa.readData t b.c k0 n)
  let yl := ts.flatMap (fun t => b.opd.readData t b.r k0 n)
  match d.readMany ag (pl ++ yl) with
  | (d, _, some e) => (d, .error e)
  | (d, bs, none) =>
    let np := b.train * b.c
    let cols := b.train * n
    let p := matOf b.c cols (fun l i => (ci16Values b.opa.exp n (bs.getD (i / n * b.c + l) [])).getD (i % n) {})
    let y := matOf b.r cols (fun a i => (ci16Values b.opd.exp n (bs.getD (np + i / n * b.r + a) [])).getD (i % n) {})
    let ph := p.herm b.c cols
    let pp := p.mul ph b.c cols b.c
    let out := fun (d : Dev) (w h : Mat) (bad : Bool) =>
      let (ww, s1) := b.out0.writeBfp g b.r w
      let (wh, s2) := if b.out1.present then b.out1.writeCi g h else ([], false)
      ((d, .ok { writes := ww ++ wh, sat := s1 || s2, notPd := bad }) : StepRes)
    match ldl pp b.c with
    | none => out d (zeroMat b.c b.r) (zeroMat b.r b.c) true
    | some f =>
      let pinv := f.inverse b.c
      let h := (y.mul ph b.r cols b.c).mul pinv b.r b.c b.c
      let okP := wellConditioned pp pinv
      let hh := h.herm b.r b.c
      let km := (hh.mul h b.c b.r b.c).addDiag b.c b.reg
      match ldl km b.c with
      | none =>
        let (d, h) := d.settleRows okP keepNone h
        out d (zeroMat b.c b.r) h true
      | some f =>
        let kinv := f.inverse b.c
        let (d, w) := d.settleRows (okP && wellConditioned km kinv) keepNone (kinv.mul hh b.c b.c b.r)
        let (d, h) := d.settleRows okP keepNone h
        out d w h false

/-! ### Steps and completion -/

/-- Number of steps of a job (R177). -/
def BDesc.steps (b : BDesc) : Nat := if 4 ≤ b.op ∧ b.op ≤ 6 then b.ngrp * b.nsym else b.ngrp

/-- The group-status byte after a step (R182). -/
def groupByte (first : Bool) (old : Nat) (o : StepOut) : Nat :=
  let conv := decide (o.conv = some true) && (first || bit old 2)
  b2n (bit old 0 || o.notPd) + 2 * b2n (bit old 1 || o.sat) + 4 * b2n conv + 8 * b2n (bit old 3 || decide (o.conv = some false))
    + 16 * max (old / 16) o.sweeps

/-- The job after a step that has written its outputs (R166, R167, R191, R198). -/
def Dev.beamStepDone (d : Dev) (u : Nat) (b : BDesc) (j : EJob) (g : Nat) (o : StepOut) (byte : Nat) : Dev :=
  let newBad := o.notPd && !bit (Tab.get (fun _ => 0) j.gstat g) 0
  let d := d.bump (engCnt 0 u 3)
  let d := d.bumpBy (engCnt 0 u 4) o.sweeps
  let d := if o.conv = some true then d.bump (engCnt 0 u 5) else d
  let d := if o.conv = some false then d.bump (engCnt 0 u 6) else d
  let d := if newBad then d.bump (engCnt 0 u 7) else d
  let d := if o.sat then d.bump (engCnt 0 u 8) else d
  let n := j.step + 1
  let j := { j with
    step := n, pos := n % b.ngrp + 2 ^ 16 * (n / b.ngrp), sat := j.sat || o.sat, notPd := j.notPd || o.notPd,
    capped := j.capped || decide (o.conv = some false), failed := j.failed + b2n newBad, sweeps := j.sweeps + o.sweeps,
    gstat := Tab.put (fun _ => 0) j.gstat g byte }
  let flagged := j.sat || j.notPd || j.capped
  d.setRun 0 u { j with status := if n = b.steps then some (b2n flagged, none) else none }

/-- One step of the running job of a beam engine, when its OP is `op`; `fault` says that an internal check fails (R191,
R192). -/
def Dev.beamStep (d : Dev) (u op : Nat) (fault : Bool) : Dev :=
  match (d.eng 0 u).run with
  | none => d
  | some j =>
    let b := parseBeam j.bytes
    if j.status.isSome || b.op ≠ op then d
    else if fault then d.setRun 0 u { j with status := some (0x15, none) }
    else
      let ag := Agent.beam u
      let g := j.step % b.ngrp
      let s := j.step / b.ngrp
      let base := benBase u
      let cap :=
        if op ≠ 5 then 0
        else if j.cap ≠ 0 then j.cap
        else marginCap (d.regN (base + 0x24)) (d.regN (base + 0x28)) 1 b.iter b.deadline d.now
      let j := { j with cap := cap }
      let (d, r) := match op with
        | 1 => d.gramStep ag b g
        | 2 => d.cholStep ag b g
        | 3 => d.solveStep ag b g
        | 4 => d.applyStep ag b g s
        | 5 => d.detectStep ag b g s cap
        | 6 => d.eq1Step ag b g s
        | _ => d.eqmStep ag b g
      match r with
      | .error (st, a) => d.setRun 0 u { j with status := some (st, some a) }
      | .ok o =>
        let byte := groupByte (s = 0) (Tab.get (fun _ => 0) j.gstat g) o
        let gw := if b.gstat = 0 then [] else [(b.gstat + g, leBytes 1 byte)]
        match d.writeMany ag (o.writes ++ gw) with
        | (d, some (st, a)) => d.setRun 0 u { j with status := some (st, some a) }
        | (d, none) => d.beamStepDone u b j g o byte

/-- The completion word of a beam job (R167). -/
def beamWord (b : BDesc) (j : EJob) (status : Nat) : Nat :=
  b.out0.addr + 2 ^ 40 * status + 2 ^ 48 * j.cap + 2 ^ 52 * b2n j.notPd + 2 ^ 53 * b2n j.sat + 2 ^ 54 * b2n j.capped

/-- BEAM_COMPLETION: the running job has nothing left to do and delivers its completion (R167). -/
def Dev.beamComplete (d : Dev) (u : Nat) : Dev :=
  match (d.eng 0 u).run with
  | none => d
  | some j =>
    match j.status with
    | none => d
    | some (status, _) =>
      let b := parseBeam j.bytes
      let w := beamWord b j status
      let now := d.now
      let rec' := fun (ea : Nat) =>
        leBytes 4 j.ref ++ leBytes 4 (w >>> 32) ++ leBytes 2 (min j.failed 65535) ++ leBytes 2 (min j.step 65535)
          ++ leBytes 4 j.sweeps ++ leBytes 8 now ++ leBytes 8 ea
      (d.deliver 0 u j status w rec' b.out0.addr).nextRun 0 u

end Sys2Proof.Machine
end

