-- ==== Sys2Proof/Machine/Codes.lean ====
section
/-!
DEFINITION. The codes of the coding units on bit strings: scrambling, CRC attachment, turbo, LDPC rate matching, polar,
Reed–Muller, convolutional and small-block encoding (R207, R223, R227). The standards' own definitions are assumption log 23.
-/
namespace Sys2Proof.Machine

/-! ### Bits -/

/-- The `n` low bits of a number, most significant first. -/
def natBits (n v : Nat) : List Bool := (List.range n).map (fun i => v.testBit (n - 1 - i))

/-- A bit string as bytes in the bit order of R206, the last byte completed with zeros. -/
def bitsBytes (l : List Bool) : List Byte :=
  (List.range (ceilDiv l.length 8)).map (fun i =>
    BitVec.ofNat 8 (((l.drop (8 * i)).take 8 ++ List.replicate (8 - ((l.drop (8 * i)).take 8).length) false).foldl
      (fun a b => 2 * a + b2n b) 0))

/-- XOR of bit strings. -/
def xorBits (a b : List Bool) : List Bool := List.zipWith xor a b

/-- The 31-bit registers of the scrambling sequence after a step: x1 feeds back taps 0 and 3, x2 taps 0 to 3
(TS 38.211 5.2.1). -/
def goldStep (s : Nat × Nat) : Nat × Nat :=
  let f1 := xor (s.1.testBit 0) (s.1.testBit 3)
  let f2 := xor (xor (s.2.testBit 0) (s.2.testBit 1)) (xor (s.2.testBit 2) (s.2.testBit 3))
  (s.1 / 2 + b2n f1 * 2 ^ 30, s.2 / 2 + b2n f2 * 2 ^ 30)

/-- `n` bits of a scrambling sequence from its registers. -/
def goldBits : Nat → Nat × Nat → List Bool
  | 0, _ => []
  | n + 1, s => xor (s.1.testBit 0) (s.2.testBit 0) :: goldBits n (goldStep s)

/-- Registers after `n` steps. -/
def goldSkip : Nat → Nat × Nat → Nat × Nat
  | 0, s => s
  | n + 1, s => goldSkip n (goldStep s)

/-- c(off) to c(off + n − 1) of the sequence that R207 names. -/
def goldSeq (cinit off n : Nat) : List Bool := goldBits n (goldSkip (1600 + off) (1, cinit))

/-- Width and generator of a code-block CRC: 1 CRC24A, 2 CRC24B, 3 CRC16 (R204). -/
def cbCrc (sel : Nat) : Nat × Nat :=
  match sel with
  | 1 => (24, 0x864CFB) | 2 => (24, 0x800063) | 3 => (16, 0x1021) | _ => (0, 0)

/-- The CRC of a bit string with zero initial value, as bits. -/
def crcAttach (w g : Nat) (l : List Bool) : List Bool := natBits w (crcBits w g 0 l)

/-- Modulation order of a QM code (R204). -/
def qmOrder (q : Nat) : Nat := if q = 0 then 1 else 2 * q

/-! ### Circular buffers -/

/-- Buffer positions of `e` selected bits: from `k0` round a buffer of `n` positions, without those that are skipped. -/
def selectPos (n k0 e : Nat) (skip : Nat → Bool) : List Nat :=
  let ring := (List.range n).map (fun i => (k0 + i) % n)
  let ok := (ring.filter (fun p => !skip p)).toArray
  if ok.size = 0 then [] else (List.range e).map (fun j => ok.getD (j % ok.size) 0)

/-! ### LDPC (TS 38.212 5.3.2, 5.4.2) -/

/-- K over Z, and buffer length over Z. -/
def ldpcKb (bg1 : Bool) : Nat := if bg1 then 22 else 10
def ldpcNb (bg1 : Bool) : Nat := if bg1 then 66 else 50
def ldpcLmax (bg1 : Bool) : Nat := if bg1 then 46 else 42

/-- k0 of Table 5.4.2.1-2. -/
def ldpcK0 (bg1 : Bool) (z ncb rv : Nat) : Nat :=
  let f := match bg1, rv with
    | _, 0 => 0
    | true, 1 => 17 | true, 2 => 33 | true, _ => 56
    | false, 1 => 13 | false, 2 => 25 | false, _ => 43
  f * ncb / (ldpcNb bg1 * z) * z

/-- A position that holds a filler bit. -/
def ldpcFiller (bg1 : Bool) (z fill p : Nat) : Bool :=
  let k := ldpcKb bg1 * z
  decide (k - fill - 2 * z ≤ p) && decide (p < k - 2 * z)

/-- Buffer positions of a code block's E bits before interleaving. -/
def ldpcPos (bg1 : Bool) (z fill ncb rv e : Nat) : List Nat := selectPos ncb (ldpcK0 bg1 z ncb rv) e (ldpcFiller bg1 z fill)

/-- Bit interleaving (5.4.2.2): output bit i + j × Qm is input bit i × E/Qm + j. -/
def bitInterleave {α : Type} (qm : Nat) (dflt : α) (l : List α) : List α :=
  let a := l.toArray
  let n := l.length / qm
  (List.range (n * qm)).map (fun k => a.getD (k % qm * n + k / qm) dflt)

/-- Its inverse. -/
def bitDeinterleave {α : Type} (qm : Nat) (dflt : α) (l : List α) : List α :=
  let a := l.toArray
  let n := l.length / qm
  (List.range (n * qm)).map (fun k => a.getD (k % n * qm + k / n) dflt)

/-- The 51 lifting sizes of Table 5.3.2-1. -/
def liftingOk (z : Nat) : Bool :=
  decide (2 ≤ z) && decide (z ≤ 384) && (List.range 8).any (fun j =>
    [2, 3, 5, 7, 9, 11, 13, 15].any (fun a => a * 2 ^ j = z))

/-- Lact of R215 from the highest position that counts; 4 where there is none. -/
def ldpcLact (bg1 : Bool) (z : Nat) (top : Option Nat) : Nat :=
  match top with
  | none => 4
  | some n => min (ldpcLmax bg1) (max 4 (n / z + 3 - ldpcKb bg1))

/-- The circular buffer of an encoded code block: codeword bits from 2Z on. -/
def ldpcBuffer (bg1 : Bool) (z : Nat) (sys : List Bool) : List Bool :=
  let n := ldpcNb bg1 * z
  ((sys ++ Config.ldpcParity bg1 z sys).drop (2 * z) ++ List.replicate n false).take n

/-! ### Turbo (TS 36.212 5.1.3.2, 5.1.4.1) -/

/-- A constituent encoder's registers. -/
structure Rsc where
  a : Bool := false
  b : Bool := false
  c : Bool := false
  deriving DecidableEq, Repr

/-- One bit through a constituent encoder: parity and registers. -/
def Rsc.step (s : Rsc) (x : Bool) : Bool × Rsc :=
  let w := xor x (xor s.b s.c)
  (xor w (xor s.a s.c), ⟨w, s.a, s.b⟩)

/-- One tail step: the tail bit, parity and registers. -/
def Rsc.tail (s : Rsc) : Bool × Bool × Rsc := (xor s.b s.c, xor s.a s.c, ⟨false, s.a, s.b⟩)

/-- The parities of a bit string and the three tail pairs. -/
def rscRun : List Bool → Rsc → List Bool × List (Bool × Bool)
  | [], s =>
    let (x0, z0, s) := s.tail
    let (x1, z1, s) := s.tail
    let (x2, z2, _) := s.tail
    ([], [(x0, z0), (x1, z1), (x2, z2)])
  | x :: xs, s =>
    let (z, s) := s.step x
    let (zs, t) := rscRun xs s
    (z :: zs, t)

/-- f1 and f2 of a block size; none where it is no size of Table 5.1.3-3. -/
def qppOf (k : Nat) : Option (Nat × Nat) := ((turboSizes.zip turboQpp).find? (fun e => decide (e.1 = k))).map (·.2)

/-- The interleaved bits. -/
def turboInterleave (l : List Bool) : List Bool :=
  let k := l.length
  let (f1, f2) := (qppOf k).getD (1, 0)
  let a := l.toArray
  (List.range k).map (fun i => a.getD ((f1 * i + f2 * i * i) % k) false)

/-- The three output streams of K + 4 bits; the first F bits of the first two are NULL. -/
def turboStreams (fill : Nat) (l : List Bool) : List (List (Option Bool)) :=
  let (z, t) := rscRun l {}
  let (z', t') := rscRun (turboInterleave l) {}
  let x := fun i => (t.getD i (false, false)).1
  let y := fun i => (t.getD i (false, false)).2
  let x' := fun i => (t'.getD i (false, false)).1
  let y' := fun i => (t'.getD i (false, false)).2
  let null := fun (s : List Bool) => List.replicate fill none ++ (s.drop fill).map some
  [null l ++ [some (x 0), some (y 1), some (x' 0), some (y' 1)],
   null z ++ [some (y 0), some (x 2), some (y' 0), some (x' 2)],
   z'.map some ++ [some (x 1), some (y 2), some (x' 1), some (y' 2)]]

/-- Rows of the turbo sub-block interleaver for a block size, and its length K_Π. -/
def turboRows (k : Nat) : Nat := ceilDiv (k + 4) 32
def turboPi (k : Nat) : Nat := 32 * turboRows k

/-- Index in its stream of buffer position `p`, and the stream; none is a dummy bit (5.1.4.1.1, 5.1.4.1.2). -/
def turboSource (k p : Nat) : Option (Nat × Nat) :=
  let r := turboRows k
  let kp := turboPi k
  let nd := kp - (k + 4)
  let place := fun (i : Nat) => turboCols.getD (i / r) 0 + 32 * (i % r)
  let (s, y) :=
    if p < kp then (0, place p)
    else
      let q := (p - kp) / 2
      if (p - kp) % 2 = 0 then (1, place q) else (2, (place q + 1) % kp)
  if y < nd then none else some (s, y - nd)

/-- A buffer position that rate matching skips: a dummy bit or a NULL filler. -/
def turboSkip (k fill p : Nat) : Bool :=
  match turboSource k p with
  | none => true
  | some (s, i) => decide (s ≤ 1) && decide (i < fill)

/-- Buffer positions of a code block's E bits. -/
def turboPos (k fill ncb rv e : Nat) : List Nat :=
  let r := turboRows k
  selectPos ncb ((r * (2 * ceilDiv ncb (8 * r) * rv + 2)) % ncb) e (turboSkip k fill)

/-- The coded bit at a buffer position. -/
def turboBit (k : Nat) (streams : List (List (Option Bool))) (p : Nat) : Bool :=
  match turboSource k p with
  | none => false
  | some (s, i) => ((streams.getD s []).getD i none).getD false

/-! ### Polar (TS 38.212 5.3.1, 5.4.1) -/

/-- Least n with 2^n not below a number. -/
def clog2 (n : Nat) : Nat := if n ≤ 1 then 0 else (n - 1).log2 + 1

/-- Mother code length for K bits with CRC in E. -/
def polarN (k e nmax : Nat) : Nat :=
  let l := clog2 e
  let n1 := if 8 * e ≤ 9 * 2 ^ (l - 1) ∧ 16 * k < 9 * e then l - 1 else l
  2 ^ max (min (min n1 (clog2 (8 * k))) nmax) 5

/-- J(n) of sub-block interleaving. -/
def polarJ (n i : Nat) : Nat := polarSub.getD (32 * i / n) 0 * (n / 32) + i % (n / 32)

/-- Indices that rate matching freezes beforehand. -/
def polarPre (n k e : Nat) : List Nat :=
  if n ≤ e then []
  else if 16 * k ≤ 7 * e then
    (List.range (n - e)).map (polarJ n)
      ++ List.range (if 3 * n ≤ 4 * e then ceilDiv (3 * n - 2 * e) 4 else ceilDiv (9 * n - 4 * e) 16)
  else (List.range (n - e)).map (fun i => polarJ n (e + i))

/-- Indices that may carry information, by rising reliability. -/
def polarUsable (n k e : Nat) : List Nat :=
  let pre := polarPre n k e
  (polarSeq.filter (fun i => decide (i < n))).filter (fun i => !pre.contains i)

/-- Row weight exponent of an index. -/
def rowWeight (i : Nat) : Nat := popcount 10 i

/-- Parity-check indices: the least reliable ones, and with n_wm = 1 the most reliable of least row weight. -/
def polarPc (info : List Nat) (npc nwm : Nat) : List Nat :=
  let low := info.take (npc - nwm)
  if nwm = 0 then low
  else
    match minBy rowWeight (info.drop npc).reverse with
    | some i => low ++ [i]
    | none => low

/-- u from the bits to be coded: information and parity-check bits placed in rising index (5.3.1.2). -/
def polarU (info pc : List Nat) (n : Nat) (c : List Bool) : List Bool :=
  ((List.range n).foldl (fun (acc : List Bool × List Bool × List Bool) i =>
    let (u, y, c) := acc
    let y := y.drop 1 ++ y.take 1
    if !info.contains i then (u ++ [false], y, c)
    else if pc.contains i then (u ++ [y.headD false], y, c)
    else
      let b := c.headD false
      (u ++ [b], xor (y.headD false) b :: y.drop 1, c.drop 1)) ([], List.replicate 5 false, c)).1

/-- The polar transform: d = u G. -/
def polarTransform : Nat → List Bool → List Bool
  | 0, l => l
  | n + 1, l =>
    let h := 2 ^ n
    let a := polarTransform n (l.take h)
    let b := polarTransform n (l.drop h)
    xorBits a b ++ b

/-- Input interleaving (5.3.1.1). -/
def polarInput (c : List Bool) : List Bool :=
  let k := c.length
  (polarIl.filter (fun m => decide (164 - k ≤ m))).map (fun m => c.getD (m - (164 - k)) false)

/-- Channel interleaving in a triangle (5.4.1.3). -/
def polarTriangle (l : List Bool) : List Bool :=
  let e := l.length
  let t := ((List.range (e + 1)).find? (fun t => decide (e ≤ t * (t + 1) / 2))).getD 0
  let a := l.toArray
  (List.range t).flatMap (fun j =>
    ((List.range (t - j)).map (fun i => i * t - i * (i - 1) / 2 + j)).filterMap (fun k =>
      if k < e then some (a.getD k false) else none))

/-- E coded bits of K bits with CRC; none where the code has no room for them. -/
def polarCode (c : List Bool) (e nmax : Nat) (il bil : Bool) (npc nwm : Nat) : Option (List Bool) :=
  let k := c.length
  let n := polarN k e nmax
  let use := polarUsable n k e
  if use.length < k + npc then none
  else
    let info := use.drop (use.length - (k + npc))
    let u := polarU info (polarPc info npc nwm) n (if il then polarInput c else c)
    let d := (polarTransform n.log2 u).toArray
    let y := fun i => d.getD (polarJ n i) false
    let f := (List.range e).map (fun i =>
      if n ≤ e then y (i % n) else if 16 * k ≤ 7 * e then y (i + n - e) else y i)
    some (if bil then polarTriangle f else f)

/-- A payload with its CRC as a polar code block. -/
def polarUci (a : List Bool) (e : Nat) : Option (List Bool) :=
  if a.length < 20 then
    let c := a ++ crcAttach 6 0x21 a
    polarCode c e 10 false true 3 (if 192 + c.length < e + 3 then 1 else 0)
  else polarCode (a ++ crcAttach 11 0x621 a) e 10 false true 0 0

/-- The E bits of a polar encoding of channel `ch` (R227). -/
def polarEncode (ch : Nat) (a : List Bool) (e : Nat) (mask : Option Nat) : Option (List Bool) :=
  if ch = 2 then
    if 360 ≤ a.length ∧ 1088 ≤ e then
      let h := ceilDiv a.length 2
      let a := List.replicate (2 * h - a.length) false ++ a
      match polarUci (a.take h) (e / 2), polarUci (a.drop h) (e / 2) with
      | some x, some y => some (x ++ y ++ List.replicate (e - 2 * (e / 2)) false)
      | _, _ => none
    else polarUci a e
  else
    let ones := if ch = 1 then List.replicate 24 true else []
    let crc := crcBits 24 0xB2B117 0 (ones ++ a)
    let crc := match mask with | some m => crc ^^^ m | none => crc
    polarCode (a ++ natBits 24 crc) e 9 true false 0 0

/-! ### Reed–Muller, small block, convolutional -/

/-- The coded bits of a payload under basis columns of `n` rows, repeated to E. -/
def rmEncode (cols : List Nat) (n : Nat) (a : List Bool) (e : Nat) : List Bool :=
  let w := (a.zip cols).foldl (fun x p => if p.1 then x ^^^ p.2 else x) 0
  (List.range e).map (fun i => w.testBit (i % n))

/-- A symbol of a small-block codeword: a bit, or a placeholder. -/
inductive SbSym where
  | bit (b : Bool)
  | x
  | y
  deriving DecidableEq, Repr

/-- The codeword of a small block (TS 38.212 Tables 5.3.3.1-1 and 5.3.3.2-1). -/
def sbWord (qm : Nat) (a : List Bool) : List SbSym :=
  let c0 := SbSym.bit (a.getD 0 false)
  let xs := List.replicate (qm - 2) SbSym.x
  if a.length = 1 then (if qm = 1 then [c0] else [c0, .y] ++ xs)
  else
    let c1 := SbSym.bit (a.getD 1 false)
    let c2 := SbSym.bit (xor (a.getD 0 false) (a.getD 1 false))
    if qm = 1 then [c0, c1, c2] else [c0, c1] ++ xs ++ [c2, c0] ++ xs ++ [c1, c2] ++ xs

/-- The E transmitted bits of a small block, scrambled when a sequence is given: x is 1, y repeats the bit before it. -/
def sbEncode (qm : Nat) (a : List Bool) (e : Nat) (scr : List Bool) : List Bool :=
  let w := (sbWord qm a).toArray
  let s := scr.toArray
  ((List.range e).foldl (fun (acc : List Bool × Bool) i =>
    let b := match w.getD (i % w.size) .x with
      | .bit b => xor b (s.getD i false)
      | .x => true
      | .y => acc.2
    (b :: acc.1, b)) ([], false)).1.reverse

/-- Taps of a convolutional output: bit j is the tap at delay j. -/
def convTaps (s : Nat) : List Nat :=
  match s with
  | 0 => [0, 2, 3, 5, 6]
  | 1 => [0, 1, 2, 3, 6]
  | _ => [0, 1, 2, 4, 6]

/-- A tail-biting output stream (TS 36.212 5.1.3.1). -/
def convStream (l : List Bool) (s : Nat) : List Bool :=
  let a := l.toArray
  let k := l.length
  (List.range k).map (fun i => (convTaps s).foldl (fun b j => xor b (a.getD ((i + k * 6 - j) % k) false)) false)

/-- One stream through the sub-block interleaver; none is a dummy (TS 36.212 5.1.4.2.1). -/
def convInterleave (l : List Bool) : List (Option Bool) :=
  let r := ceilDiv l.length 32
  let nd := 32 * r - l.length
  let a := l.toArray
  convCols.flatMap (fun c => (List.range r).map (fun i =>
    let p := 32 * i + c
    if p < nd then none else some (a.getD (p - nd) false)))

/-- The E bits of a convolutional encoding. -/
def convEncode (l : List Bool) (e : Nat) : List Bool :=
  let w := ((List.range 3).flatMap (fun s => convInterleave (convStream l s))).filterMap id
  let a := w.toArray
  if a.size = 0 then [] else (List.range e).map (fun i => a.getD (i % a.size) false)

end Sys2Proof.Machine
end

