-- ==== Sys2Proof/Machine/FecDesc.lean ====
section
/-!
DEFINITION. Descriptors of the coding units and their checks (R203 to R205, R207, R226, R227, R229).
-/
namespace Sys2Proof.Machine

/-- A decoder or encoder descriptor with its arguments put in place (R203, R204). -/
structure FDesc where
  code   : Nat
  bg1    : Bool
  qm     : Nat
  crc    : Nat
  et     : Bool
  comb   : Bool
  store  : Nat
  scr    : Bool
  late   : Bool
  deadline : Nat
  ka     : Nat
  kb     : Nat
  ksplit : Nat
  ncb    : Nat
  esplit : Nat
  rv     : Nat
  z      : Nat
  fill   : Nat
  ncbuf  : Nat
  ea     : Nat
  eb     : Nat
  cinit  : Nat
  soff   : Nat
  src    : Nat
  out    : Nat
  harq   : Nat
  result : Nat
  ostride : Nat
  hstride : Nat
  ibit   : Nat
  obit   : Nat
  deriving DecidableEq, Repr

/-- Address `tgt` of ARGUSE with its argument put in place: 1 IN, 2 OUT, 3 HARQ, 4 RESULT (R204). -/
def fecAddr (bs : List Byte) (tgt : Nat) : Nat :=
  let c := leAt bs 0 4
  if fld c 16 14 = tgt then fld (leAt bs 8 8) 39 0
  else if fld c 19 17 = tgt then fld (leAt bs 16 8) 39 0
  else fld (leAt bs (56 + 8 * tgt) 8) 39 0

/-- The descriptor that bytes spell. -/
def parseFec (bs : List Byte) : FDesc :=
  let c := leAt bs 0 4
  { code := fld c 1 0, bg1 := !bit c 2, qm := fld c 5 3, crc := fld c 7 6, et := bit c 8, comb := bit c 9,
    store := fld c 11 10, scr := bit c 12, late := bit c 13, deadline := leAt bs 24 8, ka := leAt bs 32 2, kb := leAt bs 34 2,
    ksplit := fld (leAt bs 36 1) 6 0, ncb := fld (leAt bs 37 1) 6 0, esplit := fld (leAt bs 38 1) 6 0,
    rv := fld (leAt bs 39 1) 1 0, z := fld (leAt bs 40 2) 8 0, fill := leAt bs 42 2, ncbuf := fld (leAt bs 44 4) 16 0,
    ea := fld (leAt bs 48 4) 23 0, eb := fld (leAt bs 52 4) 23 0, cinit := fld (leAt bs 56 4) 30 0, soff := leAt bs 60 4,
    src := fecAddr bs 1, out := fecAddr bs 2, harq := fecAddr bs 3, result := fecAddr bs 4, ostride := leAt bs 96 4,
    hstride := leAt bs 100 4, ibit := leAt bs 104 4, obit := leAt bs 108 4 }

/-- K of code block r. -/
def FDesc.k (f : FDesc) (r : Nat) : Nat := if r < f.ksplit then f.ka else f.kb

/-- E of code block r. -/
def FDesc.e (f : FDesc) (r : Nat) : Nat := if r < f.esplit then f.ea else f.eb

/-- Rate-matched bits of the job before code block r. -/
def FDesc.eBefore (f : FDesc) (r : Nat) : Nat := ((List.range r).map f.e).sum

/-- Fillers of code block r (R207). -/
def FDesc.fillOf (f : FDesc) (r : Nat) : Nat := if f.code = 0 || r = 0 then f.fill else 0

/-- Kout of code block r (R217). -/
def FDesc.kout (f : FDesc) (r : Nat) : Nat := f.k r - f.fillOf r

/-- Data lines of a HARQ buffer (R210). -/
def FDesc.lines (f : FDesc) : Nat := ceilDiv f.ncbuf 64

/-- The job uses its HARQ buffers. -/
def FDesc.usesHarq (f : FDesc) : Bool := f.comb || decide (f.store ≠ 0)

/-- Buffer positions that the bits of code block r are selected from, in their order (R207, R208). -/
def FDesc.positions (f : FDesc) (r : Nat) : List Nat :=
  if f.code = 0 then ldpcPos f.bg1 f.z f.fill f.ncbuf f.rv (f.e r)
  else turboPos (f.k r) (f.fillOf r) f.ncbuf f.rv (f.e r)

/-- Reserved fields are 0, and the fields that the unit's kind does not use (R203, R204, R205). -/
def fecReservedOk (encoder : Bool) (bs : List Byte) : Bool :=
  let c := leAt bs 0 4
  let f := parseFec bs
  let top := [36, 37, 38].all (fun o => !bit (leAt bs o 1) 7)
  let addrs := [64, 72, 80, 88].all (fun o => decide (fld (leAt bs o 8) 63 40 = 0))
  let lens := [48, 52].all (fun o => decide (leAt bs (o + 3) 1 = 0))
  decide (fld c 31 20 = 0) && decide (fld (leAt bs 4 4) 30 18 = 0) && top && addrs && lens
    && decide (fld (leAt bs 39 1) 7 6 = 0) && decide (fld (leAt bs 40 2) 15 9 = 0) && decide (fld (leAt bs 44 4) 31 17 = 0)
    && !bit (leAt bs 56 4) 31 && (bs.drop 112).all (fun b => b = 0)
    && (f.code = 0 || (f.bg1 && f.qm = 0 && f.z = 0))
    && (if encoder then
          !f.et && !f.comb && f.store = 0 && !f.late && fld (leAt bs 39 1) 5 2 = 0 && f.harq = 0 && f.result = 0
            && leAt bs 80 8 = 0 && leAt bs 88 8 = 0 && f.ostride = 0 && f.hstride = 0
        else f.ibit = 0 && f.obit = 0)

/-- The code parameters are supported (R207). -/
def FDesc.codeOk (f : FDesc) : Bool :=
  if f.code = 0 then
    let k := ldpcKb f.bg1 * f.z
    liftingOk f.z && f.ka = k && f.kb = k && decide (f.fill + 2 * f.z < k) && decide (1 ≤ f.ncbuf)
      && decide (f.ncbuf ≤ ldpcNb f.bg1 * f.z) && f.ea % qmOrder f.qm = 0 && f.eb % qmOrder f.qm = 0
  else
    (qppOf f.ka).isSome && (qppOf f.kb).isSome && decide (f.fill < f.ka) && decide (1 ≤ f.ncbuf)
      && decide (f.ncbuf ≤ 3 * turboPi f.ka) && decide (f.ncbuf ≤ 3 * turboPi f.kb)

/-- The checks of R205: 0, or BAD_DESC, then ALIGN. -/
def fecCheck (encoder : Bool) (bs : List Byte) : Nat :=
  let f := parseFec bs
  let c := leAt bs 0 4
  let kout := ((List.range f.ncb).map f.kout).foldl max 0
  let good := fecReservedOk encoder bs && decide (f.code ≤ 1) && decide (f.qm ≤ 4) && decide (f.store ≤ 2)
    && argUseOk (fld c 16 14) (fld c 19 17) 4
    && decide (1 ≤ f.ncb) && decide (f.ncb ≤ 64) && decide (f.ksplit ≤ f.ncb) && decide (f.esplit ≤ f.ncb)
    && [f.ea, f.eb].all (fun e => decide (1 ≤ e) && decide (e ≤ 262144)) && f.codeOk
    && decide (f.src ≠ 0) && decide (f.out ≠ 0)
    && (encoder || (!(f.usesHarq && f.harq = 0) && (!f.usesHarq || decide (64 + 64 * f.lines ≤ f.hstride))
      && decide (ceilDiv kout 8 ≤ f.ostride)))
  if !good then 0x10
  else if f.harq % 64 ≠ 0 || f.hstride % 64 ≠ 0 || f.result % 8 ≠ 0 then 0x13
  else 0

/-- A codec descriptor with its arguments put in place (R226). -/
structure KDesc where
  fn    : Nat
  ch    : Nat
  scr   : Bool
  masked : Bool
  qm    : Nat
  a     : Nat
  e     : Nat
  mask  : Nat
  cinit : Nat
  src   : Nat
  out   : Nat
  deriving DecidableEq, Repr

/-- Address `tgt` of a codec descriptor: 1 IN, 2 OUT. -/
def codecAddr (bs : List Byte) (tgt : Nat) : Nat :=
  let c := leAt bs 0 4
  if fld c 13 11 = tgt then fld (leAt bs 8 8) 39 0
  else if fld c 16 14 = tgt then fld (leAt bs 16 8) 39 0
  else fld (leAt bs (40 + 8 * tgt) 8) 39 0

/-- The codec descriptor that bytes spell. -/
def parseCodec (bs : List Byte) : KDesc :=
  let c := leAt bs 0 4
  { fn := fld c 3 0, ch := fld c 5 4, scr := bit c 6, masked := bit c 7, qm := fld c 10 8, a := leAt bs 32 2,
    e := leAt bs 36 4, mask := leAt bs 40 2, cinit := fld (leAt bs 44 4) 30 0, src := codecAddr bs 1, out := codecAddr bs 2 }

/-- Ranges of A and of E for a function pair and CH (R227); none where CH is not listed. -/
def codecRange (f ch : Nat) : Option ((Nat × Nat) × (Nat × Nat)) :=
  match f, ch with
  | 0, 0 => some ((32, 32), (864, 864))
  | 0, 1 => some ((12, 140), (1, 8192))
  | 0, 2 => some ((12, 1706), (1, 16384))
  | 1, 0 => some ((3, 11), (1, 8192))
  | 1, 1 => some ((1, 13), (20, 20))
  | 2, 0 => some ((24, 24), (1, 8192))
  | 2, 1 => some ((1, 128), (1, 8192))
  | 2, 2 => some ((1, 512), (1, 8192))
  | 3, 0 => some ((1, 2), (1, 8192))
  | _, _ => none

/-- The checks of R229. -/
def codecCheck (bs : List Byte) : Nat :=
  let k := parseCodec bs
  let c := leAt bs 0 4
  let reserved := decide (fld c 31 17 = 0) && decide (fld (leAt bs 4 4) 30 18 = 0) && decide (leAt bs 34 2 = 0)
    && decide (leAt bs 42 2 = 0) && !bit (leAt bs 44 4) 31 && decide (fld (leAt bs 48 8) 63 40 = 0)
    && decide (fld (leAt bs 56 8) 63 40 = 0)
  let range := match codecRange (k.fn / 2) k.ch with
    | none => false
    | some (ra, re) => decide (ra.1 ≤ k.a) && decide (k.a ≤ ra.2) && decide (re.1 ≤ k.e) && decide (k.e ≤ re.2)
  let good := reserved && decide (k.fn ≤ 7) && range && decide (k.qm ≤ 4) && (k.qm = 0 || k.fn = 6 || k.fn = 7)
    && (!k.masked || (k.ch = 1 && (k.fn ≤ 1 || k.fn = 4 || k.fn = 5)))
    && argUseOk (fld c 13 11) (fld c 16 14) 2 && decide (k.src ≠ 0) && decide (k.out ≠ 0)
  if good then 0 else 0x10

end Sys2Proof.Machine
end

