-- ==== Sys2Proof/Machine/Coding.lean ====
section
/-!
DEFINITION. Code blocks through the decoders and encoders (R202, R208 to R225, R234).

The decoder's message arithmetic is its own (R216): its hard decisions and the iteration at which it stops are free values,
held to the rules on termination, CRC checks and reports (assumption log 24).
-/
namespace Sys2Proof.Machine

/-! ### Input and combining (R208 to R214) -/

/-- LLR bytes as numbers; −128 is treated as −127 (R206). -/
def llrOf (b : Byte) : Int := max (-127) b.toInt

/-- LLRs negated where the sequence is 1 (R208). -/
def descramble (seq : List Bool) (l : List Int) : List Int := List.zipWith (fun s x => if s then -x else x) seq l

/-- LLRs added at their positions in a buffer of `n`. -/
def accumulate (n : Nat) (pos : List Nat) (l : List Int) : Array Int :=
  (pos.zip l).foldl (fun (a : Array Int) p => a.setIfInBounds p.1 (a.getD p.1 0 + p.2)) (List.replicate n (0 : Int)).toArray

/-- Line j is VALID in a header (R210). -/
def validLine (hdr : List Byte) (j : Nat) : Bool := bit (hdr.getD (j / 8) 0).toNat (j % 8)

/-- The header that marks a set of lines VALID. -/
def headerOf (s : List Nat) : List Byte :=
  padTo 64 ((List.range 50).map (fun i =>
    BitVec.ofNat 8 ((List.range 8).foldl (fun v b => v + b2n (s.contains (8 * i + b)) * 2 ^ b) 0)))

/-- What reading a HARQ buffer gives: lines that were VALID, their bytes, erased lines, and a decode error. -/
structure HarqIn where
  valid  : List Nat := []
  lines  : List (Nat × List Byte) := []
  erased : Nat := 0
  err    : Option (Nat × Nat) := none
  deriving DecidableEq, Repr

/-- The header, then the VALID lines; poison erases a line or the whole buffer (R211, R214). -/
def Dev.harqRead (d : Dev) (ag : Agent) (a n : Nat) : Dev × HarqIn :=
  match d.busRead ag a 64 with
  | (d, .decode x) => (d, { err := some (0x11, x) })
  | (d, .poison _) => (d, { erased := 396 })
  | (d, .ok hdr) =>
    let valid := (List.range n).filter (validLine hdr)
    valid.foldl (fun (acc : Dev × HarqIn) j =>
      let (d, h) := acc
      match d.busRead ag (a + 64 + 64 * j) 64 with
      | (d, .ok bs) => (d, { h with lines := h.lines ++ [(j, bs)] })
      | (d, .poison _) => (d, { h with erased := h.erased + 1 })
      | (d, .decode x) => (d, { h with err := h.err.orElse (fun _ => some (0x11, x)) })) (d, { valid := valid })

/-- The combined values (R211). -/
def combine (n : Nat) (h : HarqIn) (rx : Array Int) : Array Int :=
  let stored := h.lines.foldl (fun (a : Array Int) l =>
    (List.range 64).foldl (fun (a : Array Int) i => a.setIfInBounds (64 * l.1 + i) (l.2.getD i 0).toInt) a)
    (List.replicate n (0 : Int)).toArray
  ((List.range n).map (fun k => max (-127) (min 127 (stored.getD k 0 + rx.getD k 0)))).toArray

/-- The earlier of two errors in address order (R236). -/
def firstErr (a b : Option (Nat × Nat)) : Option (Nat × Nat) :=
  match a, b with
  | none, e => e
  | some e, none => some e
  | some e, some e' => some (if e'.2 < e.2 then e' else e)

/-! ### Storing (R212, R234) -/

/-- The store of a code block: the lines of S whole, then the header. Bytes of the last line beyond position NCBUF − 1 are
free (assumption log 24). -/
def storeWrites (a n : Nat) (s : List Nat) (acc : Array Int) (spare : Nat) : List (Nat × List Byte) :=
  s.map (fun j => (a + 64 + 64 * j, (List.range 64).map (fun i =>
    if 64 * j + i < n then BitVec.ofNat 8 (ofSigned 8 (acc.getD (64 * j + i) 0)) else BitVec.ofNat 8 (spare >>> (8 * i)))))
    ++ [(a, headerOf s)]

/-- A store that an error cut short leaves the buffer undefined: every line of it takes free bytes (R234). -/
def Dev.harqUndefined (d : Dev) (ag : Agent) (a n : Nat) : Dev :=
  (List.range (n + 1)).foldl (fun d i =>
    let v := (d.freeBits 512).toNat
    (d.used.busWrite ag (a + 64 * i) (leBytes 64 v)).1) d

/-- Store a code block's buffer. -/
def Dev.harqStore (d : Dev) (ag : Agent) (a n : Nat) (s : List Nat) (acc : Array Int) : Dev × Option (Nat × Nat) :=
  let spare := (d.freeBits 512).toNat
  match d.used.writeMany ag (storeWrites a n s acc spare) with
  | (d, none) => (d, none)
  | (d, some e) => (d.harqUndefined ag a (ceilDiv n 64), some e)

/-! ### Decoding (R215 to R219) -/

/-- What decoding a code block gives. -/
structure CbOut where
  bits  : List Bool
  iter  : Nat
  early : Bool
  capped : Bool
  pass  : Bool
  corr  : Nat
  deriving DecidableEq, Repr

/-- Highest buffer position with a value other than 0 (R215). -/
def topPos (acc : Array Int) : Option Nat := (List.range acc.size).reverse.find? (fun k => decide (acc.getD k 0 ≠ 0))

/-- Bits of a free number, `n` of them. -/
def Dev.freeList (d : Dev) (n : Nat) : List Bool := natBits n (d.freeBits n).toNat

/-- Iterations run when the stop rule is met at the last one or not (R218): `least` is the first iteration it can hold at. -/
def Dev.iterations (d : Dev) (et cond : Bool) (least cap : Nat) : Nat :=
  if et && cond then least + d.freeBelow (cap + 1 - least) else cap

/-- CRC of the output bits is 0 (R219). -/
def crcZero (sel : Nat) (bits : List Bool) : Bool := crcBits (cbCrc sel).1 (cbCrc sel).2 0 bits = 0

/-- An LDPC code block: free hard decisions with fillers known zeros (R209, R215, R218, R219). -/
def Dev.ldpcDecode (d : Dev) (f : FDesc) (acc : Array Int) (received : List Nat) (cap : Nat) : Dev × CbOut :=
  let k := ldpcKb f.bg1 * f.z
  let lact := ldpcLact f.bg1 f.z (topPos acc)
  let n := (ldpcKb f.bg1 + lact) * f.z
  let hard := (d.freeList n).mapIdx (fun i b => b && !(decide (k - f.fill ≤ i) && decide (i < k)))
  let d := d.used
  let sat := Config.ldpcSatisfied f.bg1 f.z lact hard
  let iter := d.iterations f.et sat 1 cap
  let bits := hard.take (k - f.fill)
  let h := hard.toArray
  let wrong := received.filter (fun p =>
    let v := acc.getD p 0
    decide (v ≠ 0) && decide (v < 0) != h.getD (p + 2 * f.z) false)
  (d.used, { bits := bits, iter := iter, early := f.et && sat, capped := f.et && !sat,
             pass := if f.crc = 0 then sat else crcZero f.crc bits, corr := min 65535 wrong.length })

/-- A turbo code block: free output bits; the count CORR of coded-bit decisions is free within its bound. -/
def Dev.turboDecode (d : Dev) (f : FDesc) (r : Nat) (acc : Array Int) (received : List Nat) (cap : Nat) : Dev × CbOut :=
  let bits := d.freeList (f.kout r)
  let d := d.used
  let repeated := d.freeBelow 2 = 1 && decide (1 < cap)
  let d := d.used
  let cond := if f.crc = 0 then repeated else crcZero f.crc bits
  let iter := d.iterations f.et cond (if f.crc = 0 then 2 else 1) cap
  let d := d.used
  let most := (received.filter (fun p => decide (acc.getD p 0 ≠ 0))).length
  let corr := min 65535 (d.freeBelow (most + 1))
  (d.used, { bits := bits, iter := iter, early := f.et && cond, capped := f.et && !cond,
             pass := f.crc = 0 || crcZero f.crc bits, corr := corr })

/-- A result entry (R220). -/
def resultEntry (f : FDesc) (o : CbOut) (erased stored : Bool) : List Byte :=
  leBytes 1 (b2n o.pass + 2 * b2n (decide (f.crc ≠ 0)) + 4 * b2n o.early + 8 * b2n o.capped + 16 * b2n erased + 64 * b2n stored)
    ++ leBytes 1 o.iter ++ leBytes 2 o.corr ++ zeros 4

/-- The job ends with an error in its running code block (R234). -/
def Dev.fecEnd (d : Dev) (cls u : Nat) (j : EJob) (e : Nat × Nat) : Dev :=
  d.setRun cls u { j with status := some (e.1, some e.2) }

/-- A decoded code block's counts, and the job after it (R219, R233, R240). -/
def Dev.cbDone (d : Dev) (u : Nat) (f : FDesc) (j : EJob) (o : CbOut) (erased : Bool) : Dev :=
  let d := (d.bump (engCnt 1 u 3)).bumpBy (engCnt 1 u 4) o.iter
  let d := if o.early then d.bump (engCnt 1 u 5) else d
  let d := if o.capped then d.bump (engCnt 1 u 6) else d
  let d := if o.pass then d else d.bump (engCnt 1 u 7)
  let n := j.step + 1
  let j := { j with step := n, pos := n % 128, sweeps := j.sweeps + o.iter, failed := j.failed + b2n o.pass,
                    crcFail := j.crcFail || !o.pass, capped := j.capped || o.capped, erased := j.erased || erased }
  let flagged := j.crcFail || j.capped || j.erased
  d.setRun 1 u { j with status := if n = f.ncb then some (b2n flagged, none) else none }

/-- The code blocks from `r` on are skipped: their result entries, and the end of the job (R220, R222). -/
def Dev.fecSkip (d : Dev) (u : Nat) (f : FDesc) (j : EJob) (r : Nat) : Dev :=
  let ent := leBytes 1 (0x20 + 2 * b2n (decide (f.crc ≠ 0))) ++ zeros 7
  let ws := if f.result = 0 then [] else (List.range (f.ncb - r)).map (fun i => (f.result + 8 * (r + i), ent))
  let (d, e) := d.writeMany (.decoder u) ws
  let d := d.bumpBy (engCnt 1 u 9) (f.ncb - r)
  match e with
  | some e => d.fecEnd 1 u j e
  | none => d.setRun 1 u { j with status := some (0x22, none) }

/-- Write a code block's output and, after a failure with STORE = 2, its buffer, then its result entry (R212, R217, R220). -/
def Dev.cbWrite (d : Dev) (u : Nat) (f : FDesc) (j : EJob) (r : Nat) (o : CbOut) (acc : Array Int) (s : List Nat)
    (erased : Bool) : Dev :=
  let ag := Agent.decoder u
  match d.writeMany ag [(f.out + r * f.ostride, bitsBytes o.bits)] with
  | (d, some e) => d.fecEnd 1 u j e
  | (d, none) =>
    let late := f.store = 2 && !o.pass
    let (d, e) := if late then d.harqStore ag (f.harq + r * f.hstride) f.ncbuf s acc else (d, none)
    match e with
    | some e => d.fecEnd 1 u j e
    | none =>
      let ent := resultEntry f o erased (f.store = 1 || late)
      let (d, e) := if f.result = 0 then (d, none) else d.writeMany ag [(f.result + 8 * r, ent)]
      match e with
      | some e => d.fecEnd 1 u j e
      | none => d.cbDone u f j o erased

/-- Combine, decode, check and report code block r (R208 to R220). -/
def Dev.codeBlock (d : Dev) (u : Nat) (f : FDesc) (j : EJob) (r : Nat) : Dev :=
  let ag := Agent.decoder u
  let hb := f.harq + r * f.hstride
  let (d, rin) := d.busRead ag (f.src + f.eBefore r) (f.e r)
  let (d, h) := if f.comb then d.harqRead ag hb f.lines else (d, {})
  let d := d.bumpBy (engCnt 1 u 8) h.erased
  let erased := decide (h.erased ≠ 0)
  let inErr := match rin with
    | .ok _ => h.err
    | .poison a => some (0x12, a)
    | .decode a => firstErr (some (0x11, a)) h.err
  match inErr, rin with
  | some e, _ => d.fecEnd 1 u j e
  | none, .ok bs =>
    let l := bs.map llrOf
    let l := if f.scr then descramble (goldSeq f.cinit (f.soff + f.eBefore r) (f.e r)) l else l
    let l := if f.code = 0 then bitDeinterleave (qmOrder f.qm) 0 l else l
    let pos := f.positions r
    let received := (List.range f.ncbuf).filter (fun k => pos.contains k)
    let acc := combine f.ncbuf h (accumulate f.ncbuf pos l)
    let s := (List.range f.lines).filter (fun i => h.valid.contains i || received.any (fun k => decide (k / 64 = i)))
    let (d, e) := if f.store = 1 then d.harqStore ag hb f.ncbuf s acc else (d, none)
    match e with
    | some e => d.fecEnd 1 u j e
    | none =>
      let (d, o) :=
        if f.code = 0 then d.ldpcDecode f acc received j.cap else d.turboDecode f r acc received j.cap
      d.cbWrite u f j r o acc s erased
  | none, _ => d

/-- LDPC_DECODE and TURBO_DECODE: one code block of the running job when its CODE is `code`; `fault` says that an internal
check fails, which may leave a store undefined (R222, R234). -/
def Dev.decodeStep (d : Dev) (u code : Nat) (fault : Bool) : Dev :=
  match (d.eng 1 u).run with
  | none => d
  | some j =>
    let f := parseFec j.bytes
    if j.status.isSome || f.code ≠ code then d
    else if f.late && decide (f.deadline ≤ d.now) then d.fecSkip u f j j.step
    else if fault then
      let hit := f.store ≠ 0 && d.freeBelow 2 = 1
      let d := if hit then d.used.harqUndefined (.decoder u) (f.harq + j.step * f.hstride) f.lines else d.used
      d.setRun 1 u { j with status := some (0x15, none) }
    else d.codeBlock u f j j.step

/-! ### Encoding (R223 to R225) -/

/-- Bits of the code-block CRC. -/
def FDesc.crcLen (f : FDesc) : Nat := (cbCrc f.crc).1

/-- Input bits of code block r. -/
def FDesc.kin (f : FDesc) (r : Nat) : Nat := f.kout r - f.crcLen

/-- The rate-matched bits of a code block from its input bits; free where the block has no room for its CRC or the buffer no
bit to send (assumption log 24). -/
def Dev.encodeBits (d : Dev) (f : FDesc) (r : Nat) (x : List Bool) : Dev × List Bool :=
  let k := f.k r
  let fill := f.fillOf r
  let pos := f.positions r
  if f.kout r < f.crcLen || decide (pos.length < f.e r) then (d.used, d.freeList (f.e r))
  else
    let (w, g) := cbCrc f.crc
    let c := x ++ crcAttach w g x
    if f.code = 0 then
      let buf := (ldpcBuffer f.bg1 f.z (c ++ List.replicate fill false)).toArray
      (d, bitInterleave (qmOrder f.qm) false (pos.map (fun p => buf.getD p false)))
    else
      let st := turboStreams fill (List.replicate fill false ++ c)
      let buf := ((List.range f.ncbuf).map (turboBit k st)).toArray
      (d, pos.map (fun p => buf.getD p false))

/-- Read the byte that holds bit `b` of a bit string, for the bits that an encoder keeps (R224). -/
def Dev.keepBits (d : Dev) (ag : Agent) (a b : Nat) : Dev × Except (Nat × Nat) (List Bool) :=
  if b % 8 = 0 then (d, .ok [])
  else
    match d.busRead ag (a + b / 8) 1 with
    | (d, .ok bs) => (d, .ok (bitsOf bs))
    | (d, .decode x) => (d, .error (0x11, x))
    | (d, .poison x) => (d, .error (0x12, x))

/-- Write bits from bit `b` of the string at `a` on, keeping the other bits of the first and last bytes (R223, R224). -/
def Dev.writeBits (d : Dev) (ag : Agent) (a b : Nat) (l : List Bool) : Dev × Option (Nat × Nat) :=
  match d.keepBits ag a b with
  | (d, .error e) => (d, some e)
  | (d, .ok first) =>
    match d.keepBits ag a (b + l.length) with
    | (d, .error e) => (d, some e)
    | (d, .ok last) =>
      d.writeMany ag [(a + b / 8, bitsBytes (first.take (b % 8) ++ l ++ last.drop ((b + l.length) % 8)))]

/-- LDPC_ENCODE and TURBO_ENCODE: one code block of the running job when its CODE is `code` (R223). -/
def Dev.encodeStep (d : Dev) (u code : Nat) (fault : Bool) : Dev :=
  match (d.eng 2 u).run with
  | none => d
  | some j =>
    let f := parseFec j.bytes
    if j.status.isSome || f.code ≠ code then d
    else if fault then d.setRun 2 u { j with status := some (0x15, none) }
    else
      let ag := Agent.encoder u
      let r := j.step
      let b0 := f.ibit + ((List.range r).map f.kin).sum
      let n := f.kin r
      let (d, rd) := if n = 0 then (d, RResp.ok []) else d.busRead ag (f.src + b0 / 8) (ceilDiv (b0 % 8 + n) 8)
      match rd with
      | .decode a => d.fecEnd 2 u j (0x11, a)
      | .poison a => d.fecEnd 2 u j (0x12, a)
      | .ok bs =>
        let x := ((bitsOf bs).drop (b0 % 8)).take n
        let (d, y) := d.encodeBits f r x
        let y := if f.scr then xorBits y (goldSeq f.cinit (f.soff + f.eBefore r) (f.e r)) else y
        match d.writeBits ag f.out (f.obit + f.eBefore r) y with
        | (d, some e) => d.fecEnd 2 u j e
        | (d, none) =>
          let s := r + 1
          let d := d.bump (engCnt 2 u 3)
          d.setRun 2 u { j with step := s, pos := s % 128, status := if s = f.ncb then some (0, none) else none }

/-! ### Completion (R202) -/

/-- The completion word of a decoder or encoder job. -/
def fecWord (f : FDesc) (j : EJob) (status : Nat) : Nat :=
  f.out + 2 ^ 40 * status + 2 ^ 48 * j.cap + 2 ^ 53 * b2n j.crcFail + 2 ^ 54 * b2n j.capped + 2 ^ 55 * b2n j.erased
    + 2 ^ 56 * j.failed

/-- The completion record of a coding job. -/
def fecRecord (j : EJob) (w now ea : Nat) : List Byte :=
  leBytes 4 j.ref ++ leBytes 4 (w >>> 32) ++ leBytes 4 j.sweeps ++ leBytes 2 j.step ++ zeros 2 ++ leBytes 8 now ++ leBytes 8 ea

/-- CODING_COMPLETION of a decoder (class 1) or encoder (class 2). -/
def Dev.codingComplete (d : Dev) (cls u : Nat) : Dev :=
  match (d.eng cls u).run with
  | none => d
  | some j =>
    match j.status with
    | none => d
    | some (status, _) =>
      let f := parseFec j.bytes
      let w := fecWord f j status
      let now := d.now
      (d.deliver cls u j status w (fecRecord j w now) f.out).nextRun cls u

end Sys2Proof.Machine
end

