-- ==== Sys2Proof/Machine/Codec.lean ====
section
/-!
DEFINITION. The control-channel codec (R226 to R229, R233, R235). Polar and convolutional decoding answer free bits and a
free check result: their arithmetic is not stated (assumption log 24).
-/
namespace Sys2Proof.Machine

/-- The sequence that scrambles E bits, or none. -/
def KDesc.seq (k : KDesc) : List Bool := if k.scr then goldSeq k.cinit 0 k.e else []

/-- Bits scrambled by a sequence; unchanged by the empty one. -/
def scrambled (seq l : List Bool) : List Bool := if seq = [] then l else xorBits l seq

/-- The coded bits of a payload (R227), scrambled; none where the code has no room for them. -/
def KDesc.coded (k : KDesc) (x : List Bool) : Option (List Bool) :=
  let crc := crcBits 16 0x1021 0 x
  match k.fn / 2 with
  | 0 => (polarEncode k.ch x k.e (if k.masked then some k.mask else none)).map (scrambled k.seq)
  | 1 => some (scrambled k.seq (if k.ch = 0 then rmEncode rm32 32 x k.e else rmEncode rm20 20 x k.e))
  | 2 =>
    let crc := if k.ch = 0 || k.masked then crc ^^^ k.mask else crc
    some (scrambled k.seq (convEncode (if k.ch = 2 then x else x ++ natBits 16 crc) k.e))
  | _ => some (sbEncode (qmOrder k.qm) x k.e k.seq)

/-- A decoding function has a CRC. -/
def KDesc.hasCrc (k : KDesc) : Bool := k.fn = 1 || (k.fn = 5 && decide (k.ch ≠ 2))

/-- METRIC (R228). -/
def codecMetric (l : List Int) (e : Nat) : Nat := min 32767 (256 * (l.map Int.natAbs).sum / e)

/-- How well a codeword agrees with LLRs as received. -/
def agreement (c : List Bool) (l : List Int) : Int := (List.zipWith (fun b x => if b then -x else x) c l).foldl (· + ·) 0

/-- Maximum-likelihood decoding over all payloads; ties are a free choice. -/
def Dev.bestPayload (d : Dev) (k : KDesc) (l : List Int) : Dev × List Bool :=
  let all : List (List Bool × Int) := (List.range (2 ^ k.a)).map (fun v =>
    let x := natBits k.a v
    (x, agreement ((k.coded x).getD []) l))
  let top : Int := all.foldl (fun (m : Int) (p : List Bool × Int) => max m p.2) ((all.head?.map (fun p => p.2)).getD 0)
  let best := (all.filter (fun (p : List Bool × Int) => decide (p.2 = top))).map (fun p => p.1)
  (d.used, best.getD (d.freeBelow best.length) [])

/-- The payload that decoding gives, and the check result (R227, R228). -/
def Dev.codecDecode (d : Dev) (k : KDesc) (l : List Int) : Dev × List Bool × Bool :=
  if k.fn = 3 || k.fn = 7 then
    let (d, x) := d.bestPayload k l
    (d, x, false)
  else
    let x := d.freeList k.a
    let d := d.used
    (d.used, x, k.hasCrc && d.freeBelow 2 = 1)

/-- The whole of a codec job whose FN is `fn`; `fault` says that an internal check fails (R226 to R228, R234). -/
def Dev.codecStep (d : Dev) (fn : Nat) (fault : Bool) : Dev :=
  match (d.eng 3 0).run with
  | none => d
  | some j =>
    let k := parseCodec j.bytes
    if j.status.isSome || k.fn ≠ fn then d
    else if fault then d.setRun 3 0 { j with status := some (0x15, none) }
    else
      let ag := Agent.encoder 4
      let dec := k.fn % 2 = 1
      match d.busRead ag k.src (if dec then k.e else ceilDiv k.a 8) with
      | (d, .decode a) => d.fecEnd 3 0 j (0x11, a)
      | (d, .poison a) => d.fecEnd 3 0 j (0x12, a)
      | (d, .ok bs) =>
        let l := bs.map llrOf
        let (d, y, ok) : Dev × List Bool × Bool :=
          if dec then d.codecDecode k l
          else
            match k.coded ((bitsOf bs).take k.a) with
            | some y => (d, y, false)
            | none => (d.used, d.freeList k.e, false)
        match d.writeMany ag [(k.out, bitsBytes y)] with
        | (d, some e) => d.fecEnd 3 0 j e
        | (d, none) =>
          let bad := dec && k.hasCrc && !ok
          let d := d.bump (engCnt 3 0 3)
          let d := if bad then d.bump (engCnt 3 0 7) else d
          d.setRun 3 0 { j with
            step := 1, pos := 1, failed := b2n ok, crcFail := bad, metric := if dec then codecMetric l k.e else 0,
            status := some (b2n bad, none) }

/-- CODEC_COMPLETION: an ABORT takes effect here (R228, R235). -/
def Dev.codecComplete (d : Dev) : Dev :=
  match (d.eng 3 0).run with
  | none => d
  | some j =>
    match j.status with
    | none => d
    | some (s, _) =>
      let k := parseCodec j.bytes
      let status := if j.aborting && isSuccess s then 0x21 else s
      let j := { j with status := j.status.map (fun p => (status, p.2)) }
      let w := k.out + 2 ^ 40 * status + 2 ^ 48 * j.failed + 2 ^ 49 * j.metric
      let now := d.now
      (d.deliver 3 0 j status w (fecRecord j w now) k.out).nextRun 3 0

end Sys2Proof.Machine
end

