-- ==== Sys2Proof/Machine/FronthaulRx.lean ====
section
/-!
DEFINITION. Fronthaul receive: frames, MACsec, classification, placement, delivery and arrival descriptors (R370, R371,
R375 to R386, R393, R394, R416).
-/
namespace Sys2Proof.Machine

/-! ### Block floating point (R377, R378) -/

/-- A bit string as a number, most significant bit first. -/
def bitsNat (l : List Bool) : Nat := l.foldl (fun a b => 2 * a + b2n b) 0

/-- Bytes that a block of width `w` occupies. -/
def bfpLen (bfp : Bool) (w : Nat) : Nat := b2n bfp + 3 * w

/-- A block decompressed: 24 parts in the order I0, Q0 to Q11, and whether a part saturated (R377, R378). -/
def bfpParts (bfp : Bool) (w : Nat) (bs : List Byte) : List Int × Bool :=
  let e := if bfp then leAt bs 0 1 % 16 else 0
  let bits := bitsOf (if bfp then bs.drop 1 else bs)
  let raw := (List.range 24).map (fun i => toSigned w (bitsNat ((bits.drop (w * i)).take w)) * 2 ^ e)
  (raw.map (satS 16), raw.any (fun v => decide (satS 16 v ≠ v)))

/-- Parts as the bytes of ci16 values. -/
def ci16Bytes (ps : List Int) : List Byte := ps.flatMap (fun v => leBytes 2 (ofSigned 16 v))

/-- `v × 2^(−e)` rounded half to even. -/
def roundEven (v : Int) (e : Nat) : Int :=
  let q := v / 2 ^ e
  let r := v % 2 ^ e
  let half : Int := 2 ^ e
  if 2 * r > half then q + 1 else if 2 * r < half then q else if q % 2 = 0 then q else q + 1

/-- A part fits in `w` bits. -/
def fitsS (w : Nat) (v : Int) : Bool := decide (satS w v = v)

/-- A block of 24 parts compressed with the smallest exponent that fits (R378). -/
def bfpBlock (bfp : Bool) (w : Nat) (ps : List Int) : List Byte :=
  let e := if bfp then ((List.range 16).find? (fun e => ps.all (fun v => fitsS w (roundEven v e)))).getD 15 else 0
  let m := bitsNat (ps.flatMap (fun v => (List.range w).map (fun i => (ofSigned w (roundEven v e)).testBit (w - 1 - i))))
  (if bfp then [BitVec.ofNat 8 e] else []) ++ beBytes (3 * w) m

/-! ### Ethernet frames -/

/-- The FCS that follows these bytes (R371). -/
def fcsOf (bs : List Byte) : List Byte := leBytes 4 (crcFinal 4 (crcFeed 4 0 (crcInit 4) bs))

/-- What follows the addresses of a frame: VLAN tag, EtherType and payload. -/
structure EthFrame where
  vid     : Option Nat
  etype   : Nat
  payload : List Byte
  deriving DecidableEq, Repr

/-- A frame without FCS taken apart (R371). -/
def parseEth (bs : List Byte) : EthFrame :=
  let e := beNat ((bs.drop 12).take 2)
  if e = 0x8100 then ⟨some (beNat ((bs.drop 14).take 2) % 4096), beNat ((bs.drop 16).take 2), bs.drop 18⟩
  else ⟨none, e, bs.drop 14⟩

/-- Big-endian field of a byte string. -/
def beAt (bs : List Byte) (off n : Nat) : Nat := beNat ((bs.drop off).take n)

/-- UDP destination port of an IPv4 or IPv6 datagram. -/
def EthFrame.udpPort (f : EthFrame) : Option Nat :=
  if f.etype = 0x0800 && leAt f.payload 9 1 = 17 then some (beAt f.payload (4 * (leAt f.payload 0 1 % 16) + 2) 2)
  else if f.etype = 0x86DD && leAt f.payload 6 1 = 17 then some (beAt f.payload 42 2)
  else none

/-- Frames taken out for Supervisor before the rule table (R379). -/
def EthFrame.forSup (f : EthFrame) : Bool :=
  f.etype = 0x88F7 || f.etype = 0x888E || f.udpPort = some 319 || f.udpPort = some 320
    || (f.etype = 0xAEFE && leAt f.payload 1 1 = 5)

/-- PAUSE and priority-based flow control frames (R370). -/
def EthFrame.isPause (f : EthFrame) : Bool :=
  f.etype = 0x8808 && (beAt f.payload 0 2 = 1 || beAt f.payload 0 2 = 0x0101)

/-! ### MACsec receive (R393, R394) -/

/-- Full packet number from the received one and the lowest acceptable one. -/
def fullPn (xpn : Bool) (low pn : Nat) : Nat :=
  if !xpn then pn
  else
    let hi := low / 2 ^ 32
    if low % 2 ^ 32 ≥ 2 ^ 31 && decide (pn < 2 ^ 31) then (hi + 1) * 2 ^ 32 + pn else hi * 2 ^ 32 + pn

/-- The 12-byte IV of a frame (GCM-AES-256: SCI and PN; XPN: SSCI and full PN, XORed with the salt). -/
def Sa.iv (s : Sa) (sci : BitVec 64) (pn : Nat) : List Nat :=
  if s.xpn then xorN (beN 4 s.ssci.toNat ++ beN 8 pn) (toNats s.salt)
  else beN 8 sci.toNat ++ beN 4 pn

/-- The SecTAG and what follows it, from byte 12 on. -/
structure SecTag where
  tci  : Nat
  sl   : Nat
  pn   : Nat
  sci  : Option (BitVec 64)
  size : Nat
  deriving DecidableEq, Repr

def parseSecTag (bs : List Byte) : SecTag :=
  let tci := leAt bs 14 1
  let sc := bit tci 5
  { tci := tci, sl := leAt bs 15 1 % 64, pn := beAt bs 16 4,
    sci := if sc then some (BitVec.ofNat 64 (beAt bs 20 8)) else none, size := if sc then 16 else 8 }

/-- The secure channel that a SecTAG names: its SCI, the source address as an end station's, or the only channel. -/
def FhPort.findSc (v : FhPort) (t : SecTag) (src : Nat) : Option RxSc :=
  match t.sci with
  | some sci => v.rxScs.find? (fun c => c.sci = sci)
  | none =>
    if bit t.tci 6 then v.rxScs.find? (fun c => c.sci = BitVec.ofNat 64 (src * 65536 + 1))
    else if v.rxScs.length = 1 then v.rxScs.head? else none

/-- A protected frame validated: the frame without SecTAG and ICV and the port with its packet number advanced; none is a
failure (R394). -/
def FhPort.secOpen (v : FhPort) (bs : List Byte) : Option (FhPort × List Byte) :=
  let t := parseSecTag bs
  let body := bs.drop (12 + t.size)
  let len := if t.sl = 0 then body.length - 16 else t.sl
  let enc := bit t.tci 3
  if beAt bs 12 2 ≠ 0x88E5 || bit t.tci 7 || decide (enc ≠ bit t.tci 2) || decide (body.length < len + 16) then none
  else
    match v.findSc t (beAt bs 6 6) with
    | none => none
    | some c =>
      match Tab.get (fun _ => none) c.sas (t.tci % 4) with
      | none => none
      | some sa =>
        let low := max 1 (sa.pn - c.window)
        let pn := fullPn sa.xpn low t.pn
        let head := bs.take (12 + t.size)
        let data := body.take len
        let rk := aesKeys (toNats sa.key)
        let iv := sa.iv c.sci pn
        let aad := toNats (if enc then head else head ++ data)
        let tag := gcmTag rk iv aad (if enc then toNats data else [])
        if decide (pn < low) || toNats ((body.drop len).take 16) ≠ tag then none
        else
          let plain := if enc then ofNats (gcmCrypt rk iv (toNats data)) else data
          let sa := some { sa with pn := max sa.pn (pn + 1) }
          let put := fun x : RxSc =>
            if x.sci = c.sci then { x with sas := Tab.put (fun _ => none) x.sas (t.tci % 4) sa } else x
          some ({ v with rxScs := v.rxScs.map put }, bs.take 12 ++ plain)

/-! ### Classification (R375, R376, R380) -/

/-- An active rule's bytes. -/
def Dev.activeRule (d : Dev) (r : Nat) : List Byte := d.regBytes (fhnBase + 0x22000 + 32 * r) 32

/-- eCPRI fields of a frame: message type, eAxC, and filterIndex for types 0 and 2. -/
structure Ecpri where
  msg    : Nat
  eaxc   : Option Nat
  filter : Option Nat
  deriving DecidableEq, Repr

def EthFrame.ecpri (f : EthFrame) : Option Ecpri :=
  if f.etype ≠ 0xAEFE then none
  else
    let m := leAt f.payload 1 1
    if m = 0 ∨ m = 2 then some ⟨m, some (beAt f.payload 4 2), some (leAt f.payload 8 1 % 16)⟩
    else some ⟨m, none, none⟩

/-- A rule matches a frame of a port (R380). -/
def ruleMatches (b : List Byte) (p : Nat) (f : EthFrame) : Bool :=
  let w := leAt b 2 2
  let m := f.ecpri
  let mask := leAt b 10 2
  bit (leAt b 0 2) 15 && bit (leAt b 0 2) p
    && (if bit w 13 then f.vid.isNone else bit w 12 || decide (f.vid = some (w % 4096)))
    && (leAt b 4 2 = 0 || leAt b 4 2 = f.etype)
    && (leAt b 4 2 ≠ 0xAEFE || bit (leAt b 7 1) 0 || decide (m.map (·.msg) = some (leAt b 6 1)))
    && (mask = 0 || decide ((m.bind (·.eaxc)).map (· &&& mask) = some (leAt b 8 2 &&& mask)))
    && (bit (leAt b 12 1) 3 || decide (m.bind (·.filter) = some (leAt b 12 1 % 8)))

/-- A compression header is supported: method 0 with width 16, or BFP with width 8 to 16 (R376). -/
def compOk (b : Nat) : Bool :=
  let w := if b / 16 = 0 then 16 else b / 16
  (b % 16 = 0 && w = 16) || (b % 16 = 1 && decide (8 ≤ w))

/-- Walk the extensions of a C-plane section; answers where they end, or a counter to drop with (R376). -/
def cplaneExts (h : List Byte) : Nat → Nat → Except Nat Nat
  | 0, _ => .error rxMalformed
  | f + 1, o =>
    if h.length < o + 2 then .error rxMalformed
    else
      let t := leAt h o 1 % 128
      let len := 4 * leAt h (o + 1) 1
      if t ≠ 6 ∧ t ≠ 10 ∧ t ≠ 12 then .error rxUnsupported
      else if len = 0 ∨ h.length < o + len then .error rxMalformed
      else if bit (leAt h o 1) 7 then cplaneExts h f (o + len) else .ok (o + len)

/-- Walk the sections of a C-plane message (R376). -/
def cplaneSections (h : List Byte) (ty : Nat) : Nat → Nat → Except Nat Unit
  | 0, o => if o = h.length then .ok () else .error rxMalformed
  | n + 1, o =>
    let size := if ty = 3 then 12 else 8
    if h.length < o + size then .error rxMalformed
    else if bit (leAt h (o + 1) 1) 3 then .error rxUnsupported
    else if ty ≠ 0 && bit (leAt h (o + 6) 1) 7 then
      match cplaneExts h h.length (o + size) with
      | .ok o' => cplaneSections h ty n o'
      | .error e => .error e
    else cplaneSections h ty n (o + size)

/-- The C-plane checks: the counter that a message is dropped with, if any (R376). -/
def cplaneBad (payload : List Byte) : Option Nat :=
  let size := beAt payload 2 2
  let h := (payload.take (4 + size)).drop 8
  let ty := leAt h 5 1
  if payload.length < 4 + size ∨ h.length < 8 then some rxMalformed
  else if leAt h 0 1 / 16 % 8 ≠ 1 ∨ 4 < leAt h 0 1 % 16 ∨ (ty ≠ 0 ∧ ty ≠ 1 ∧ ty ≠ 3) then some rxUnsupported
  else if (ty = 1 && !compOk (leAt h 6 1)) || (ty = 3 && !compOk (leAt h 11 1)) then some rxUnsupported
  else
    match cplaneSections h ty (leAt h 4 1) (if ty = 1 then 8 else 12) with
    | .ok _ => none
    | .error e => some e

/-- The checks of eCPRI messages before the rule table: the counter to drop with, if any (R375, R376). -/
def EthFrame.ecpriBad (f : EthFrame) : Option Nat :=
  if f.etype ≠ 0xAEFE then none
  else
    let b := f.payload
    if b.length < 4 then some rxMalformed
    else if leAt b 0 1 / 16 ≠ 1 ∨ leAt b 0 1 % 2 = 1 then some rxUnsupported
    else if leAt b 1 1 = 0 ∨ leAt b 1 1 = 2 then
      if b.length < 9 then some rxMalformed
      else if leAt b 7 1 ≠ 0x80 then some rxUnsupported
      else if leAt b 1 1 = 2 then cplaneBad b else none
    else none

/-! ### Windows and sequence (R384, R385, R422) -/

/-- S(k) of R422 in units of 1/30.72 MHz. -/
def symStart (mu k : Nat) : Nat :=
  ((List.range k).map (fun i => 2192 / 2 ^ mu + (if i % (7 * 2 ^ mu) = 0 then 16 else 0))).sum

/-- The frame whose low bits are `id` modulo `m` and whose start is nearest to a time in ns. -/
def Dev.frameNear (d : Dev) (id m : Nat) (t : Int) : Int :=
  let f0 := gpsEpoch + toSigned 64 (d.reg64 (tmuBase + 0x300))
  let now := (t - f0) / 10000000
  let x := now - (now - id) % m
  let dist := fun (f : Int) => (t - (f0 + 10000000 * f)).natAbs
  if dist (x + m) < dist x then x + m else x

/-- Start of a frame (R422). -/
def Dev.frameStart (d : Dev) (f : Int) : Int := gpsEpoch + toSigned 64 (d.reg64 (tmuBase + 0x300)) + 10000000 * f

/-- End of a symbol at the air interface (R384, R422). -/
def Dev.symbolEnd (d : Dev) (mu frame sub slot sym : Nat) (t : Int) : Int :=
  let k := 14 * slot + sym + 1
  let s0 := d.frameStart (d.frameNear frame 256 t) + 1000000 * sub
  if 14 * 2 ^ mu ≤ k then s0 + 1000000 else s0 + (symStart mu k * 3125 / 96 : Nat)

/-- The counter that a section outside its window is dropped with (R384). -/
def Dev.windowDrop (d : Dev) (p t : Nat) (ends : Int) : Option Nat :=
  let late := toSigned 32 (d.regN (fhnBase + 0x1020 + 0x100 * p))
  let early := toSigned 32 (d.regN (fhnBase + 0x101C + 0x100 * p))
  if ends + late < (t : Int) then some rxLate else if (t : Int) < ends + early then some rxEarly else none

/-- The last sequence number placed through an entry. -/
def Dev.seqRef (d : Dev) (n : Nat) : Option Nat := Tab.get (fun _ => none) d.fhn.seqRef n

def Dev.setSeqRef (d : Dev) (n seq : Nat) : Dev :=
  { d with fhn := { d.fhn with seqRef := Tab.put (fun _ => none) d.fhn.seqRef n (some seq) } }

/-! ### Actions (R381 to R386) -/

/-- Fields of an arrival descriptor (R382). -/
structure ArrDesc where
  frame : Nat := 0
  sub   : Nat := 0
  slot  : Nat := 0
  sym   : Nat := 0
  eaxc  : Nat := 0
  sect  : Nat := 0
  kind  : Nat
  gap   : Bool := false
  sat   : Bool := false
  port  : Nat
  start : Nat := 0
  num   : Nat := 0
  filter : Nat := 0
  dir   : Nat := 0
  len   : Nat
  time  : Nat
  addr  : Nat
  rule  : Nat
  deriving DecidableEq, Repr

/-- The 32 bytes of an arrival descriptor (R382). -/
def ArrDesc.bytes (a : ArrDesc) : List Byte :=
  leBytes 8 (a.frame % 256 + 2 ^ 8 * (a.sub % 16) + 2 ^ 12 * (a.slot % 64) + 2 ^ 18 * (a.sym % 16) + 2 ^ 22 * (a.eaxc % 65536)
      + 2 ^ 38 * (a.sect % 4096) + 2 ^ 50 * a.kind + 2 ^ 53 * b2n a.gap + 2 ^ 54 * b2n a.sat + 2 ^ 55 * (a.port % 8))
    ++ leBytes 4 (a.start % 1024 + 2 ^ 10 * (a.num % 256) + 2 ^ 18 * (a.filter % 8) + 2 ^ 21 * a.dir)
    ++ leBytes 4 a.len ++ leBytes 8 a.time ++ leBytes 8 (a.addr % 2 ^ 40 + 2 ^ 40 * a.rule)

/-- An arrival whose descriptor is to be posted. -/
def Dev.arrive (d : Dev) (p q : Nat) (a : ArrDesc) : Dev :=
  { d with fhn := { d.fhn with arrivals := d.fhn.arrivals ++ [⟨p, q, a.bytes⟩] } }

/-- Free slots that a queue has for the fronthaul, its pending arrivals counted. -/
def Dev.arrFree (d : Dev) (q : Nat) : Bool :=
  let pend := (d.fhn.arrivals.filter (fun a => decide (a.queue = q))).length
  decide ((d.queue q).occ + pend < 2 ^ (d.queue q).log2n)

/-- DELIVER (R381): the buffer of the reserved index is written, then the arrival is pending; a full queue drops the frame. -/
def Dev.fhDeliver (d : Dev) (p r : Nat) (b : List Byte) (bs : List Byte) (f : EthFrame) (t : Nat) : Dev :=
  let w := leAt b 24 8
  let q := leAt b 20 4 % 2 ^ 18
  let pend := (d.fhn.arrivals.filter (fun a => decide (a.queue = q))).length
  if 2 ^ fld w 43 40 < bs.length then d.rxDrop p rxMalformed
  else
    let i := ((d.queue q).pi + BitVec.ofNat 32 pend).toNat
    let addr := fld w 39 0 + i % 2 ^ (d.queue q).log2n * 2 ^ fld w 43 40
    let h := f.payload.drop 8
    let a : ArrDesc :=
      if f.etype = 0xAEFE && leAt f.payload 1 1 = 2 then
        { frame := leAt h 1 1, sub := leAt h 2 1 / 16, slot := beAt h 2 2 / 64 % 64, sym := leAt h 3 1 % 64,
          eaxc := beAt f.payload 4 2, filter := leAt h 0 1 % 16, dir := leAt h 0 1 / 128, kind := 1, port := p,
          len := bs.length, time := t, addr := addr, rule := r }
      else { kind := 3, port := p, len := bs.length, time := t, addr := addr, rule := r }
    if !(d.queue q).enabled then (d.post (.fronthaul p) true q a.bytes none).1
    else if !d.arrFree q then ((d.post (.fronthaul p) true q a.bytes none).1).rxDrop p rxQfull
    else
      let (d, _) := d.busWrite (.fronthaul p) addr bs
      d.arrive p q a

/-- A placement entry's bytes. -/
def Dev.placeEntry (d : Dev) (n : Nat) : List Byte := d.regBytes (fhnBase + 0x30000 + 32 * n) 32

/-- A U-plane section of a message. -/
structure USection where
  sect  : Nat
  rcv   : Nat          -- startPrbu as received
  start : Nat
  num   : Nat          -- numPrbu as received
  prbs  : Nat
  bfp   : Bool
  width : Nat
  data  : List Byte
  deriving DecidableEq, Repr

/-- The sections of a U-plane payload; an error is the counter to drop with (R376, R383). -/
def uSections (static : Option (Bool × Nat)) (nprb : Nat) : Nat → List Byte → Except Nat (List USection)
  | 0, bs => if bs = [] then .ok [] else .error rxMalformed
  | f + 1, bs =>
    if bs = [] then .ok []
    else if bs.length < 4 then .error rxMalformed
    else
      let x := beAt bs 0 3
      let num := leAt bs 3 1
      let c := leAt bs 4 1
      let (bfp, w, hl) := match static with
        | some (b, w) => (b, w, 4)
        | none => (decide (c % 16 = 1), (if c / 16 = 0 then 16 else c / 16), 6)
      let cnt := if num = 0 then nprb else num
      let len := cnt * bfpLen bfp w
      if bs.length < hl then .error rxMalformed
      else if static.isNone && !compOk c then .error rxUnsupported
      else if bit x 11 || bit x 10 || decide (274 < x % 1024) then .error rxUnsupported
      else if bs.length < hl + len then .error rxMalformed
      else
        let s : USection := ⟨x / 4096, x % 1024, (if num = 0 then 0 else x % 1024), num, cnt, bfp, w, (bs.drop hl).take len⟩
        match uSections static nprb f (bs.drop (hl + len)) with
        | .ok rest => .ok (s :: rest)
        | .error e => .error e

/-- The values of a section's PRBs as ci16 bytes, and whether a part saturated. -/
def USection.values (s : USection) : List Byte × Bool :=
  let n := bfpLen s.bfp s.width
  let blocks := (List.range s.prbs).map (fun i => bfpParts s.bfp s.width ((s.data.drop (n * i)).take n))
  (blocks.flatMap (fun x => ci16Bytes x.1), blocks.any (·.2))

/-- One U-plane section placed or dropped (R383 to R385); `ref` is the sequence reference before its message. -/
def Dev.placeSection (d : Dev) (p r q n : Nat) (f : EthFrame) (t : Nat) (ref : Option Nat) (s : USection) : Dev :=
  let e := d.placeEntry n
  let h := f.payload.drop 8
  let mu := leAt e 14 1 % 4
  let nprb := leAt e 16 2 % 512
  let nbuf := leAt e 12 2 % 4096
  let frame := leAt h 1 1
  let sub := leAt h 2 1 / 16
  let slot := beAt h 2 2 / 64 % 64
  let sym := leAt h 3 1 % 64
  if leAt e 15 1 % 2 = 0 || nbuf = 0 || decide (nprb < s.start + s.prbs) then d.rxDrop p rxMalformed
  else
    match d.windowDrop p t (d.symbolEnd mu frame sub slot sym t) with
    | some i => d.rxDrop p i
    | none =>
      let nsym := ((frame * 10 + sub) * 2 ^ mu + slot) * 14 + sym
      let addr := fld (leAt e 0 8) 39 0 + nsym % nbuf * leAt e 8 4 + 48 * s.start
      let (bs, sat) := s.values
      let (d, _) := d.busWrite (.fronthaul p) addr bs
      let seq := leAt f.payload 6 1
      let gap := match ref with | some x => decide (seq ≠ (x + 1) % 256) | none => false
      let d := if gap then d.bump (fhnCnt p rxSeqGap) else d
      (d.setSeqRef n seq).arrive p q {
        frame := frame, sub := sub, slot := slot, sym := sym, eaxc := beAt f.payload 4 2, sect := s.sect, kind := 0, gap := gap,
        sat := sat, port := p, start := s.rcv, num := s.num, filter := leAt h 0 1 % 16,
        dir := leAt h 0 1 / 128, len := s.prbs, time := t, addr := addr, rule := r }

/-- PLACE (R383). -/
def Dev.fhPlace (d : Dev) (p r q n : Nat) (f : EthFrame) (t : Nat) : Dev :=
  let size := beAt f.payload 2 2
  let h := (f.payload.take (4 + size)).drop 8
  let static := (Config.staticComp (BitVec.ofNat 16 (beAt f.payload 4 2))).map (fun x => (x.1, 8 + x.2.val))
  if f.payload.length < 4 + size ∨ h.length < 4 then d.rxDrop p rxMalformed
  else if leAt h 0 1 / 16 % 8 ≠ 1 ∨ 4 < leAt h 0 1 % 16 then d.rxDrop p rxUnsupported
  else
    match uSections static (leAt (d.placeEntry n) 16 2 % 512) h.length (h.drop 4) with
    | .error e => d.rxDrop p e
    | .ok ss =>
      let ref := d.seqRef n
      ss.foldl (fun (d : Dev) s => d.placeSection p r q n f t ref s) d

/-- TD_PLACE (R386). -/
def Dev.fhTdPlace (d : Dev) (p r q n : Nat) (f : EthFrame) (t : Nat) : Dev :=
  let e := d.placeEntry n
  let size := beAt f.payload 2 2
  let h := (f.payload.take (4 + size)).drop 8
  let sfn := beAt h 0 2
  let soff := beAt h 2 4
  let fmt := leAt h 6 1
  let w := if fmt % 16 = 0 then 16 else fmt % 16
  let bfp := bit fmt 4
  let nblk := leAt h 7 1
  let len := bfpLen bfp w
  let spf := leAt e 8 4
  let rlog := fld (leAt e 0 8) 44 40
  if f.payload.length < 4 + size ∨ h.length < 8 ∨ leAt e 15 1 % 2 = 0 ∨ rlog < 12 ∨ 27 < rlog ∨ 1024 ≤ sfn ∨ 32 ≤ fmt
      ∨ nblk = 0 ∨ h.length ≠ 8 + nblk * len ∨ spf < soff + 12 * nblk then d.rxDrop p rxMalformed
  else if w < 8 ∨ (!bfp ∧ w ≠ 16) then d.rxDrop p rxUnsupported
  else
    let ends := d.frameStart (d.frameNear sfn 1024 t) + (((soff + 12 * nblk - 1) * 10000000 / spf : Nat) : Int)
    match d.windowDrop p t ends with
    | some i => d.rxDrop p i
    | none =>
      let blocks := (List.range nblk).map (fun i => bfpParts bfp w ((h.drop (8 + len * i)).take len))
      let bs := blocks.flatMap (fun x => ci16Bytes x.1)
      let base := fld (leAt e 0 8) 39 0 / 2 ^ rlog * 2 ^ rlog
      let at' := 4 * ((sfn * spf + soff) % 2 ^ (rlog - 2))
      let first := min bs.length (2 ^ rlog - at')
      let (d, _) := d.busWrite (.fronthaul p) (base + at') (bs.take first)
      let d := if first < bs.length then (d.busWrite (.fronthaul p) base (bs.drop first)).1 else d
      let seq := leAt f.payload 6 1
      let gap := match d.seqRef n with | some x => decide (seq ≠ (x + 1) % 256) | none => false
      let d := if gap then d.bump (fhnCnt p rxSeqGap) else d
      (d.setSeqRef n seq).arrive p q {
        eaxc := beAt f.payload 4 2, kind := 2, gap := gap, sat := blocks.any (·.2), port := p, len := 12 * nblk, time := t,
        addr := base + at', rule := r }

/-- A frame goes to Supervisor (R372, R379, R396). -/
def Dev.toSup (d : Dev) (p t : Nat) (bs : List Byte) : Dev :=
  { d with fhn := { d.fhn with toSup := d.fhn.toSup ++ [⟨p, t, bs⟩] } }

/-- A matched frame's action (R381, R396). -/
def Dev.fhAct (d : Dev) (p r : Nat) (b bs : List Byte) (f : EthFrame) (t : Nat) : Dev :=
  let act := leAt b 13 1 % 8
  let q := leAt b 20 4 % 2 ^ 18
  if act = 1 then d.fhDeliver p r b bs f t
  else if act = 3 then
    if f.udpPort = some 7406 then d.toSup p t bs else d.rxDrop p rxMalformed
  else if act = 2 ∨ act = 4 then
    match f.ecpri with
    | some ⟨0, some eaxc, _⟩ =>
      let n := leAt b 14 2 % 4096 + (eaxc &&& leAt b 16 2)
      if 4096 ≤ n then d.rxDrop p rxMalformed
      else if act = 2 then d.fhPlace p r q n f t else d.fhTdPlace p r q n f t
    | _ => d.rxDrop p rxMalformed
  else d.rxDrop p rxFiltered

/-- A validated frame without FCS: taken out, checked and classified (R379, R380). -/
def Dev.fhClassify (d : Dev) (p t : Nat) (bs : List Byte) : Dev :=
  let f := parseEth bs
  match f.ecpriBad with
  | some i => d.rxDrop p i
  | none =>
    if f.forSup then d.toSup p t bs
    else
      match (List.range 256).find? (fun r => ruleMatches (d.activeRule r) p f) with
      | none => d.rxDrop p rxUnmatched
      | some r => d.fhAct p r (d.activeRule r) bs f t

/-- MACsec of a received frame (R394): with MACsec enabled an unprotected frame passes only when it is EAPOL. -/
def Dev.fhSecure (d : Dev) (p t : Nat) (bs : List Byte) : Dev :=
  if (parseEth bs).isPause then d.rxDrop p rxFiltered
  else if !bit (d.regN (fhnBase + 0x1000 + 0x100 * p)) 3 then d.fhClassify p t bs
  else if (parseEth bs).etype = 0x888E then d.fhClassify p t bs
  else
    match (d.port p).secOpen bs with
    | none => d.rxDrop p rxMacsecFail
    | some (v, plain) => (d.setPort p v).fhClassify p t plain

/-- The receive path of a port is held by a full STALL queue (R381). -/
def Dev.fhHeld (d : Dev) (p : Nat) : Bool := d.q.held.any (fun h => decide (h.agent = .fronthaul p))

/-- Receive timestamp in ns of a frame captured now (R416). -/
def Dev.rxTime (d : Dev) (p : Nat) : Dev × Nat :=
  let cap : Int := ((d.time.fix >>> 24) % 2 ^ 72 : Nat)
  let lat : Int := (Config.rxLatency (if p = 8 then 8 else d.portMode p) d.fresh : Nat)
  let t := cap - lat - toSigned 32 (d.regN (tmuBase + 0x100 + 8 * p))
  (d.used, ((t / 256) % ((2 ^ 64 : Nat) : Int)).toNat)

/-- FRAME_RECEIVE: a frame, destination address to FCS, arrives on a port; `corr` FEC codewords were corrected and
`uncorr` says that one was uncorrectable (R371, R372, R379). -/
def Dev.frameReceive (d : Dev) (p : Nat) (raw : List Byte) (corr : Nat) (uncorr : Bool) : Dev :=
  let body := raw.take (raw.length - 4)
  let sizeOk := decide (64 ≤ raw.length) && decide (raw.length ≤ 9216)
  let fcsOk := decide (raw.drop (raw.length - 4) = fcsOf body)
  if !(d.port p).up then d
  else if p = 8 then
    if sizeOk && fcsOk then
      let (d, t) := d.rxTime 8
      d.toSup 8 t body
    else d
  else if !d.fhnOn || d.portMode p = 0 || decide (6 ≤ d.portMode p) then d
  else
    let d := (d.bump (fhnCnt p rxFrames)).bumpBy (fhnCnt p rxBytes) raw.length
    let d := d.bumpBy (fhnCnt p 3) corr
    if uncorr then d.bump (fhnCnt p rxFecUncorr)
    else if !sizeOk || !fcsOk then d.bump (fhnCnt p rxFcsErr)
    else
      let (d, t) := d.rxTime p
      if d.fhHeld p then
        let v := d.port p
        let used := (v.ingress.map (fun x => x.2.length)).sum
        if 262144 < used + raw.length then d.rxDrop p 14
        else d.setPort p { v with ingress := v.ingress ++ [(t, body)] }
      else d.fhSecure p t body

/-- A port whose receive path is no longer held works through its ingress buffer (R381). -/
def Dev.fhDrain (d : Dev) (p : Nat) : Dev :=
  (d.port p).ingress.foldl (fun (d : Dev) _ =>
    if d.fhHeld p then d
    else
      let v := d.port p
      match v.ingress with
      | [] => d
      | (t, bs) :: rest => (d.setPort p { v with ingress := rest }).fhSecure p t bs) d

/-- ARRIVAL_DESCRIPTOR: the oldest pending arrival of a port is posted; a post that a full queue drops loses the frame
(R381, R382). -/
def Dev.arrivalPost (d : Dev) (p : Nat) : Dev :=
  if d.fhHeld p then d
  else
    match takeFirst (fun a : Arrival => decide (a.port = p)) d.fhn.arrivals with
    | none => d
    | some (a, rest) =>
      let d := { d with fhn := { d.fhn with arrivals := rest } }
      let full := (d.queue a.queue).enabled && (d.queue a.queue).isFull
      match d.post (.fronthaul p) true a.queue a.desc none with
      | (d, .dropped) => if full then d.rxDrop p rxQfull else d
      | (d, _) => d

end Sys2Proof.Machine
end

