-- ==== Sys2Proof/Machine/FronthaulTx.lean ====
section
/-!
DEFINITION. Fronthaul launch: due heads, building and protecting frames, drops, MACsec associations (R373, R387 to R395).
-/
namespace Sys2Proof.Machine

/-! ### Launch queues and heads (R387) -/

/-- FHN_LQ[k]: the queue and the port of launch queue k, where VALID. -/
def Dev.lq (d : Dev) (k : Nat) : Option (Nat × Nat) :=
  let w := d.regN (fhnBase + 0x100 + 4 * k)
  if bit w 31 then some (fld w 17 0, fld w 20 18) else none

/-- The descriptor at the head of launch queue k. -/
def Dev.fhHead (d : Dev) (k : Nat) : Option (List Byte) := Tab.get (fun _ => none) d.fhn.heads k

def Dev.setHead (d : Dev) (k : Nat) (h : Option (List Byte)) : Dev :=
  { d with fhn := { d.fhn with heads := Tab.put (fun _ => none) d.fhn.heads k h } }

/-- LTIME of a launch descriptor. -/
def lTime (b : List Byte) : Nat := leAt b 0 8

/-- Width of a launch's compression, 16 for code 0. -/
def lWidth (h : Nat) : Nat := if fld h 28 25 = 0 then 16 else fld h 28 25

/-- Reserved values are 0 and fields are in range (R388, R389; assumption log 102). -/
def launchOk (b : List Byte) : Bool :=
  let kind := leAt b 8 1 % 4
  let hdr := leAt b 10 4
  let len := leAt b 14 2
  let pos := leAt b 20 4
  let w := leAt b 24 8
  let rlog := fld w 44 40
  decide (fld (leAt b 8 1) 7 5 = 0) && decide (leAt b 9 1 < 2) && decide (fld w 63 57 = 0) && decide (leAt b 18 2 < 4096)
    && (match kind with
      | 0 => hdr = 0 && decide (60 ≤ len) && decide (len ≤ 9172) && pos = 0 && rlog = 0
      | 1 => decide (hdr < 2 ^ 31) && decide (1 ≤ len) && decide (len ≤ 275) && decide (pos ≤ 274) && rlog = 0
          && decide (fld hdr 11 8 ≤ 9) && decide (fld hdr 21 18 ≤ 13) && decide (fld hdr 24 22 ≤ 4)
          && (if bit hdr 29 then decide (8 ≤ lWidth hdr) else lWidth hdr = 16)
      | 2 => decide (hdr < 1024) && decide (1 ≤ len) && decide (len ≤ 255) && leAt b 18 2 = 0 && decide (12 ≤ rlog)
          && decide (rlog ≤ 27)
      | _ => false)

/-- A head is due: untimed, or device time has reached LTIME − FHN_READ_LEAD; a bad descriptor is dealt with at once
(R387, R389). -/
def Dev.headDue (d : Dev) (b : List Byte) : Bool :=
  lTime b = 0 || decide (lTime b ≤ d.now + d.regN (fhnBase + 0x24)) || !launchOk b

/-- The launch queue that a port serves next (R387, R391): the due head with the smallest LTIME, untimed and bad heads as 0,
ties to the lower queue number; timed heads wait while launches are gated, unless the port is down. -/
def Dev.lqNext (d : Dev) (p : Nat) : Option Nat :=
  let cand := (List.range 64).filter (fun k =>
    match d.lq k, d.fhHead k with
    | some (_, port), some b =>
      port = p && d.headDue b && (lTime b = 0 || !launchOk b || d.time.locked || !(d.port p).up)
    | _, _ => false)
  let time := fun k => match d.fhHead k with | some b => (if launchOk b then lTime b else 0) | none => 0
  minBy (fun k => time k * 2 ^ 18 + ((d.lq k).map (·.1)).getD 0) cand

/-! ### Building frames (R389, R392) -/

/-- Read payload bytes; bytes that cannot be read are free values (assumption log 2). -/
def Dev.fhRead (d : Dev) (p a n : Nat) : Dev × List Byte :=
  match d.busRead (.fronthaul p) a n with
  | (d, .ok bs) => (d, bs)
  | (d, _) => (d.used, leBytes n (d.freeBits (8 * n)).toNat)

/-- The 16-bit parts of ci16 bytes. -/
def ci16Parts (bs : List Byte) : List Int := (List.range (bs.length / 2)).map (fun i => toSigned 16 (leAt bs (2 * i) 2))

/-- Blocks of 12 values compressed (R378). -/
def bfpBlocks (bfp : Bool) (w n : Nat) (ps : List Int) : List Byte :=
  (List.range n).flatMap (fun i => bfpBlock bfp w ((ps.drop (24 * i)).take 24))

/-- The next value of a transmit sequence counter, which then increments (R392). -/
def Dev.nextSeq (d : Dev) (i : Nat) : Dev × Nat :=
  let v := Tab.get (fun _ => (0 : BitVec 8)) d.fhn.seqTx i
  ({ d with fhn := { d.fhn with seqTx := Tab.put (fun _ => 0) d.fhn.seqTx i (v + 1) } }, v.toNat)

/-- Addresses, VLAN tag, EtherType and eCPRI header of a built frame, then its payload (R389). -/
def Dev.builtFrame (d : Dev) (p pcp eaxc seq : Nat) (payload : List Byte) : List Byte :=
  beBytes 6 (d.reg64 (fhnBase + 0x1010 + 0x100 * p)) ++ beBytes 6 (d.reg64 (fhnBase + 0x1008 + 0x100 * p))
    ++ beBytes 2 0x8100 ++ beBytes 2 (pcp * 2 ^ 13 + d.regN (fhnBase + 0x1018 + 0x100 * p)) ++ beBytes 2 0xAEFE
    ++ leBytes 1 0x10 ++ leBytes 1 0 ++ beBytes 2 (4 + payload.length) ++ beBytes 2 eaxc ++ leBytes 1 seq ++ leBytes 1 0x80
    ++ payload

/-- The payload of a U-plane launch (R376, R389): dataDirection 1, one section. -/
def uPayload (b : List Byte) (ps : List Int) : List Byte :=
  let h := leAt b 10 4
  let n := leAt b 14 2
  let bfp := bit h 29
  leBytes 1 (0x90 + fld h 24 22) ++ leBytes 1 (fld h 7 0)
    ++ beBytes 2 (fld h 11 8 * 2 ^ 12 + fld h 17 12 * 2 ^ 6 + fld h 21 18)
    ++ beBytes 3 (leAt b 18 2 % 4096 * 2 ^ 12 + leAt b 20 4 % 1024) ++ leBytes 1 (if 255 < n then 0 else n)
    ++ (if bit h 30 then leBytes 1 (16 * fld h 28 25 + b2n bfp) ++ [0] else [])
    ++ bfpBlocks bfp (lWidth h) n ps

/-- The frame of a launch, destination address to payload end (R389). -/
def Dev.launchFrame (d : Dev) (p : Nat) (b : List Byte) : Dev × List Byte :=
  let w := leAt b 24 8
  let a := fld w 39 0
  let n := leAt b 14 2
  let pcp := fld (leAt b 8 1) 4 2
  let idx := fld w 56 45
  match leAt b 8 1 % 4 with
  | 0 => d.fhRead p a n
  | 1 =>
    let (d, bs) := d.fhRead p a (48 * n)
    let (d, seq) := d.nextSeq idx
    (d, d.builtFrame p pcp (leAt b 16 2) seq (uPayload b (ci16Parts bs)))
  | _ =>
    let (bfp, wd) := (Config.tdFormat.1, 8 + Config.tdFormat.2.val)
    let wd := if bfp then wd else 16
    let rlog := fld w 44 40
    let base := a / 2 ^ rlog * 2 ^ rlog
    let sfn := leAt b 10 4
    let soff := leAt b 20 4
    let at' := 4 * ((sfn * Config.tdSpf + soff) % 2 ^ (rlog - 2))
    let len := 48 * n
    let first := min len (2 ^ rlog - at')
    let (d, x) := d.fhRead p (base + at') first
    let (d, y) := if first < len then d.fhRead p base (len - first) else (d, [])
    let (d, seq) := d.nextSeq idx
    let payload := beBytes 2 sfn ++ beBytes 4 soff ++ leBytes 1 (wd % 16 + 16 * b2n bfp) ++ leBytes 1 n
      ++ bfpBlocks bfp wd n (ci16Parts (x ++ y))
    (d, d.builtFrame p pcp (leAt b 16 2) seq payload)

/-! ### MACsec transmit (R393 to R395) -/

/-- The packet number has run out. -/
def Sa.exhausted (s : Sa) : Bool := decide ((if s.xpn then 2 ^ 64 else 2 ^ 32) ≤ s.pn)

/-- A frame protected under the current association. -/
def FhPort.protect (v : FhPort) (sci : Bool) (s : Sa) (bs : List Byte) : List Byte :=
  let data := bs.drop 12
  let tci := (if sci then 0x20 else 0) + (if v.clear then 0 else 0x0C) + v.txAn % 4
  let tag := beBytes 2 0x88E5 ++ leBytes 1 tci ++ leBytes 1 (if data.length < 48 then data.length else 0)
    ++ beBytes 4 s.pn ++ (if sci then beBytes 8 v.txSci.toNat else [])
  let head := bs.take 12 ++ tag
  let rk := aesKeys (toNats s.key)
  let iv := s.iv v.txSci s.pn
  let body := if v.clear then toNats data else gcmCrypt rk iv (toNats data)
  let icv := gcmTag rk iv (toNats (if v.clear then head ++ data else head)) (if v.clear then [] else body)
  head ++ ofNats (body ++ icv)

/-- PN threshold of a port (R395). -/
def Dev.pnThreshold (d : Dev) (p : Nat) (xpn : Bool) : Nat :=
  if d.fhn.pnSet.contains p then d.par 0x30 0x21 p else if xpn then 2 ^ 62 else 0xC0000000

/-- MACsec of a frame to send: the frame, none when the association can send nothing (R394, R395). -/
def Dev.fhProtect (d : Dev) (p : Nat) (nosec : Bool) (bs : List Byte) : Dev × Option (List Byte) :=
  let cfg := d.regN (fhnBase + 0x1000 + 0x100 * p)
  let v := d.port p
  if !bit cfg 3 || (nosec && decide (d.par 0x30 0x20 p ≠ 0)) then (d, some bs)
  else
    match Tab.get (fun _ => none) v.txSas v.txAn with
    | none => (d.fhnInt 4, none)
    | some s =>
      if s.exhausted then (d.fhnInt 4, none)
      else
        let out := v.protect (bit cfg 4) s bs
        let s := { s with pn := s.pn + 1 }
        let d := d.setPort p { v with txSas := Tab.put (fun _ => none) v.txSas v.txAn (some s) }
        let d := if s.pn = d.pnThreshold p s.xpn then d.fhnInt 3 else d
        (d, some out)

/-! ### Serving a port (R373, R390, R391) -/

/-- Transmit timestamp in ns of a frame that a port begins now (R416): a timed launch is begun early enough to cross the
timestamp point at LTIME, or now where that has passed (R390, assumption log 101). -/
def Dev.txTime (d : Dev) (p ltime : Nat) : Dev × Nat :=
  let t : Int := (d.now * 256 + Config.txLatency (d.portMode p) d.fresh : Nat)
  let t := t + toSigned 32 (d.regN (tmuBase + 0x104 + 8 * p))
  (d.used, if ltime = 0 then ((t / 256) % ((2 ^ 64 : Nat) : Int)).toNat else max d.now ltime)

/-- Bytes brought to the shortest frame without FCS. -/
def padFrame (bs : List Byte) : List Byte := bs ++ zeros (60 - bs.length)

/-- Send a head (R389, R390): bad when the frame would be longer than a port sends. -/
def Dev.fhSend (d : Dev) (p : Nat) (b : List Byte) : Dev :=
  let (d, plain) := d.launchFrame p b
  match d.fhProtect p (bit (leAt b 9 1) 0) plain with
  | (d, none) => d.txDrop p txPnExhausted
  | (d, some bs) =>
    let bs := padFrame bs
    if 9212 < bs.length then d.txDrop p txBad
    else
      let bs := bs ++ fcsOf bs
      let (d, t) := d.txTime p (lTime b)
      let d := (d.bump (fhnCnt p txFrames)).bumpBy (fhnCnt p txBytes) bs.length
      { d with fhn := { d.fhn with sent := d.fhn.sent ++ [⟨p, t, bs⟩] } }

/-- LAUNCH: a port serves its next due head: dropped while the port is down, when bad, or when late; else sent. -/
def Dev.launch (d : Dev) (p : Nat) : Dev :=
  if !d.fhnOn then d
  else
    match d.lqNext p with
    | none => d
    | some k =>
      let b := (d.fhHead k).getD []
      let d := d.setHead k none
      if !launchOk b then d.txDrop p txBad
      else if !(d.port p).up then d.txDrop p txLinkdown
      else if lTime b ≠ 0 && decide (lTime b + d.regN (fhnBase + 0x20) < d.now) then d.txDrop p txLate
      else d.fhSend p b

/-- While the time state is not locked, a timed head of a launch queue whose LTIME plus tolerance has passed is dropped
(R391). -/
def Dev.txGate (d : Dev) (k : Nat) : Dev :=
  match d.lq k, d.fhHead k with
  | some (_, p), some b =>
    if !d.time.locked && launchOk b && lTime b ≠ 0 && decide (lTime b + d.regN (fhnBase + 0x20) < d.now) then
      (d.setHead k none).txDrop p txGated
    else d
  | _, _ => d

/-- TX_GATED: the rule at the head of each of the 64 launch queues (R391). -/
def Dev.txGates (d : Dev) : Dev := (List.range 64).foldl (fun (d : Dev) k => d.txGate k) d

/-! ### MACsec associations (R393, R395) -/

/-- A new association as MKA or a static SAK gives it: for the transmit channel, or for the receive channel of an SCI. -/
structure SaInstall where
  tx     : Bool
  sci    : BitVec 64
  window : Nat
  an     : Fin 4
  key    : List Byte
  xpn    : Bool
  ssci   : BitVec 32
  salt   : List Byte
  clear  : Bool
  deriving DecidableEq, Repr

/-- SA_INSTALL: the association becomes current, with packet numbers from 1; a ninth receive channel has no place. -/
def Dev.saInstall (d : Dev) (p : Nat) (i : SaInstall) : Dev :=
  let v := d.port p
  let sa : Option Sa := some { key := padTo 32 i.key, xpn := i.xpn, ssci := i.ssci, salt := padTo 12 i.salt }
  if i.tx then
    d.setPort p { v with
      txSci := i.sci, txAn := i.an.val, clear := i.clear, txSas := Tab.put (fun _ => none) v.txSas i.an.val sa }
  else if v.rxScs.any (fun c => decide (c.sci = i.sci)) then
    let put := fun c : RxSc =>
      if c.sci = i.sci then { c with window := i.window, sas := Tab.put (fun _ => none) c.sas i.an.val sa } else c
    d.setPort p { v with rxScs := v.rxScs.map put }
  else if v.rxScs.length < 8 then
    d.setPort p { v with rxScs := v.rxScs ++ [⟨i.sci, i.window, Tab.put (fun _ => none) [] i.an.val sa⟩] }
  else d

end Sys2Proof.Machine
end

