-- ==== Sys2Proof/Machine/MoverRun.lean ====
section
/-!
DEFINITION. A mover's bursts and the completion of its job (R318, R320 to R325, R328).
-/
namespace Sys2Proof.Machine

/-- Runs of addresses that bytes `o` to `o + n - 1` of a segment lie in: one, or two around the end of its ring (R318). -/
def MvSeg.runs (s : MvSeg) (o n : Nat) : List (Nat × Nat × Bool) :=
  let first := min n (ringLeft s.src s.slog o)
  let whole := [(ringAddr s.src s.slog o, first, s.nocrc)]
  if first < n then whole ++ [(ringAddr s.src s.slog (o + first), n - first, s.nocrc)] else whole

/-- Runs of addresses that stream bytes `pos` to `pos + n - 1` lie in. -/
def segRuns : List MvSeg → Nat → Nat → List (Nat × Nat × Bool)
  | [], _, _ => []
  | s :: rest, pos, n =>
    if n = 0 then []
    else if s.len ≤ pos then segRuns rest (pos - s.len) n
    else
      let here := min n (s.len - pos)
      s.runs pos here ++ segRuns rest 0 (n - here)

/-- Length of a burst that starts at stream byte `pos`: at most 256 bytes, within a 256-byte boundary and the ring of the
destination, or of the source for CRC_ONLY (R318). -/
def MvDesc.burstLen (m : MvDesc) (pos : Nat) : Nat :=
  let n := min 256 (m.total - pos)
  if m.op = 1 then
    min n (min (256 - ringAddr m.dst m.dlog pos % 256) (ringLeft m.dst m.dlog pos))
  else
    match segRuns m.segs pos n with
    | (a, len, _) :: _ => min n (min len (256 - a % 256))
    | [] => n

/-- A burst's reads: the stream bytes, the coverage bytes among them, and the error that stopped it. -/
structure BurstRead where
  bytes : List Byte := []
  cover : List Byte := []
  err   : Option (Nat × Nat) := none
  deriving DecidableEq, Repr

/-- Read the runs of a burst in order, up to the first line that fails. -/
def Dev.readRuns (d : Dev) (m : Nat) (runs : List (Nat × Nat × Bool)) : Dev × BurstRead :=
  runs.foldl (fun (acc : Dev × BurstRead) r =>
    if acc.2.err.isSome then acc
    else
      match acc.1.busRead (.mover m) r.1 r.2.1 with
      | (d, .ok bs) =>
        (d, { acc.2 with bytes := acc.2.bytes ++ bs, cover := if r.2.2 then acc.2.cover else acc.2.cover ++ bs })
      | (d, .decode a) => (d, { acc.2 with bytes := acc.2.bytes ++ zeros (a - r.1), err := some (0x11, a) })
      | (d, .poison a) => (d, { acc.2 with bytes := acc.2.bytes ++ zeros (a - r.1), err := some (0x12, a) })) (d, {})

/-- Coverage bytes pass: the function covers all of them, but for the received field of a CRC that is checked (R320,
R321). -/
def Chan.feed (c : Chan) (md : MvDesc) (bs : List Byte) : Chan :=
  let keep := if md.check && decide (md.sel ≠ 6) then md.fieldLen else 0
  let all := c.tail ++ bs
  let now := all.take (all.length - keep)
  { c with
    crc := crcFeed md.sel c.covPos c.crc now, covPos := c.covPos + now.length, tail := all.drop (all.length - keep) }

/-- The next burst of a RUNNING channel (R318, R324); `fault` says that an internal data-path check fails (R325). The bytes
before a line that fails are transferred. -/
def Dev.moverBurst (d : Dev) (m : Nat) (fault : Bool) : Dev :=
  match d.moverCur m with
  | none => d
  | some k =>
    let c := d.chan m k
    if c.st ≠ .running || c.ending.isSome || d.chanIssued m k then d
    else if fault then d.setChan m k { c with ending := some (0x15, none) }
    else
      let md := parseMv (d.chanBytes m k)
      let c := if c.pos = 0 then { c with crc := crcInit md.sel } else c
      let n := md.burstLen c.pos
      match d.readRuns m (segRuns md.segs c.pos n) with
      | (d, ⟨bs, cov, none⟩) =>
        let d := d.bumpBy (bmvCnt m 1) n
        let c := { c.feed md cov with pos := c.pos + n }
        if md.op = 1 then
          match d.busWrite (.mover m) (ringAddr md.dst md.dlog (c.pos - n)) bs with
          | (d, .ok) => d.setChan m k c
          | (d, .decode a) => d.setChan m k { c with ending := some (0x16, some a) }
          | (d, .error a) => d.setChan m k { c with ending := some (0x16, some a) }
        else d.setChan m k c
      | (d, ⟨bs, _, some (s, a)⟩) =>
        (d.bumpBy (bmvCnt m 1) bs.length).setChan m k { c with ending := some (s, some a), pos := c.pos + bs.length }

/-- The function's result and whether its check passes (R320, R321). -/
def Chan.result (c : Chan) (md : MvDesc) : Nat × Bool :=
  let r := crcFinal md.sel c.crc
  let pass :=
    if !md.check then false
    else if md.sel = 6 then decide (r = 0)
    else decide (crcField md.sel r = c.tail)
  (r, pass)

/-- A RUNNING or PAUSING channel whose bursts have all been answered completes: with its error or ABORTED, or by storing or
checking the result (R321 to R325). -/
def Dev.moverComplete (d : Dev) (m : Nat) : Dev :=
  match d.moverCur m with
  | none => d
  | some k =>
    let c := d.chan m k
    match c.ending with
    | some (s, a) => d.chanFail m k s a
    | none =>
      if c.st ≠ .running || !d.chanIssued m k then d
      else
        let md := parseMv (d.chanBytes m k)
        let (r, pass) := c.result md
        let (d, w) :=
          if md.store then
            let at' := ringAddr md.dst md.dlog md.total
            let f := crcField md.sel r
            let first := min f.length (ringLeft md.dst md.dlog md.total)
            let (d, w) := d.busWrite (.mover m) at' (f.take first)
            if w = .ok && decide (first < f.length) then
              d.busWrite (.mover m) (ringAddr md.dst md.dlog (md.total + first)) (f.drop first)
            else (d, w)
          else (d, .ok)
        match w with
        | .ok =>
          let status := if md.check && !pass then 1 else 0
          d.chanDeliver m k status none (if md.sel = 0 then 0 else r) (decide (md.sel ≠ 0)) pass
        | .decode a => d.chanFail m k 0x16 (some a)
        | .error a => d.chanFail m k 0x16 (some a)

end Sys2Proof.Machine
end

