-- ==== Sys2Proof/Machine/Trig.lean ====
section
/-!
DEFINITION. Complex exponentials and logarithms to a fixed precision, for the operations whose results the spec states with
a tolerance or a rounding far coarser (R249 to R256, R278, R287; assumption log 25).
-/
namespace Sys2Proof.Machine

/-- 2π in units of 2^−96. -/
def twoPi96 : Int := 497805226624462170461043889244

/-- Terms of the series of cos and sin of an angle `t` in units of 2^−96: the sum so far in `c` or `s`, the last term. -/
def cisGo (t : Int) : Nat → Nat → Int → Int → Int → Int → Int × Int
  | 0, _, c, s, _, _ => (c, s)
  | f + 1, k, c, s, tc, ts =>
    let tc := -(tc * t / 2 ^ 96) * t / 2 ^ 96 / ((2 * k - 1) * (2 * k) : Nat)
    let ts := -(ts * t / 2 ^ 96) * t / 2 ^ 96 / ((2 * k) * (2 * k + 1) : Nat)
    cisGo t f (k + 1) (c + tc) (s + ts) tc ts

/-- e^{j 2π x} for x in turns, to within 2^−80; exact at whole quarter turns. -/
def cis (x : Rat) : CQ :=
  let f := x - x.floor
  let q := (4 * f + 1 / 2).floor
  let t := ((f - (q : Rat) / 4) * twoPi96).floor
  let (c, s) := cisGo t 16 1 (2 ^ 96) t (2 ^ 96) t
  let cr : Rat := (c : Rat) / (2 ^ 96 : Nat)
  let sr : Rat := (s : Rat) / (2 ^ 96 : Nat)
  match q % 4 with
  | 0 => ⟨cr, sr⟩
  | 1 => ⟨-sr, cr⟩
  | 2 => ⟨-cr, -sr⟩
  | _ => ⟨sr, -cr⟩

/-- e^{j 2π i / n} for i below n. -/
def cisTable (n : Nat) : Array CQ := ((List.range n).map (fun (i : Nat) => cis ((i : Rat) / (n : Rat)))).toArray

/-- Bits of log2 of a number in [1, 2) after the binary point: `f` of them. -/
def logGo : Nat → Rat → Nat → Nat
  | 0, _, acc => acc
  | f + 1, y, acc =>
    let y := y * y
    -- the square is kept to 64 bits, so that terms stay short
    let y := ((y * (2 ^ 64 : Nat)).floor : Rat) / (2 ^ 64 : Nat)
    if 2 ≤ y then logGo f (y / 2) (2 * acc + 1) else logGo f y (2 * acc)

/-- log2 of a positive rational to 40 bits after the binary point. -/
def log2Q (x : Rat) : Rat :=
  if x ≤ 0 then 0
  else
    let e : Int := (x.num.natAbs.log2 : Int) - (x.den.log2 : Int)
    let y := x * pow2 (-e)
    let e := if y < 1 then e - 1 else if 2 ≤ y then e + 1 else e
    let y := x * pow2 (-e)
    (e : Rat) + ((logGo 40 y 0 : Nat) : Rat) / (2 ^ 40 : Nat)

/-- log10 of 2, to 60 digits. -/
def log10of2 : Rat := 301029995663981195213738894724493026768189881462108541310427 / 10 ^ 60

/-- log10 of a positive rational. -/
def log10Q (x : Rat) : Rat := log2Q x * log10of2

end Sys2Proof.Machine
end

