-- ==== Sys2Proof/Machine/XfuDesc.lean ====
section
/-!
DEFINITION. Transform descriptors, their checks and the streams they name (R244 to R248, R253, R256, R258).
-/
namespace Sys2Proof.Machine

/-- An operand: ADDR, RLOG2, strides between antennas and between symbols. -/
structure XOpd where
  addr : Nat
  rlog : Nat
  sa   : Nat
  ss   : Nat
  deriving DecidableEq, Repr

/-- A transform descriptor with its arguments put in place. -/
structure XDesc where
  op    : Nat
  auto  : Bool
  shift : Nat
  half  : Bool
  dcskip : Bool
  phc   : Bool
  infd  : Bool
  pout  : Bool
  n     : Nat
  nsc   : Nat
  nant  : Nat
  nsym  : Nat
  sym0  : Nat
  cpS   : Nat
  cpL   : Nat
  lmask : Nat
  woff  : Nat
  inp   : XOpd
  out   : XOpd
  aux   : Nat
  stat  : Nat
  p     : List Nat
  deriving DecidableEq, Repr

/-- Address `tgt` of ARGUSE: 1 IN, 2 OUT, 3 AUX, 4 STAT (R245). -/
def xfuAddr (bs : List Byte) (tgt : Nat) : Nat :=
  let c := leAt bs 0 4
  let off := match tgt with | 1 => 48 | 2 => 64 | 3 => 80 | _ => 88
  if fld c 16 14 = tgt then fld (leAt bs 8 8) 39 0
  else if fld c 19 17 = tgt then fld (leAt bs 16 8) 39 0
  else fld (leAt bs off 8) 39 0

/-- The descriptor that bytes spell (R244, R245). -/
def parseXfu (bs : List Byte) : XDesc :=
  let c := leAt bs 0 4
  { op := fld c 3 0, auto := bit c 4, shift := fld c 8 5, half := bit c 9, dcskip := bit c 10, phc := bit c 11,
    infd := bit c 12, pout := bit c 13, n := fld (leAt bs 32 2) 12 0, nsc := fld (leAt bs 34 2) 12 0,
    nant := fld (leAt bs 36 1) 6 0, nsym := fld (leAt bs 37 1) 3 0 + 1, sym0 := fld (leAt bs 37 1) 7 4,
    cpS := fld (leAt bs 38 2) 10 0, cpL := fld (leAt bs 40 2) 10 0, lmask := fld (leAt bs 42 2) 13 0,
    woff := fld (leAt bs 44 2) 10 0,
    inp := ⟨xfuAddr bs 1, fld (leAt bs 48 8) 44 40, leAt bs 56 4, leAt bs 60 4⟩,
    out := ⟨xfuAddr bs 2, fld (leAt bs 64 8) 44 40, leAt bs 72 4, leAt bs 76 4⟩,
    aux := xfuAddr bs 3, stat := xfuAddr bs 4, p := (List.range 8).map (fun k => leAt bs (96 + 4 * k) 4) }

/-- Operation word k. -/
def XDesc.pw (x : XDesc) (k : Nat) : Nat := x.p.getD k 0

/-- PRACH fields (R253). -/
def XDesc.prL (x : XDesc) : Nat := fld (x.pw 0) 15 0
def XDesc.prNc (x : XDesc) : Nat := fld (x.pw 0) 31 16
def XDesc.prDec (x : XDesc) : Nat := fld (x.pw 1) 7 0
def XDesc.prShift (x : XDesc) : Nat := fld (x.pw 1) 13 8
def XDesc.prRoots (x : XDesc) : Nat := fld (x.pw 1) 22 16
def XDesc.prCp (x : XDesc) : Nat := fld (x.pw 3) 15 0

/-- SRS fields (R256). -/
def XDesc.ktc (x : XDesc) : Nat := fld (x.pw 0) 3 0
def XDesc.koff (x : XDesc) : Nat := fld (x.pw 0) 6 4
def XDesc.nmax (x : XDesc) : Nat := fld (x.pw 0) 11 8
def XDesc.nport (x : XDesc) : Nat := fld (x.pw 0) 15 12
def XDesc.ncs (x : XDesc) (i : Nat) : Nat := (x.pw 1 + 2 ^ 32 * x.pw 2) / 2 ^ (4 * i) % 16
def XDesc.pre (x : XDesc) : Nat := fld (x.pw 3) 10 0
def XDesc.post (x : XDesc) : Nat := fld (x.pw 3) 26 16

/-- RESAMPLE fields (R258). -/
def XDesc.rsU (x : XDesc) : Nat := fld (x.pw 0) 3 0
def XDesc.rsD (x : XDesc) : Nat := fld (x.pw 0) 7 4
def XDesc.rsTaps (x : XDesc) : Nat := fld (x.pw 0) 17 8 + 1
def XDesc.rsOut (x : XDesc) : Nat := fld (x.pw 1) 20 0
def XDesc.rsIn (x : XDesc) : Nat := ((x.rsOut - 1) * x.rsD + x.rsTaps - 1) / x.rsU + 1

/-- CP length of the job's symbol s (R249). -/
def XDesc.cp (x : XDesc) (s : Nat) : Nat := if bit x.lmask (x.sym0 + s) then x.cpL else x.cpS

/-- Stream sample at which symbol s begins (R249). -/
def XDesc.symStart (x : XDesc) (s : Nat) : Nat := ((List.range s).map (fun i => x.n + x.cp i)).sum

/-- The smallest CP that the job uses. -/
def XDesc.minCp (x : XDesc) : Nat := ((List.range x.nsym).map x.cp).foldl min (max x.cpS x.cpL)

/-- Bin of subcarrier k (R249). -/
def XDesc.bin (x : XDesc) (k : Nat) : Nat :=
  let m : Int := (k : Int) - (x.nsc / 2 : Nat)
  let m := if x.dcskip && decide (0 ≤ m) then m + 1 else m
  ((m + x.n) % x.n).toNat

/-- Steps of the job (R252, R253, R258). -/
def XDesc.steps (x : XDesc) : Nat := if x.op = 3 ∨ x.op = 5 then x.nant else x.nant * x.nsym

/-! ### Checks (R247) -/

/-- Reserved fields are 0 (R244, R245). -/
def xfuReservedOk (bs : List Byte) : Bool :=
  decide (fld (leAt bs 0 4) 31 20 = 0) && decide (fld (leAt bs 4 4) 30 18 = 0)
    && [32, 34].all (fun o => decide (leAt bs o 2 < 2 ^ 13)) && !bit (leAt bs 36 1) 7
    && [38, 40, 44].all (fun o => decide (leAt bs o 2 < 2 ^ 11)) && decide (leAt bs 42 2 < 2 ^ 14) && leAt bs 46 2 = 0
    && [48, 64].all (fun o => decide (leAt bs o 8 < 2 ^ 45)) && [80, 88].all (fun o => decide (leAt bs o 8 < 2 ^ 40))

/-- Fields that the operation does not use are 0, and the bits that its words do not define (R244, R247). -/
def XDesc.unusedOk (x : XDesc) : Bool :=
  let ofdm := x.op = 1 || x.op = 2
  let zero := fun (k : Nat) => decide (x.pw k = 0)
  let words :=
    match x.op with
    | 3 => decide (x.pw 1 % 2 ^ 16 < 2 ^ 14) && decide (x.pw 1 < 2 ^ 23) && decide (x.pw 3 < 2 ^ 16) && [4, 5, 6, 7].all zero
    | 4 => decide (x.pw 0 < 2 ^ 16) && !bit (x.pw 0) 7 && decide (x.pw 2 < 2 ^ 16) && decide (x.pw 3 % 2 ^ 16 < 2 ^ 11)
        && decide (x.pw 3 < 2 ^ 27) && [5, 6, 7].all zero
    | 5 => decide (x.pw 0 < 2 ^ 18) && decide (x.pw 1 < 2 ^ 21) && [2, 3, 4, 5, 6, 7].all zero
    | _ => (List.range 8).all zero
  (ofdm || (!x.half && !x.dcskip && x.cpS = 0 && x.cpL = 0 && x.lmask = 0 && x.sym0 = 0)) && (x.op = 1 || !x.phc)
    && (x.op = 3 || (!x.infd && !x.pout)) && (x.op ≠ 5 || (x.n = 0 && x.nsym = 1))
    && ((x.op ≠ 3 && x.op ≠ 5) || x.nsc = 0) && (x.op = 1 || x.op = 3 || x.woff = 0)
    && ((x.op ≠ 1 && x.op ≠ 5) || x.inp.ss = 0) && ((x.op ≠ 2 && x.op ≠ 5) || x.out.ss = 0) && words

/-- Decimation factors (R253). -/
def xfuDecs : List Nat := [1, 2, 3, 4, 6, 8, 12, 16, 24, 32, 48, 64, 96, 128]

/-- Sizes, counts and limits (R244, R248, R253 to R258). -/
def XDesc.limitsOk (x : XDesc) : Bool :=
  decide (1 ≤ x.nant) && decide (x.nant ≤ 64) && decide (x.sym0 + x.nsym ≤ 14)
    && (match x.op with
      | 1 | 2 =>
        [128, 256, 512, 1024, 1536, 2048, 3072, 4096].contains x.n && decide (1 ≤ x.nsc)
          && decide (x.nsc + b2n x.dcskip ≤ x.n) && decide (4 * x.cpS ≤ x.n) && decide (4 * x.cpL ≤ x.n)
          && decide (x.woff ≤ x.minCp)
      | 3 =>
        [139, 839].contains x.prL && [256, 512, 1024, 2048].contains x.prNc && decide (x.prL ≤ x.prNc)
          && decide (x.nsym ≤ 12) && decide (1 ≤ x.prRoots) && decide (x.prRoots ≤ 64)
          && (if x.infd then
                x.n = 0 && x.prDec = 0 && x.pw 2 = 0 && x.prCp = 0 && x.woff = 0 && !x.auto
              else
                xfuDecs.contains x.prDec && [256, 512, 1024, 2048].contains x.n && decide (x.prL ≤ x.n)
                  && x.woff % x.prDec = 0 && decide (x.woff ≤ x.prCp) && x.prCp % x.prDec = 0)
      | 4 =>
        [1, 2, 4, 8].contains x.ktc && decide (x.koff < x.ktc) && decide (1 ≤ x.nmax) && decide (x.nmax ≤ 12)
          && decide (1 ≤ x.nport) && decide (x.nport ≤ 12) && (List.range x.nport).all (fun i => decide (x.ncs i < x.nmax))
          && [64, 128, 256, 512, 1024, 2048, 4096].contains x.n && decide (x.nsc ≤ x.n)
          && decide ((x.pre + x.post + 1) * x.nmax ≤ x.n)
      | 5 =>
        decide (1 ≤ x.rsU) && decide (x.rsU ≤ 8) && decide (1 ≤ x.rsD) && decide (x.rsD ≤ 8)
          && decide (x.rsTaps ≤ 64 * x.rsU) && decide (x.rsTaps ≤ 512) && decide (1 ≤ x.rsOut) && decide (x.rsOut ≤ 1048576)
      | _ => false)

/-- Rings are named only where they are permitted (R246). -/
def XDesc.ringsOk (x : XDesc) : Bool :=
  let ok := fun (o : XOpd) (may : Bool) => o.rlog = 0 || (may && decide (12 ≤ o.rlog) && decide (o.rlog ≤ 27))
  ok x.inp (x.op = 1 || x.op = 5 || (x.op = 3 && !x.infd)) && ok x.out (x.op = 2 || x.op = 5)

/-- Alignment (R247). -/
def XDesc.alignOk (x : XDesc) : Bool :=
  let ci := fun (o : XOpd) => o.addr % 4 = 0 && o.sa % 4 = 0 && o.ss % 4 = 0
  let ring := fun (o : XOpd) => o.rlog = 0 || o.sa % 2 ^ o.rlog = 0
  ci x.inp && ((x.op = 3 && !x.pout) || ci x.out) && (x.op ≠ 4 || x.pw 4 % 4 = 0)
    && x.aux % (if x.op = 5 then 2 else 4) = 0 && x.stat % 8 = 0 && ring x.inp && ring x.out

/-- The checks of R247: 0, or BAD_DESC, then ALIGN. -/
def xfuCheck (bs : List Byte) : Nat :=
  let x := parseXfu bs
  let c := leAt bs 0 4
  let aux := (x.op = 3 && !x.pout) || x.op = 4 || x.op = 5
  let good := xfuReservedOk bs && x.unusedOk && x.limitsOk && x.ringsOk && argUseOk (fld c 16 14) (fld c 19 17) 4
    && decide (x.inp.addr ≠ 0) && decide (x.out.addr ≠ 0) && (!aux || decide (x.aux ≠ 0))
  if !good then 0x10 else if !x.alignOk then 0x13 else 0

/-! ### Streams (R246) -/

/-- The runs of memory that `len` bytes from offset `o` of a ring occupy. -/
def ringRuns (base size : Nat) : Nat → Nat → Nat → List (Nat × Nat)
  | 0, _, _ => []
  | f + 1, o, len =>
    if len = 0 then []
    else
      let p := o % size
      let n := min len (size - p)
      (base + p, n) :: ringRuns base size f (o + n) (len - n)

/-- The runs of samples t to t + n − 1 of antenna a's stream. -/
def XOpd.stream (o : XOpd) (a t n : Nat) : List (Nat × Nat) :=
  let start := o.addr + a * o.sa
  if o.rlog = 0 then [(start + 4 * t, 4 * n)]
  else
    let size := 2 ^ o.rlog
    let base := start / size * size
    ringRuns base size (4 * n / size + 2) (start - base + 4 * t) (4 * n)

/-- The address of element k of antenna a and symbol s. -/
def XOpd.at' (o : XOpd) (a s k : Nat) : Nat := o.addr + a * o.sa + s * o.ss + 4 * k

/-- A byte string cut over runs. -/
def cutRuns (runs : List (Nat × Nat)) (bs : List Byte) : List (Nat × List Byte) :=
  (runs.foldl (fun (acc : List (Nat × List Byte) × List Byte) r =>
    (acc.1 ++ [(r.1, acc.2.take r.2)], acc.2.drop r.2)) ([], bs)).1

end Sys2Proof.Machine
end

