-- ==== Sys2Proof/Machine/Transform.lean ====
section
/-!
DEFINITION. The steps of transform jobs and their completion (R243, R249 to R258, R264, R265, R271).

An output part lies within 2 LSB of the computed value, rounded (R251): the difference is a free value. The PRACH decimator's
coefficients are Palril's own (R254), so the bins that it gives are free (assumption log 25).
-/
namespace Sys2Proof.Machine

/-- Complex parts of ci16 samples as integers. -/
def ciInts (bs : List Byte) : List CQ :=
  (List.range (bs.length / 4)).map (fun i => ⟨(toSigned 16 (leAt bs (4 * i) 2) : Int), (toSigned 16 (leAt bs (4 * i + 2) 2) : Int)⟩)

/-- ci16 samples as bytes. -/
def intsBytes (l : List Int) : List Byte := l.flatMap (fun v => leBytes 2 (ofSigned 16 v))

/-- round(v × 2^−S) of the parts of values (R251). -/
def scaledParts (s : Nat) (vs : List CQ) : List Int :=
  (rowParts vs).map (fun v => roundHalfEven (v * pow2 (-(s : Int))))

/-- No part saturates. -/
def fits16 (l : List Int) : Bool := l.all (fun v => decide (satS 16 v = v))

/-- The shift of a step: SHIFT, or the smallest under which nothing saturates (R251). -/
def XDesc.shiftFor (x : XDesc) (vs : List CQ) : Nat :=
  if x.auto then ((List.range 16).find? (fun s => fits16 (scaledParts s vs))).getD 15 else x.shift

/-- scale() over a step's values: the shift, output parts within 2 LSB, and whether one saturated (R251). -/
def Dev.scale (d : Dev) (x : XDesc) (vs : List CQ) : Dev × Nat × List Int × Bool :=
  let s := x.shiftFor vs
  let q := scaledParts s vs
  let f := (d.freeBits (3 * q.length)).toNat
  let out := q.mapIdx (fun i v => satS 16 (v + ((f >>> (3 * i)) % 8 % 5 : Nat) - 2))
  (d.used, s, out, !fits16 q)

/-- What a step computes. -/
structure XOut where
  writes  : List (Nat × List Byte) := []
  sat     : Bool := false
  shift   : Nat := 0
  bins    : List Int := []
  samples : Nat := 0
  deriving DecidableEq, Repr

/-- A step's outcome: the status and address of the error that ended it, or what it computes. -/
abbrev XRes := Dev × Except (Nat × Option Nat) XOut

/-- An error of a read as a step's outcome. -/
def readErr (e : Nat × Nat) : Except (Nat × Option Nat) XOut := .error (e.1, some e.2)

/-- The shift byte of a step at STAT + q (R251). -/
def XDesc.statByte (x : XDesc) (q s : Nat) : List (Nat × List Byte) := if x.stat = 0 then [] else [(x.stat + q, leBytes 1 s)]

/-- The phase of slot symbol j: its read, and its factor from the bytes read (R249). -/
def XDesc.phaseRun (x : XDesc) (j : Nat) : List (Nat × Nat) := if x.aux = 0 then [] else [(x.aux + 4 * j, 4)]
def XDesc.phase (x : XDesc) (bs : List Byte) : CQ :=
  if x.aux = 0 then ⟨1, 0⟩ else ((ciInts bs).getD 0 {}).scale (pow2 (-15))

/-- Σ x[n] e^{∓j 2π i n / N} with the exponentials of a table of N; `sgn` is −1 or 1. -/
def dftAt (tab : Array CQ) (sgn : Int) (i : Nat) (x : List CQ) : CQ :=
  let n : Int := tab.size
  CQ.sum (x.mapIdx (fun k v => v.mul (tab.getD ((sgn * i * k) % n).toNat {})))

/-- Half a subcarrier (R249). -/
def XDesc.h (x : XDesc) : Rat := if x.half then 1 / 2 else 0

/-- An FFT step (R249). -/
def Dev.fftStep (d : Dev) (ag : Agent) (x : XDesc) (q : Nat) : XRes :=
  let a := q % x.nant
  let s := q / x.nant
  let j := x.sym0 + s
  let w := x.symStart s + x.cp s - x.woff
  let runs := x.inp.stream a w x.n
  match d.readMany ag (runs ++ x.phaseRun j) with
  | (d, _, some e) => (d, readErr e)
  | (d, bs, none) =>
    let n : Rat := (x.n : Nat)
    let xs := (ciInts (bs.take runs.length).flatten).mapIdx (fun i v =>
      if x.half then v.mul (cis (-((i : Rat) - (x.woff : Rat)) / (2 * n))) else v)
    let tab := cisTable x.n
    let ph := x.phase (bs.getD runs.length [])
    let vs := (List.range x.nsc).map (fun k =>
      let b := x.bin k
      let v := dftAt tab (-1) b xs
      let v := if x.phc then v.mul (cis (((b : Rat) + x.h) * (x.woff : Rat) / n)) else v
      v.mul ph)
    let (d, sh, out, sat) := d.scale x vs
    (d, .ok { writes := (x.out.at' a s 0, intsBytes out) :: x.statByte q sh, sat := sat, shift := sh, samples := x.n })

/-- An IFFT step (R250). -/
def Dev.ifftStep (d : Dev) (ag : Agent) (x : XDesc) (q : Nat) : XRes :=
  let a := q % x.nant
  let s := q / x.nant
  let j := x.sym0 + s
  let c := x.cp s
  match d.readMany ag ((x.inp.at' a s 0, 4 * x.nsc) :: x.phaseRun j) with
  | (d, _, some e) => (d, readErr e)
  | (d, bs, none) =>
    let ph := x.phase (bs.getD 1 [])
    let xs := ((ciInts (bs.getD 0 [])).map (fun v => v.mul ph)).mapIdx (fun k v => ((x.bin k : Rat) + x.h, v))
    let tab := cisTable (2 * x.n)
    let vs := (List.range (c + x.n)).map (fun (t : Nat) =>
      let u : Int := (t : Int) - c
      CQ.sum (xs.map (fun (p : Rat × CQ) => p.2.mul (tab.getD (((2 * p.1).floor * u) % (2 * x.n : Nat)).toNat {}))))
    let (d, sh, out, sat) := d.scale x vs
    (d, .ok { writes := cutRuns (x.out.stream a (x.symStart s) (c + x.n)) (intsBytes out) ++ x.statByte q sh, sat := sat,
              shift := sh, samples := c + x.n })

/-- The roots in AUX, each 1 to L − 1 (R253). -/
def XDesc.rootsOk (x : XDesc) (bs : List Byte) : Bool :=
  (List.range x.prRoots).all (fun i => decide (1 ≤ leAt bs (2 * i) 2) && decide (leAt bs (2 * i) 2 < x.prL))

/-- The bins of a time-domain PRACH step: free, as is the shift under AUTO (R254). -/
def Dev.prachBins (d : Dev) (x : XDesc) : Dev × List Int × Nat × Bool :=
  let n := 2 * x.prL * x.nsym
  let f := (d.freeBits (16 * n)).toNat
  let out := (List.range n).map (fun i => toSigned 16 (f >>> (16 * i)))
  let d := d.used
  let s := if x.auto then d.freeBelow 16 else x.shift
  let d := d.used
  let sat := d.freeBelow 2 = 1 && out.any (fun v => v = 32767 || v = -32768)
  (d.used, out, s, sat)

/-- A PRACH step: the bins of one antenna, written or kept for the profile (R253 to R255). -/
def Dev.prachStep (d : Dev) (ag : Agent) (x : XDesc) (a : Nat) : XRes :=
  let (d, roots) := if x.pout || a ≠ 0 then (d, RResp.ok []) else d.busRead ag x.aux (2 * x.prRoots)
  match rrespStatus roots with
  | some e => (d, readErr e)
  | none =>
    let bad := match roots with | .ok bs => a = 0 && !x.pout && !x.rootsOk bs | _ => false
    if bad then (d, .error (0x10, none))
    else
      let len := x.prCp + x.nsym * x.n * x.prDec
      let runs :=
        if x.infd then (List.range x.nsym).map (fun r => (x.inp.at' a r 0, 4 * x.prL)) else x.inp.stream a 0 len
      match d.readMany ag runs with
      | (d, _, some e) => (d, readErr e)
      | (d, bs, none) =>
        let (d, bins, s, sat) :=
          if x.infd then (d, (rowParts (ciInts bs.flatten)).map Rat.floor, x.shift, false) else d.prachBins x
        let ws := (List.range x.nsym).map (fun r =>
          (x.out.at' a r 0, intsBytes ((bins.drop (2 * x.prL * r)).take (2 * x.prL))))
        let ws := if x.pout then ws ++ (if x.infd then [] else x.statByte a s) else []
        (d, .ok { writes := ws, sat := sat, shift := s, bins := if x.pout then [] else bins,
                  samples := if x.infd then 0 else len })

/-- Values m to M − 1 of the taps that a window of delays keeps (R256). -/
def srsPort (x : XDesc) (tab : Array CQ) (z : Array CQ) (i : Nat) : List Nat × List CQ :=
  let c := x.n
  let dl := (c - (2 * c * x.ncs i + x.nmax) / (2 * x.nmax)) % c
  let w := (List.range (x.pre + x.post + 1)).map (fun t => (dl + c - x.pre % c + t) % c)
  let out := (List.range x.nsc).map (fun m =>
    let g := CQ.sum (w.map (fun n => (z.getD n {}).mul (tab.getD ((m * (c - n)) % c) {})))
    (g.scale (1 / (c : Rat))).mul (cis (-((x.ncs i * m : Nat) : Rat) / (x.nmax : Rat))))
  (w, out)

/-- The position t of the largest |z| in a window, lowest on ties. -/
def peakOf (z : Array CQ) (w : List Nat) : Nat :=
  (w.mapIdx (fun t n => (t, (z.getD n {}).norm2))).foldl
    (fun (b : Nat × Rat) p => if b.2 < p.2 then p else b) (0, -1) |>.1

/-- A U32 of a value rounded, saturating (R255, R257). -/
def roundU32 (v : Rat) : Nat := min (2 ^ 32 - 1) (roundHalfEven v).toNat

/-- An SRS step (R256, R257). -/
def Dev.srsStep (d : Dev) (ag : Agent) (x : XDesc) (q : Nat) : XRes :=
  let a := q % x.nant
  let s := q / x.nant
  let ys := (List.range x.nsc).map (fun m => (x.inp.at' a s (x.koff + x.ktc * m), 4))
  match d.readMany ag (ys ++ [(x.aux, 4 * x.nsc)]) with
  | (d, _, some e) => (d, readErr e)
  | (d, bs, none) =>
    let y := ciInts (bs.take x.nsc).flatten
    let zs := List.zipWith (fun v r => (v.mul r.conj).scale (pow2 (-15))) y (ciInts (bs.getD x.nsc []))
    let tab := cisTable x.n
    let z := ((List.range x.n).map (fun n => dftAt tab 1 n zs)).toArray
    let ports := (List.range x.nport).map (srsPort x tab z)
    let (d, sh, out, sat) := d.scale x (ports.flatMap (fun (p : List Nat × List CQ) => p.2))
    let ws := (List.range x.nport).map (fun i =>
      (x.out.at' a s 0 + i * x.pw 4, intsBytes ((out.drop (2 * x.nsc * i)).take (2 * x.nsc))))
    let st := if x.stat = 0 then [] else ports.mapIdx (fun i (p : List Nat × List CQ) =>
      let e := sumQ (p.1.map (fun n => (z.getD n {}).norm2)) / (x.n : Rat) * pow2 (-(2 * sh : Int))
      (x.stat + 8 * (q * x.nport + i),
        leBytes 2 (ofSigned 16 ((peakOf z p.1 : Int) - x.pre)) ++ zeros 2 ++ leBytes 4 (roundU32 e)))
    (d, .ok { writes := ws ++ st, sat := sat, shift := sh })

/-- A RESAMPLE step (R258). -/
def Dev.resampleStep (d : Dev) (ag : Agent) (x : XDesc) (a : Nat) : XRes :=
  let runs := x.inp.stream a 0 x.rsIn
  match d.readMany ag (runs ++ [(x.aux, 2 * x.rsTaps)]) with
  | (d, _, some e) => (d, readErr e)
  | (d, bs, none) =>
    let xs := (ciInts (bs.take runs.length).flatten).toArray
    let taps := bs.getD runs.length []
    let hs := (List.range x.rsTaps).map (fun t => ((toSigned 16 (leAt taps (2 * t) 2) : Int) : Rat))
    let vs := (List.range x.rsOut).map (fun m =>
      (CQ.sum (hs.mapIdx (fun t h =>
        let i := m * x.rsD + x.rsTaps - 1 - t
        if i % x.rsU = 0 then (xs.getD (i / x.rsU) {}).scale h else {}))).scale (pow2 (-15)))
    let (d, sh, out, sat) := d.scale x vs
    (d, .ok { writes := cutRuns (x.out.stream a 0 x.rsOut) (intsBytes out) ++ x.statByte a sh, sat := sat, shift := sh,
              samples := x.rsIn + x.rsOut })

/-- Address of a transform counter. -/
def xfuCnt (u i : Nat) : Nat := engCnt 4 u i

/-- One step of the running job when its OP is `op`; `fault` says that an internal check fails (R252, R265, R271). -/
def Dev.xfuStep (d : Dev) (u op : Nat) (fault : Bool) : Dev :=
  match (d.eng 4 u).run with
  | none => d
  | some j =>
    let x := parseXfu j.bytes
    let q := j.step
    if j.status.isSome || x.op ≠ op then d
    else if fault then d.setRun 4 u { j with status := some (0x15, none) }
    else
      let ag := Agent.xfu u
      let (d, r) := match op with
        | 1 => d.fftStep ag x q
        | 2 => d.ifftStep ag x q
        | 3 => d.prachStep ag x q
        | 4 => d.srsStep ag x q
        | _ => d.resampleStep ag x q
      match r with
      | .error e => d.setRun 4 u { j with status := some e }
      | .ok o =>
        match d.writeMany ag o.writes with
        | (d, some e) => d.setRun 4 u { j with status := some (e.1, some e.2) }
        | (d, none) =>
          let d := (d.bump (xfuCnt u 3)).bumpBy (xfuCnt u 4) o.samples
          let d := if o.sat then d.bump (xfuCnt u 5) else d
          let n := q + 1
          let ant := n % x.nant
          let sat := j.sat || o.sat
          d.setRun 4 u { j with
            step := n, pos := ant + 2 ^ 8 * (n / x.nant), sat := sat, bins := j.bins ++ o.bins,
            smax := if x.auto then max j.smax o.shift else x.shift,
            status := if n = x.steps then some (b2n sat, none) else none }

/-! ### The profile and completion (R243, R255) -/

/-- Conjugate of the DFT of root u, without the factor 1/√L that PDP takes as 1/L. -/
def rootSeq (l u : Nat) : List CQ :=
  let tab := cisTable (2 * l)
  let xs := (List.range l).map (fun n => tab.getD ((2 * l - u * n * (n + 1) % (2 * l)) % (2 * l)) {})
  let t := cisTable l
  (List.range l).map (fun k => (dftAt t (-1) k xs).conj)

/-- The profile of a root over every antenna and repetition. -/
def profileOf (l nc shift u : Nat) (occ : List (List CQ)) : List Nat :=
  let xu := rootSeq l u
  let tab := cisTable nc
  let ys := occ.map (fun y => List.zipWith CQ.mul y xu)
  (List.range nc).map (fun n =>
    let p := sumQ (ys.map (fun y => (dftAt tab 1 n y).norm2)) / (l : Rat)
    roundU32 (p * pow2 (-(shift : Int))))

/-- The occasions among a job's bins: L bins each. -/
def occasions (l n : Nat) (bins : List Int) : List (List CQ) :=
  (List.range n).map (fun i =>
    let b := (bins.drop (2 * l * i)).take (2 * l)
    (List.range l).map (fun k => ⟨(b.getD (2 * k) 0 : Int), (b.getD (2 * k + 1) 0 : Int)⟩))

/-- The status entry of a root (R255). -/
def profileStat (p : List Nat) : List Byte :=
  let top := p.foldl max 0
  let lag := (p.findIdx? (fun v => decide (v = top))).getD 0
  leBytes 4 top ++ leBytes 2 lag ++ zeros 2 ++ leBytes 4 (p.sum / p.length) ++ zeros 4

/-- A PRACH job that ends without an error writes its profiles (R255, R265). -/
def Dev.prachProfile (d : Dev) (u : Nat) (x : XDesc) (j : EJob) : Dev × EJob :=
  let ok := match j.status with | some (s, _) => isSuccess s | none => false
  if x.op ≠ 3 || x.pout || !ok then (d, j)
  else
    match d.busRead (.xfu u) x.aux (2 * x.prRoots) with
    | (d, .decode a) => (d, { j with status := some (0x11, some a) })
    | (d, .poison a) => (d, { j with status := some (0x12, some a) })
    | (d, .ok bs) =>
      let occ := occasions x.prL (x.nant * x.nsym) j.bins
      let ps := (List.range x.prRoots).map (fun i => profileOf x.prL x.prNc x.prShift (leAt bs (2 * i) 2) occ)
      let ws := ps.mapIdx (fun i p => (x.out.addr + i * x.out.ss, p.flatMap (leBytes 4)))
      let st := if x.stat = 0 then [] else ps.mapIdx (fun i p => (x.stat + 16 * i, profileStat p))
      match d.writeMany (.xfu u) (ws ++ st) with
      | (d, none) => (d, j)
      | (d, some e) => (d, { j with status := some (e.1, some e.2) })

/-- TRANSFORM_COMPLETION. -/
def Dev.xfuComplete (d : Dev) (u : Nat) : Dev :=
  match (d.eng 4 u).run with
  | none => d
  | some j =>
    if j.status.isNone then d
    else
      let x := parseXfu j.bytes
      let (d, j) := d.prachProfile u x j
      let status := ((j.status.map (·.1)).getD 0)
      let w := x.out.addr + 2 ^ 40 * status + 2 ^ 48 * b2n j.sat + 2 ^ 49 * (if x.auto then j.smax else x.shift)
      let now := d.now
      let rec' := fun (ea : Nat) =>
        leBytes 4 j.ref ++ leBytes 4 (w >>> 32) ++ leBytes 2 (min j.step 65535) ++ zeros 6 ++ leBytes 8 now ++ leBytes 8 ea
      (d.deliver 4 u j status w rec' x.out.addr).nextRun 4 u

end Sys2Proof.Machine
end

