-- ==== Sys2Proof/Machine/WakeGen.lean ====
section
/-!
DEFINITION. The timing block and the OOK generators (R273, R275 to R282, R295).
-/
namespace Sys2Proof.Machine

/-! ### The timing block (R275) -/

/-- The timing block of a generator or listen descriptor. -/
structure Timing where
  t0    : Nat
  n     : Nat
  cpS   : Nat
  cpL   : Nat
  lmask : Nat
  df    : Nat      -- subcarrier spacing in Hz
  sym0  : Nat
  act   : Nat
  nsym  : Nat
  deriving DecidableEq, Repr

/-- The timing block in a descriptor. -/
def parseTiming (bs : List Byte) : Timing :=
  { t0 := leAt bs 32 8, n := fld (leAt bs 40 2) 12 0, cpS := fld (leAt bs 42 2) 10 0, cpL := fld (leAt bs 44 2) 10 0,
    lmask := fld (leAt bs 46 2) 13 0, df := 15000 * 2 ^ fld (leAt bs 48 1) 1 0, sym0 := fld (leAt bs 49 1) 3 0,
    act := fld (leAt bs 50 2) 13 0, nsym := leAt bs 52 4 }

/-- Reserved bits, sizes and ranges of a timing block. -/
def timingOk (bs : List Byte) : Bool :=
  let t := parseTiming bs
  decide (leAt bs 40 2 < 2 ^ 13) && [42, 44].all (fun o => decide (leAt bs o 2 < 2 ^ 11))
    && [46, 50].all (fun o => decide (leAt bs o 2 < 2 ^ 14)) && decide (leAt bs 48 1 < 2) && decide (leAt bs 49 1 < 14)
    && [128, 256, 512, 1024, 1536, 2048, 3072, 4096].contains t.n

/-- CP of symbol i. -/
def Timing.cp (t : Timing) (i : Nat) : Nat := if bit t.lmask ((t.sym0 + i) % 14) then t.cpL else t.cpS

/-- Samples of the symbols before symbol i. -/
def Timing.samples (t : Timing) (i : Nat) : Nat :=
  let slot := ((List.range 14).map (fun k => t.n + t.cp k)).sum
  i / 14 * slot + ((List.range (i % 14)).map (fun k => t.n + t.cp k)).sum

/-- Air start of symbol i in ns. -/
def Timing.start (t : Timing) (i : Nat) : Nat := t.t0 + 10 ^ 9 * t.samples i / (t.n * t.df)

/-- Symbol i is active. -/
def Timing.active (t : Timing) (i : Nat) : Bool := bit t.act ((t.sym0 + i) % 14)

/-- Index of the k-th active symbol. -/
def Timing.nth (t : Timing) (k : Nat) : Nat :=
  let l := (List.range 14).filter t.active
  if l = [] then 0 else 14 * (k / l.length) + l.getD (k % l.length) 0

/-! ### Descriptors (R276 to R280) -/

/-- Address `tgt` of a generator descriptor: 1 IN, 2 OUT, 3 AUX. -/
def wgAddr (bs : List Byte) (tgt : Nat) : Nat :=
  let c := leAt bs 0 4
  let off := match tgt with | 1 => 88 | 2 => 56 | _ => 112
  if fld c 9 7 = tgt then fld (leAt bs 8 8) 39 0
  else if fld c 12 10 = tgt then fld (leAt bs 16 8) 39 0
  else fld (leAt bs off 8) 39 0

/-- A generator descriptor with its arguments put in place. -/
structure WDesc where
  op    : Nat
  enc   : Nat
  fill  : Bool
  crc   : Bool
  pie1  : Bool
  tm    : Timing
  out   : Nat
  sa    : Nat
  ss    : Nat
  nbuf  : Nat
  nant  : Nat
  k0    : Nat
  m     : Nat
  amp   : Nat
  chps  : Nat
  sympc : Nat
  finit : Nat
  inp   : Nat
  nbits : Nat
  prelen : Nat
  reps  : Nat
  pre   : Nat
  gap   : Nat
  cwsym : Nat
  aux   : Nat
  deriving DecidableEq, Repr

/-- The generator descriptor that bytes spell (R280). -/
def parseWg (bs : List Byte) : WDesc :=
  let c := leAt bs 0 4
  { op := fld c 1 0, enc := fld c 3 2, fill := bit c 4, crc := bit c 5, pie1 := bit c 6, tm := parseTiming bs,
    out := wgAddr bs 2, sa := leAt bs 64 4, ss := leAt bs 68 4, nbuf := leAt bs 72 2, nant := leAt bs 74 1,
    k0 := leAt bs 76 2, m := leAt bs 78 2, amp := leAt bs 80 2, chps := leAt bs 82 1, sympc := leAt bs 83 1,
    finit := fld (leAt bs 84 4) 30 0, inp := wgAddr bs 1, nbits := leAt bs 96 2, prelen := leAt bs 98 1,
    reps := leAt bs 99 1 + 1, pre := leAt bs 100 8, gap := leAt bs 108 2, cwsym := leAt bs 110 2, aux := wgAddr bs 3 }

/-- Chip rate limits as R278 gives them. -/
def WDesc.chipsOk (w : WDesc) : Bool :=
  let rate := 14000 * (w.tm.df / 15000) * w.chps
  decide (1 ≤ w.chps) && decide (w.chps ≤ 32) && decide (1 ≤ w.sympc) && decide (w.sympc ≤ 4) && (w.chps = 1 || w.sympc = 1)
    && decide (4000 * w.sympc ≤ rate) && decide (rate ≤ 256000 * w.sympc) && decide (4 * w.chps ≤ w.m)

/-- The chip sequence is empty. -/
def WDesc.noChips (w : WDesc) : Bool := w.prelen = 0 && w.nbits = 0 && !w.crc && (w.reps = 1 || w.gap = 0)

/-- The checks of R280: 0, or BAD_DESC, then ALIGN. -/
def wgCheck (bs : List Byte) : Nat :=
  let c := leAt bs 0 4
  let w := parseWg bs
  let reserved := decide (c < 2 ^ 13) && decide (fld (leAt bs 4 4) 30 18 = 0) && timingOk bs && w.tm.nsym = 0
    && [56, 88, 112].all (fun o => decide (leAt bs o 8 < 2 ^ 40)) && leAt bs 75 1 = 0 && !bit (leAt bs 84 4) 31
    && leAt bs 120 8 = 0
  let ranges := decide (1 ≤ w.nbuf) && decide (w.nbuf ≤ 4095) && decide (1 ≤ w.nant) && decide (w.nant ≤ 4)
    && decide (w.k0 < 2 ^ 13) && decide (12 ≤ w.m) && decide (w.m ≤ 288) && w.m % 12 = 0 && decide (w.amp ≤ 32767)
    && decide (w.nbits ≤ 1024) && decide (w.prelen ≤ 64) && decide (w.reps ≤ 16) && decide (w.gap ≤ 4095)
    && (if w.op = 1 then w.cwsym = 0 else decide (1 ≤ w.cwsym) && decide (w.cwsym ≤ 4095))
  let unused := w.op ≠ 3 || (w.enc = 0 && !w.crc && !w.pie1 && leAt bs 88 8 = 0 && w.nbits = 0 && w.prelen = 0 && w.reps = 1
    && w.pre = 0 && w.gap = 0)
  let good := reserved && ranges && unused && decide (1 ≤ w.op) && decide (w.enc ≤ 2) && w.chipsOk && decide (w.tm.act ≠ 0)
    && !(w.op ≠ 3 && w.noChips) && decide (w.k0 + w.m ≤ w.tm.n) && argUseOk (fld c 9 7) (fld c 12 10) 3
  if !good then 0x10
  else if w.out % 4 ≠ 0 || w.aux % 4 ≠ 0 || w.sa % 4 ≠ 0 || w.ss % 4 ≠ 0 then 0x13
  else 0

/-! ### Chips (R276 to R278) -/

/-- The 16 parity bits of R277. -/
def crc16Ones (bits : List Bool) : List Bool := natBits 16 (crcBits 16 0x1021 0xFFFF bits)

/-- One bit as chips. -/
def WDesc.encodeBit (w : WDesc) (b : Bool) : List Bool :=
  match w.enc with
  | 0 => [b]
  | 1 => if b then [true, false] else [false, true]
  | _ => if !b then [true, false] else if w.pie1 then [true, true, true, false] else [true, true, false]

/-- The chip sequence of a frame. -/
def WDesc.chipSeq (w : WDesc) (payload : List Byte) : List Bool :=
  let bits := (bitsOf payload).take w.nbits
  let bits := if w.crc then bits ++ crc16Ones bits else bits
  let one := (List.range w.prelen).map (fun c => w.pre.testBit c) ++ bits.flatMap w.encodeBit
  (List.range w.reps).flatMap (fun r => (if r = 0 then [] else List.replicate w.gap false) ++ one)

/-- Active symbols that a sequence of `n` chips fills. -/
def WDesc.frameSyms (w : WDesc) (n : Nat) : Nat := if w.op = 3 then 0 else ceilDiv n w.chps * w.sympc

/-- Active symbols of the job. -/
def WDesc.total (w : WDesc) (n : Nat) : Nat := w.frameSyms n + (if w.op = 1 then 0 else w.cwsym)

/-- Chip of the sequence in active symbol `k`, chip place `c`. -/
def WDesc.chipAt (w : WDesc) (chips : List Int) (k c : Nat) : Bool :=
  let f := w.frameSyms chips.length
  if f ≤ k then true else chips.getD (k / w.sympc * w.chps + c) 0 = 1

/-- ON chips that begin in active symbol `k`. -/
def WDesc.onChips (w : WDesc) (chips : List Int) (k : Nat) : Nat :=
  let f := w.frameSyms chips.length
  let first := if f ≤ k then (k - f) % w.sympc = 0 else k % w.sympc = 0
  if first then ((List.range w.chps).filter (fun c => w.chipAt chips k c)).length else 0

/-- Samples b[n] of active symbol `k` (R279). -/
def WDesc.samples (w : WDesc) (chips : List Int) (k : Nat) : List CQ :=
  let c := (if w.fill then goldSeq w.finit (2 * k * w.m) (2 * w.m) else []).toArray
  let part := fun (i : Nat) => if c.getD i false then -(sqrtQ (1 / 2)) else sqrtQ (1 / 2)
  (List.range w.m).map (fun n =>
    if w.chipAt chips k (n * w.chps / w.m) then
      (if w.fill then (⟨part (2 * n), part (2 * n + 1)⟩ : CQ) else ⟨1, 0⟩).scale (w.amp : Rat)
    else {})

/-- X[k] of R279. -/
def WDesc.spectrum (w : WDesc) (b : List CQ) : List CQ :=
  let tab := cisTable w.m
  (List.range w.m).map (fun (k : Nat) =>
    (CQ.sum (b.mapIdx (fun n v => v.mul (tab.getD (((w.m / 2 : Nat) - (k : Int)) * n % (w.m : Nat)).toNat {})))).scale
      (1 / (w.m : Rat)))

/-- The 4 M bytes of one antenna under a weight, and whether a part saturated. -/
def antennaBytes (x : List CQ) (wt : Nat) : List Byte × Bool :=
  let f : CQ := ⟨(toSigned 16 wt : Int), (toSigned 16 (wt / 65536) : Int)⟩
  let q := (x.flatMap (fun v => let y := (v.mul f).scale (1 / 32768); [y.re, y.im])).map roundHalfEven
  (q.flatMap (fun v => leBytes 2 (ofSigned 16 (satS 16 v))), q.any (fun v => decide (satS 16 v ≠ v)))

/-! ### Steps (R279, R281) -/

/-- A generator's job. -/
def Dev.genJob (d : Dev) (g k : Nat) : Option EJob := Tab.get (fun _ => none) (d.eng 5 g).ctx k

/-- Replace it. -/
def Dev.setGenJob (d : Dev) (g k : Nat) (j : Option EJob) : Dev :=
  let e := d.eng 5 g
  d.setEng 5 g { e with ctx := Tab.put (fun _ => none) e.ctx k j }

/-- A job ends with a status. -/
def Dev.genEnd (d : Dev) (g k : Nat) (j : EJob) (status : Nat) (addr : Option Nat) : Dev :=
  d.setGenJob g k (some { j with status := some (status, addr), cap := (d.eng 5 g).nextEnd })

/-- The chips and the weights, read before the job's first symbol. -/
def Dev.genLoad (d : Dev) (g : Nat) (w : WDesc) (j : EJob) : Dev × Except (Nat × Nat) EJob :=
  if j.step ≠ 0 then (d, .ok j)
  else
    let runs := (if w.op = 3 || w.nbits = 0 then [] else [(w.inp, ceilDiv w.nbits 8)])
      ++ (if w.aux = 0 then [] else [(w.aux, 4 * w.nant)])
    match d.readMany (.wake g) runs with
    | (d, _, some e) => (d, .error e)
    | (d, bs, none) =>
      let payload := if w.op = 3 || w.nbits = 0 then [] else bs.getD 0 []
      let wts := if w.aux = 0 then [] else bs.getD (runs.length - 1) []
      let word := fun (a : Nat) => if w.aux = 0 then 32767 else leAt wts (4 * a) 4
      let chips := if w.op = 3 then [] else (w.chipSeq payload).map (fun b => if b then (1 : Int) else 0)
      (d, .ok { j with bins := chips, gstat := (List.range w.nant).foldl (fun t a => Tab.put (fun _ => 0) t a (word a)) [] })

/-- FRAME, FRAME_AND_CW_TAIL and CW_ONLY: the next active symbol of the job in context `k` of generator `g`, when its OP is
`op` and the symbol may be written; `fault` says that an internal check fails (R279, R281, R295). -/
def Dev.genStep (d : Dev) (g k op : Nat) (fault : Bool) : Dev :=
  match d.genJob g k with
  | none => d
  | some j =>
    let w := parseWg j.bytes
    let i := w.tm.nth j.step
    let t := w.tm.start i
    if j.status.isSome || w.op ≠ op || decide (d.now + 1000 * (d.regN (wbuGBase g + 0x24) % 65536) < t) then d
    else if t < d.now + 1000 * (d.regN (wbuGBase g + 0x28) % 65536) then
      ((d.setBits (wbuGBase g + 0x10) 16).bump (engCnt 5 g 4)).genEnd g k j 0x22 none
    else if fault then d.genEnd g k j 0x15 none
    else
      match d.genLoad g w j with
      | (d, .error e) => d.genEnd g k j e.1 (some e.2)
      | (d, .ok j) =>
        let x := w.spectrum (w.samples j.bins j.step)
        let outs := (List.range w.nant).map (fun a => antennaBytes x (Tab.get (fun _ => 0) j.gstat a))
        let ws := outs.mapIdx (fun a (o : List Byte × Bool) =>
          (w.out + a * w.sa + i % w.nbuf * w.ss + 4 * w.k0, o.1))
        match d.writeMany (.wake g) ws with
        | (d, some e) => d.genEnd g k j e.1 (some e.2)
        | (d, none) =>
          let sat := outs.any (fun (o : List Byte × Bool) => o.2)
          let d := (d.bump (engCnt 5 g 2)).bumpBy (engCnt 5 g 3) (w.onChips j.bins j.step)
          let d := if sat then d.bump (engCnt 5 g 5) else d
          let j := { j with step := j.step + 1, sat := j.sat || sat }
          if j.step = w.total j.bins.length then d.genEnd g k j (b2n j.sat) none else d.setGenJob g k (some j)

/-- GENERATOR_COMPLETION: the job that ended first delivers its completion and frees its context (R273, R282). -/
def Dev.genComplete (d : Dev) (g : Nat) : Dev :=
  let done := (List.range 12).filterMap (fun k =>
    match d.genJob g k with
    | some j => if j.status.isSome then some (k, j) else none
    | none => none)
  match minBy (fun (p : Nat × EJob) => p.2.cap) done with
  | none => d
  | some (k, j) =>
    let w := parseWg j.bytes
    let status := ((j.status.map (·.1)).getD 0)
    let word := w.out + 2 ^ 40 * status + 2 ^ 48 * b2n j.sat + 2 ^ 49 * min 32767 j.step
    let now := d.now
    let rec' := fun (ea : Nat) =>
      leBytes 4 j.ref ++ leBytes 4 (word >>> 32) ++ leBytes 2 (min j.step 65535) ++ zeros 6 ++ leBytes 8 now ++ leBytes 8 ea
    (d.setGenJob g k none).deliver 5 g j status word rec' w.out

end Sys2Proof.Machine
end

