-- ==== Sys2Proof/Machine/WakeRx.lean ====
section
/-!
DEFINITION. The burst receivers: listen jobs, envelopes, preambles, lanes, packets and reports (R274, R283 to R294).

The chip clock that a receiver tracks within 3 % of CHIPRATE (R286) is a free value of each detection (assumption log 26).
-/
namespace Sys2Proof.Machine

/-- A listen descriptor (R284). -/
structure LDesc where
  nant : Nat
  rate : Nat
  tag  : Nat
  inp  : Nat
  sa   : Nat
  ss   : Nat
  tm   : Timing
  nbuf : Nat
  k0   : Nat
  m    : Nat
  deriving DecidableEq, Repr

/-- The listen descriptor that bytes spell. -/
def parseListen (bs : List Byte) : LDesc :=
  { nant := leAt bs 0 4 % 8, rate := leAt bs 8 4, tag := leAt bs 12 2, inp := fld (leAt bs 16 8) 39 0, sa := leAt bs 24 4,
    ss := leAt bs 28 4, tm := parseTiming bs, nbuf := leAt bs 56 2, k0 := leAt bs 58 2, m := leAt bs 60 2 }

/-- The checks of R284: 0, or BAD_DESC, then ALIGN. -/
def listenCheck (bs : List Byte) : Nat :=
  let l := parseListen bs
  let good := decide (leAt bs 0 4 < 8) && decide (1 ≤ l.nant) && decide (l.nant ≤ 4) && decide (leAt bs 4 4 < 2 ^ 18)
    && decide (4000 ≤ l.rate) && decide (l.rate ≤ 256000) && leAt bs 14 2 = 0 && decide (leAt bs 16 8 < 2 ^ 40) && timingOk bs
    && decide (l.tm.nsym < 1048576) && decide (1 ≤ l.nbuf) && decide (l.nbuf ≤ 4095) && decide (l.k0 < 2 ^ 13)
    && decide (12 ≤ l.m) && decide (l.m ≤ 288) && l.m % 12 = 0 && leAt bs 62 2 = 0 && decide (l.k0 + l.m ≤ l.tm.n)
    && decide (4 * l.rate ≤ l.m * l.tm.df)
  if !good then 0x10 else if l.inp % 4 ≠ 0 || l.sa % 4 ≠ 0 || l.ss % 4 ≠ 0 then 0x13 else 0

/-- Nominal chip duration in ns. -/
def LDesc.chip (l : LDesc) : Rat := (10 ^ 9 : Nat) / (l.rate : Rat)

/-- Start of timing hypothesis h, a quarter chip apart (R286). -/
def LDesc.hyp (l : LDesc) (h : Nat) : Rat := (l.tm.t0 : Rat) + (h : Rat) * l.chip / 4

/-- First symbol at or after `i` that is active; none where no symbol is. -/
def Timing.nextActive (t : Timing) (i : Nat) : Option Nat := ((List.range 14).find? (fun k => t.active (i + k))).map (fun k => i + k)

/-- The first symbol whose read is still to come at a time (R285). -/
def LDesc.firstSym (l : LDesc) (lag now : Nat) : Nat :=
  let t := l.tm
  let slot := t.samples 14
  let gone := if now ≤ t.t0 + lag then 0 else (now - t.t0 - lag) * (t.n * t.df) / (10 ^ 9 * slot)
  14 * gone + ((List.range 15).find? (fun k => decide (now ≤ t.start (14 * gone + k + 1) + lag))).getD 14

/-! ### Taking a listen job (R274, R284, R291) -/

/-- A receiver's read lag in ns. -/
def Dev.readLag (d : Dev) (r : Nat) : Nat := 1000 * (d.regN (wbuRBase r + 0x30) % 65536)

/-- A receiver may take an entry: enabled, awake, with a free context. -/
def Dev.wbrReady (d : Dev) (r : Nat) : Bool :=
  let p := d.power (pwrEng 9 r)
  bit (d.regN (wbuRBase r + 4)) 0 && (p = .active || p = .nap) && decide ((d.listens r).length < 12)

/-- An entry that fails before its RQ is known: the address and JOB_ERR. -/
def Dev.listenBad (d : Dev) (r : Nat) (addr : Option Nat) : Dev :=
  let (d, a) := d.errAddr addr
  (d.setReg64 (wbuRBase r + 0x38) a).setBits (wbuRBase r + 0x10) 1

/-- A taken entry of WBU_R_JOBQ (R274, R284, R291). -/
def Dev.listenTake (d : Dev) (r : Nat) (e : List Byte) : Dev :=
  let d := if d.power (pwrEng 9 r) = .nap then d.setPower (pwrEng 9 r) .active else d
  let a := fld (leAt e 0 8) 39 0
  if !entryReservedOk e || leAt e 8 1 % 8 ≠ 1 || a % 64 ≠ 0 then d.listenBad r none
  else
    match d.busRead (.wake (4 + r)) a 64 with
    | (d, .decode x) => d.listenBad r (some x)
    | (d, .poison x) => d.listenBad r (some x)
    | (d, .ok bs) =>
      match (List.range 12).find? (fun k => (d.listen r k).isNone) with
      | none => d
      | some k =>
        let l := parseListen bs
        let first := l.firstSym (d.readLag r) d.now
        let since : Rat := ((l.tm.start first : Nat) : Rat) - (l.tm.t0 : Nat)
        let j : Listen := { bytes := bs, sym := first, hyp := (4 * since / l.chip).ceil.toNat }
        let st := listenCheck bs
        if st ≠ 0 then d.listenEnd r k j st
        else if 16000 < d.listenRate r + j.khz then d.listenEnd r k j 0x23
        else d.setListen r k (some j)

/-! ### The envelope (R285) -/

/-- Samples of a symbol: time and envelope, from the antennas' subcarriers. -/
def envelope (l : LDesc) (i : Nat) (ants : List (List CQ)) : List (Rat × Rat) :=
  let tab := cisTable l.m
  let t0 : Rat := ((l.tm.start i : Nat) : Rat) + (10 ^ 9 * l.tm.cp i : Nat) / ((l.tm.n * l.tm.df : Nat) : Rat)
  (List.range l.m).map (fun (n : Nat) =>
    let e := sumQ (ants.map (fun y =>
      (CQ.sum (y.mapIdx (fun k v => v.mul (tab.getD ((((k : Int) - (l.m / 2 : Nat)) * n) % (l.m : Nat)).toNat {})))).norm2))
    (t0 + (10 ^ 9 * n : Nat) / ((l.m * l.tm.df : Nat) : Rat), e))

/-- Mean envelope of the interval from `t` of duration `c`; none where it is erased: samples of duration `s` cover less than
a quarter of it. -/
def chipMean (env : List (Rat × Rat)) (s t c : Rat) : Option Rat :=
  let vs := (env.filter (fun p => decide (t ≤ p.1) && decide (p.1 < t + c))).map (fun p => p.2)
  if vs = [] || decide ((vs.length : Rat) * s * 4 < c) then none else some (sumQ vs / (vs.length : Rat))

/-- Sample duration in ns. -/
def LDesc.sample (l : LDesc) : Rat := (10 ^ 9 : Nat) / ((l.m * l.tm.df : Nat) : Rat)

/-! ### Preambles (R283, R286) -/

/-- The preamble's chips. -/
def preambleChips : List Bool :=
  [true, true, true, true, false, false, false, false, true, false, true, false, true, true, false, false]

/-- μ1 and μ0 of a hypothesis; none where fewer than 12 chips are available. -/
def preambleMeans (l : LDesc) (env : List (Rat × Rat)) (tau : Rat) : Option (Rat × Rat) :=
  let e := preambleChips.mapIdx (fun (c : Nat) on => (on, chipMean env l.sample (tau + (c : Rat) * l.chip) l.chip))
  let pick := fun (b : Bool) => e.filterMap (fun (p : Bool × Option Rat) => if p.1 = b then p.2 else none)
  let on := pick true
  let off := pick false
  if on.length + off.length < 12 then none
  else some (sumQ on / (on.length : Rat), sumQ off / (off.length : Rat))

/-- Contrast D is at least that of another hypothesis, or above it: μ1/μ0 compared without division. -/
def contrastGe (strict : Bool) (a : Rat × Rat) (b : Option (Rat × Rat)) : Bool :=
  match b with
  | none => true
  | some b => if strict then decide (b.1 * a.2 < a.1 * b.2) else decide (b.1 * a.2 ≤ a.1 * b.2)

/-- The detection at hypothesis h, if there is one (R286): contrast in dB, none where μ0 is 0. -/
def detectAt (l : LDesc) (env : List (Rat × Rat)) (pdet : Rat) (h : Nat) : Option Recep :=
  let at' := fun (k : Nat) => preambleMeans l env (l.hyp k)
  match at' h with
  | none => none
  | some m =>
    let earlier := (List.range (min h 4)).all (fun i => contrastGe true m (at' (h - 1 - i)))
    let later := (List.range 4).all (fun i => contrastGe false m (at' (h + 1 + i)))
    let db := if m.2 = 0 then none else some (10 * log10Q (m.1 / m.2))
    let enough := match db with | none => true | some x => decide (pdet ≤ x)
    if decide (m.2 < m.1) && enough && earlier && later then
      some { tau := l.hyp h, level := 10 * log10Q ((m.1 - m.2) / (2 ^ 30 : Nat)), contrast := db, mid := (m.1 + m.2) / 2 }
    else none

/-! ### Reports (R292) -/

/-- A dB value in units, rounded down or up as the free bit says: R292 states no rounding. -/
def quantise (up : Bool) (x : Rat) : Int := if up then x.ceil else x.floor

/-- The number that bits spell, first bit most significant. -/
def bitsVal (l : List Bool) : Nat := l.foldl (fun a b => 2 * a + b2n b) 0

/-- LEN and TYPE of a reception's header. -/
def Recep.len (p : Recep) : Nat := bitsVal (p.bits.take 5)
def Recep.type (p : Recep) : Nat := bitsVal ((p.bits.drop 5).take 7)

/-- The header check (R289). -/
def Recep.headerOk (p : Recep) : Bool :=
  decide (p.len ≤ 16) && crcBits 4 3 0 (p.bits.take 12) = bitsVal ((p.bits.drop 12).take 4)

/-- Bits of the packet. -/
def Recep.total (p : Recep) : Nat := 32 + 8 * p.len

/-- The CRC-16 check over H and the payload (R283). -/
def Recep.crcOk (p : Recep) : Bool :=
  let n := 16 + 8 * p.len
  decide (crc16Ones (p.bits.take n) = (p.bits.drop n).take 16)

/-- Post the report of a reception: KIND 0 PACKET, 1 CRC_ERROR, 2 LOST_CAPTURE. -/
def Dev.report (d : Dev) (r : Nat) (l : Listen) (p : Recep) (kind : Nat) : Dev :=
  let up := d.freeBelow 2 = 1
  let d := d.used
  let up2 := d.freeBelow 2 = 1
  let d := d.used
  let level := ofSigned 16 (satS 16 (quantise up (p.level * 256)))
  let contrast := match p.contrast with
    | none => 255
    | some x => min 255 (quantise up2 (x * 4)).toNat
  let payload := if kind = 2 then [] else bitsBytes ((p.bits.drop 16).take (8 * p.len))
  let time := p.tau.floor.toNat
  (d.bump (wbrCnt r (kind + 1))).wbrPost r l
    (wbrReport payload time level contrast kind p.len p.type p.erased (leAt l.bytes 12 2))

/-! ### Lanes (R287 to R289) -/

/-- Count a detection ignored or replaced. -/
def Dev.ignored (d : Dev) (r : Nat) : Dev := d.bump (wbrCnt r 5)

/-- A detection N captures a reception that has passed its header check (R288). -/
def Dev.captures (d : Dev) (r : Nat) (cur n : Recep) : Bool :=
  decide (cur.level + (d.regN (wbuRBase r + 0x28) % 65536 : Nat) / (256 : Rat) ≤ n.level)

/-- A new detection under the lane rules (R288). -/
def Dev.laneDetect (d : Dev) (r : Nat) (l : Listen) (n : Recep) : Dev × Listen :=
  match l.cur with
  | none => (d, { l with cur := some n })
  | some c =>
    if c.passed then
      if d.captures r c n then (d.report r l c 2, { l with cur := some n }) else (d.ignored r, l)
    else
      match l.lane2 with
      | none => (d, { l with lane2 := some n })
      | some o => if o.level < n.level then (d.ignored r, { l with lane2 := some n }) else (d.ignored r, l)

/-- The current reception after a bit: its header check at 16 bits, with the candidate tested when it passes and promoted when
it fails; its report at its last bit (R289). A promoted candidate may have its header bits already. -/
def Dev.settle : Nat → Dev → Nat → Listen → Dev × Listen
  | 0, d, _, l => (d, l)
  | f + 1, d, r, l =>
    match l.cur with
    | none => (d, l)
    | some c =>
      if c.passed then
        if c.bits.length < c.total then (d, l)
        else (d.report r l c (if c.crcOk then 0 else 1), { l with cur := none })
      else if c.bits.length < 16 then (d, l)
      else if !c.headerOk then Dev.settle f (d.bump (wbrCnt r 4)) r { l with cur := l.lane2, lane2 := none }
      else
        let p := { l with cur := some { c with passed := true }, lane2 := none }
        let (d, p) := match l.lane2 with | some n => d.laneDetect r p n | none => (d, p)
        Dev.settle f d r p

/-- The next bit of a reception from the envelope (R287): the bit, and whether it is erased. -/
def Recep.nextBit (p : Recep) (l : LDesc) (env : List (Rat × Rat)) : Bool × Bool :=
  let t := p.tau + p.chip * (16 + 2 * (p.bits.length : Rat))
  match chipMean env l.sample t p.chip, chipMean env l.sample (t + p.chip) p.chip with
  | some a, some b => (decide (b < a), false)
  | some a, none => (decide (p.mid < a), false)
  | none, some b => (decide (b < p.mid), false)
  | none, none => (false, true)

/-- Start and end of a reception's next bit. -/
def Recep.bitStart (p : Recep) : Rat := p.tau + p.chip * (16 + 2 * (p.bits.length : Rat))
def Recep.bitEnd (p : Recep) : Rat := p.tau + p.chip * (18 + 2 * (p.bits.length : Rat))

/-- A reception with its next bit. -/
def Dev.takeBit (d : Dev) (r : Nat) (l : LDesc) (env : List (Rat × Rat)) (p : Recep) : Dev × Recep :=
  let (b, er) := p.nextBit l env
  let d := if er then d.bump (wbrCnt r 6) else d
  (d, { p with bits := p.bits ++ [b], erased := p.erased + b2n er })

/-- The chip duration that a reception tracks: within 3 % of the nominal one (R286). -/
def Dev.trackedChip (d : Dev) (l : LDesc) : Rat :=
  l.chip * (1 + 3 * (((d.freeBelow 2000001 : Nat) : Rat) - 1000000) / 100000000)

/-- What is decided next. -/
inductive Decision where
  | current
  | second
  | search
  deriving DecidableEq, Repr

/-- The next decision and its time: on equal times the current reception comes first, the search last (R294). -/
def Listen.next (l : Listen) (ld : LDesc) : Option (Rat × Decision) :=
  let a := l.cur.map (fun p => (p.bitEnd, Decision.current))
  let b := match l.lane2 with
    | some p => if p.bits.length < 16 then some (p.bitEnd, Decision.second) else none
    | none => none
  let c := if l.ended.isNone then some (ld.hyp l.hyp + 16 * ld.chip, Decision.search) else none
  let least := fun (x y : Option (Rat × Decision)) =>
    match x, y with
    | some u, some v => if v.1 < u.1 then some v else some u
    | some u, none => some u
    | none, v => v
  least (least a b) c

/-- Make one decision. -/
def Dev.decideOne (d : Dev) (r : Nat) (ld : LDesc) (l : Listen) (k : Decision) : Dev × Listen :=
  match k with
  | .current =>
    match l.cur with
    | none => (d, l)
    | some p =>
      let (d, p) := d.takeBit r ld l.env p
      Dev.settle 4 d r { l with cur := some p }
  | .second =>
    match l.lane2 with
    | none => (d, l)
    | some p =>
      let (d, p) := d.takeBit r ld l.env p
      (d, { l with lane2 := some p })
  | .search =>
    let n := detectAt ld l.env ((d.regN (wbuRBase r + 0x2C) % 65536 : Nat) / (256 : Rat)) l.hyp
    let l := { l with hyp := l.hyp + 1 }
    match n with
    | none => (d, l)
    | some n =>
      let n := { n with chip := d.trackedChip ld }
      d.used.bump (wbrCnt r 0) |>.laneDetect r l n

/-- Decisions in the order of their times, up to a horizon (R286 to R289, R294). -/
def Dev.decideGo : Nat → Dev → Nat → LDesc → Rat → Listen → Dev × Listen
  | 0, d, _, _, _, l => (d, l)
  | f + 1, d, r, ld, horizon, l =>
    match l.next ld with
    | none => (d, l)
    | some (t, k) =>
      if horizon < t then (d, l)
      else
        let (d, l) := d.decideOne r ld l k
        Dev.decideGo f d r ld horizon l

/-- The decisions that a horizon allows. -/
def Dev.decide' (d : Dev) (r : Nat) (ld : LDesc) (horizon : Rat) (l : Listen) : Dev × Listen :=
  let fuel := (4 * (horizon - ld.hyp l.hyp) / ld.chip).ceil.toNat + 2048
  Dev.decideGo fuel d r ld horizon l

/-- Samples that no later decision needs are let go. -/
def Listen.trim (l : Listen) (ld : LDesc) : Listen :=
  let least := fun (x : Rat) (p : Option Recep) => match p with | some p => min x p.bitStart | none => x
  let t := least (least (ld.hyp (l.hyp - 4)) l.cur) l.lane2
  { l with env := l.env.filter (fun p => decide (t ≤ p.1)) }

/-! ### SYMBOL_READ (R285, R290) -/

/-- The job after symbol `i`: while search runs, a hypothesis is decided once those within a chip of it can be compared; after
the job's last symbol search stops, and the job ends unless a reception is in progress. -/
def Dev.symbolDone (d : Dev) (r k i : Nat) (ld : LDesc) (l : Listen) : Dev :=
  let h : Rat := (ld.tm.start (i + 1) : Nat)
  let l := { l with sym := i + 1 }
  let past := decide (ld.tm.nsym ≠ 0) && (match ld.tm.nextActive (i + 1) with
    | some n => decide (ld.tm.nsym ≤ n)
    | none => true)
  let (d, l) := d.decide' r ld (if l.ended.isSome || past then h else h - ld.chip) l
  let l := if past && l.ended.isNone then { l with ended := some 0, endTime := d.now } else l
  match l.ended with
  | some s => if l.cur.isNone then d.listenEnd r k l s else d.setListen r k (some (l.trim ld))
  | none => d.setListen r k (some (l.trim ld))

/-- SYMBOL_READ: the next active symbol of the listen job in context `k`, when its read time has come; `fault` says that an
internal check fails (R285, R295). -/
def Dev.symbolRead (d : Dev) (r k : Nat) (fault : Bool) : Dev :=
  match d.listen r k with
  | none => d
  | some l =>
    let ld := parseListen l.bytes
    match ld.tm.nextActive l.sym with
    | none => d
    | some i =>
      if d.now < ld.tm.start (i + 1) + d.readLag r then d
      else if fault then d.listenEnd r k l 0x15
      else
        let runs := (List.range ld.nant).map (fun a =>
          (ld.inp + a * ld.sa + i % ld.nbuf * ld.ss + 4 * ld.k0, 4 * ld.m))
        match d.readMany (.wake (4 + r)) runs with
        | (d, _, some (0x11, x)) => (d.setReg64 (wbuRBase r + 0x38) x).listenEnd r k l 0x11
        | (d, _, some _) => (d.bump (wbrCnt r 7)).symbolDone r k i ld l
        | (d, bs, none) =>
          let ants := bs.map (fun b => (List.range ld.m).map (fun m =>
            (⟨(toSigned 16 (leAt b (4 * m) 2) : Int), (toSigned 16 (leAt b (4 * m + 2) 2) : Int)⟩ : CQ)))
          d.symbolDone r k i ld { l with env := l.env ++ envelope ld i ants }

end Sys2Proof.Machine
end

