-- ==== Sys2Proof/Machine/Units.lean ====
section
/-!
DEFINITION. Handover: which unit takes the next descriptor of a UNIT queue, and how (R307, R308, R310, R578).
-/
namespace Sys2Proof.Machine

/-- A unit, or one of its channels, that takes descriptors of UNIT queues. -/
inductive Taker where
  | launch (k : Nat)
  | engine (cls u : Nat)
  | receiver (r : Nat)
  | channel (m k : Nat)
  deriving DecidableEq, Repr

/-- Every taker, in the order of R308 and R310. -/
def takers : List Taker :=
  (List.range 64).map Taker.launch
    ++ (List.range 6).flatMap (fun c => (List.range (classSize c)).map (Taker.engine c))
    ++ (List.range 4).map Taker.receiver
    ++ (List.range 32).flatMap (fun m => (List.range 16).map (Taker.channel m))

/-- The taker names queue `q` and is ready to take an entry (R164, R195, R273, R274, R315, R387). -/
def Dev.takesFrom (d : Dev) (q : Nat) (t : Taker) : Bool :=
  match t with
  | .launch k =>
    d.fhnOn && (d.fhHead k).isNone && (match d.lq k with | some (n, _) => decide (n = q) | none => false)
  | .engine c u => decide (d.regN (engBase c u + 0x20) % 2 ^ 18 = q) && d.engReady c u
  | .receiver r => decide (d.regN (wbuRBase r + 0x20) % 2 ^ 18 = q) && d.wbrReady r
  | .channel m k => d.chanTakes m k q

/-- The descriptor checks of a class (step 5 of R578). -/
def classCheck (cls : Nat) (bs : List Byte) : Nat :=
  match cls with
  | 0 => beamCheck bs
  | 1 => fecCheck false bs
  | 2 => fecCheck true bs
  | 3 => codecCheck bs
  | 4 => xfuCheck bs
  | _ => wgCheck bs

/-- The taker gets a descriptor. -/
def Dev.giveTo (d : Dev) (t : Taker) (e : List Byte) : Dev :=
  match t with
  | .launch k => d.setHead k (some e)
  | .engine c u =>
    let (d, j) := d.readJob c u e (classCheck c)
    d.startJob c u j
  | .receiver r => d.listenTake r e
  | .channel m k => d.chanEntry m k e

/-- HANDOVER: the first ready taker that names the queue gets its next descriptor. -/
def Dev.handoverOne (d : Dev) (q : Nat) : Dev :=
  match takers.find? (d.takesFrom q) with
  | none => d
  | some t =>
    match d.takeEntry q with
    | (d, none) => d
    | (d, some (_, e)) => d.giveTo t e

end Sys2Proof.Machine
end

