-- ==== Sys2Proof/Machine/Gating.lean ====
section
/-!
DEFINITION. The gating controller: idle units, horizons, Nap and Doze (R460 to R469, R473).
-/
namespace Sys2Proof.Machine

/-- Units that may Nap or Doze by power index: an engine, mover or receiver index splits into class and number. -/
def unitCls (i : Nat) : Nat := (i - 256) / 32
def unitNum (i : Nat) : Nat := (i - 256) % 32

/-- Units of a class that the gating controller handles; class 9 is the burst receivers. -/
def gatedSize (cls : Nat) : Nat := if cls = 9 then 4 else classSize cls

/-- The index names a core, and a cluster, engine, mover or receiver. -/
def isCoreUnit (i : Nat) : Bool := decide (32 ≤ i) && decide (i < 224)
def isDozeUnit (i : Nat) : Bool := decide (i < 24) || (decide (256 ≤ i) && decide (unitCls i ≤ 9) && decide (unitNum i < gatedSize (unitCls i)))

/-! ### Idle units (R462) -/

/-- A core meets the Nap condition. -/
def Dev.coreIdle (d : Dev) (c : Nat) : Bool :=
  let k := d.core c
  k.released && !k.stopped && k.take.isSome && k.held.isNone && d.cxPend c = 0 && (d.dueLine c).isNone

/-- A queue holds an entry. -/
def Dev.queueBusy (d : Dev) (q : Nat) : Bool := (d.queue q).nonEmpty

/-- An engine, receiver or mover is idle. -/
def Dev.engineIdle (d : Dev) (cls u : Nat) : Bool :=
  if cls = 8 then
    (List.range 16).all (fun k =>
      let r := d.regN (bmvCh u k 0)
      ((d.chan u k).st = .idle || (d.chan u k).st = .paused)
        && !(!d.isSmildaChan u k && bit r 31 && d.queueBusy (r % 2 ^ 18)))
  else if cls = 9 then (d.listens u).isEmpty && !d.queueBusy (d.regN (wbuRBase u + 0x20) % 2 ^ 18)
  else if cls = 6 ∨ cls = 7 then
    let e := if cls = 6 then u else 8 + u
    (d.ceng e).run.isNone && d.stageOcc cls u = 0 && !d.queueBusy (d.par 0x70 2 e)
      && (List.range 64).all (fun p => (d.cphOldest p e).isNone)
  else
    let v := d.eng cls u
    v.run.isNone && v.held.isNone && v.ctx.isEmpty && d.stageOcc cls u = 0
      && !d.queueBusy (d.regN (engBase cls u + 0x20) % 2 ^ 18)

/-- The unit of an index is idle: for a core, the Nap condition; for a cluster, that of all eight cores. -/
def Dev.unitIdle (d : Dev) (i : Nat) : Bool :=
  if i < 24 then (List.range 8).all (fun j => d.coreIdle (8 * i + j))
  else if isCoreUnit i then d.coreIdle (i - 32)
  else d.engineIdle (unitCls i) (unitNum i)

/-! ### Targets, arrivals and margin (R63, R462, R463) -/

/-- Targets that a unit serves. -/
def Dev.unitTargets (d : Dev) (i : Nat) : List Target :=
  if i < 24 then (List.range 8).filterMap (fun j => (d.member (8 * i + j)).pool.map Target.pool)
  else if unitCls i = 8 then [.mover (unitNum i)]
  else if unitCls i < 8 then [.cls (unitCls i)]
  else []

/-- Targets of the nodes that a node's edges reach. -/
def Dev.reachedTargets (d : Dev) (s : Slot) (r : NodeRec) : List Target :=
  (r.edges.filter (fun e => e.valid)).filterMap (fun e =>
    match (d.fetchNode s e.dest).2 with
    | some x => if x.kind ≤ 2 then some x.tgt else none
    | none => none)

/-- The unfired external nodes of an instance, with their records. -/
def Dev.unfired (d : Dev) (s : Slot) : List NodeRec :=
  (List.range (s.lastNode + 1)).filterMap (fun n =>
    if s.fired.contains n then none
    else match (d.fetchNode s n).2 with
      | some r => if r.kind = 4 then some r else none
      | none => none)

/-- Arrivals that an instance expects: the instants with the targets they reach (R63). -/
def Dev.arrivalsOf (d : Dev) (i : Nat) (s : Slot) : List (Int × List Target) :=
  let ext := (d.unfired s).filter (fun r => decide (r.param64 ≠ 2 ^ 64 - 1))
  let ts := d.smd.timers.filter (fun t => t.inst = i && t.gen = s.gen)
  ext.map (fun r => ((s.anchor : Int) + toSigned 64 r.param64, d.reachedTargets s r))
    ++ ts.map (fun t => (t.fire, d.reachedTargets s t.nrec))

/-- The live instances. -/
def Dev.liveSlots (d : Dev) : List (Nat × Slot) := d.smd.slots.filter (fun e => decide (e.2.phase = .live))

/-- The earliest expected arrival for any of some targets; none where none is stated. -/
def Dev.nextArrival (d : Dev) (ts : List Target) : Option Int :=
  ((d.liveSlots.flatMap (fun e => d.arrivalsOf e.1 e.2)).filter (fun a => a.2.any (fun t => ts.contains t))).foldl
    (fun (m : Option Int) a => match m with | none => some a.1 | some x => some (min x a.1)) none

/-- The Doze horizon of the current mode, in ns (R462). -/
def Dev.dozeHorizon (d : Dev) : Int := ((1000 * (if d.pwr.mode = 5 then d.par 0x10 0x12 0 else d.par 0x10 0x11 0) : Nat) : Int)

/-- A unit's horizon reaches the Doze horizon; in Standby every unit's does (R455). -/
def Dev.farEnough (d : Dev) (i : Nat) : Bool :=
  d.pwr.mode = 3 || (match d.nextArrival (d.unitTargets i) with
    | none => true
    | some t => decide (d.dozeHorizon ≤ t - (d.now : Int)))

/-- Targets that R463 keeps awake: of ready nodes, unfired external nodes and timers in instances below the bound. -/
def Dev.marginTargets (d : Dev) : List Target :=
  let near := d.liveSlots.filter (fun e =>
    decide (e.2.deadline ≠ noDeadline) && decide (marginOf e.2.deadline d.now < d.marginBound))
  near.flatMap (fun e =>
    (d.smd.ready.filter (fun r => r.inst = e.1 && r.gen = e.2.gen)).map (fun r => r.target)
      ++ (d.unfired e.2).flatMap (fun r => d.reachedTargets e.2 r)
      ++ (d.smd.timers.filter (fun t => t.inst = e.1 && t.gen = e.2.gen)).flatMap (fun t => d.reachedTargets e.2 t.nrec))

/-! ### Which units stay awake (R462) -/

/-- A unit is awake: Active or Nap, and not entering Doze. -/
def Dev.awake (d : Dev) (i : Nat) : Bool :=
  (d.power i = .active || d.power i = .nap) && (d.entryOf i).isNone

/-- The other units of a unit's group, and how many must stay awake. -/
def Dev.groupsOf (d : Dev) (i : Nat) : List (List Nat × Nat) :=
  if i < 24 then
    (d.unitTargets i).map (fun t =>
      match t with
      | .pool p => ((d.poolCores p).map (fun c => c / 8), d.par 0x10 0x13 p)
      | _ => ([], 0))
  else if unitCls i = 8 then [((List.range 32).map (fun u => pwrEng 8 u), d.par 0x10 0x13 40)]
  else if unitCls i < 8 then
    [((List.range (classSize (unitCls i))).map (fun u => pwrEng (unitCls i) u), d.par 0x10 0x13 (32 + unitCls i))]
  else []

/-- Enough other units stay awake, and no higher-numbered idle unit of a group should doze first; in Standby every unit may
doze (R455, R462). -/
def Dev.mayDoze (d : Dev) (i : Nat) : Bool :=
  d.pwr.mode = 3 || (d.groupsOf i).all (fun g =>
    decide (g.2 ≤ (g.1.filter (fun j => decide (j ≠ i) && d.awake j)).length)
      && !g.1.any (fun j => decide (i < j) && d.awake j && d.unitIdle j && d.farEnough j))

/-! ### Nap (R460, R462, R464, R467) -/

/-- Per-symbol gating runs in the Service modes. -/
def Dev.gating (d : Dev) : Bool := d.pwr.mode = 4 || d.pwr.mode = 5

/-- NAP: a unit idle for `idle` ns enters Nap. -/
def Dev.napUnit (d : Dev) (i idle : Nat) : Dev :=
  if d.gating && (isCoreUnit i || (isDozeUnit i && decide (24 ≤ i))) && d.power i = .active && d.unitIdle i
      && decide (d.par 0x10 0x10 0 ≤ idle) then (d.setPower i .nap).bump (pwrBase + 0x400)
  else d

/-- NAP_WAKE: a napping unit that is no longer idle wakes; after a dispatch to a core it no longer waits in TAKE. -/
def Dev.napWake (d : Dev) (i : Nat) : Dev := if d.power i = .nap && !d.unitIdle i then d.setPower i .active else d

/-! ### Doze (R465, R466, R473) -/

/-- A wake request names one of a unit's targets. -/
def Dev.wakeAsked (d : Dev) (i : Nat) : Bool := (d.unitTargets i).any (fun t => d.smd.wakeReqs.contains t)

/-- Gander answers the wake requests for a unit's targets. -/
def Dev.answerWakes (d : Dev) (i : Nat) : Dev :=
  let ts := d.unitTargets i
  { d with smd := { d.smd with wakeReqs := d.smd.wakeReqs.filter (fun t => !ts.contains t) } }

/-- What an abort point finds against an entry: outcome and code of R473; none where it may go on. -/
def Dev.dozeCheck (d : Dev) (i : Nat) : Option (Nat × Nat) :=
  if d.wakeAsked i then some (2, 21)
  else if d.marginHold && d.gating then some (1, 9)
  else if i < 24 && (List.range 8).any (fun j => (d.dueLine (8 * i + j)).isSome) then some (1, 7)
  else if !d.unitIdle i then some (1, 6)
  else none

/-- Gander decides Doze for a unit. -/
def Dev.dozeDecides (d : Dev) (i : Nat) : Bool :=
  isDozeUnit i && (d.gating || d.pwr.mode = 3) && (d.power i = .active || d.power i = .nap)
    && (d.dozeCheck i).isNone && d.farEnough i && d.mayDoze i

/-- DOZE_ENTRY: Gander's decision and abort point A1, then one abort point after another, then Doze itself. -/
def Dev.dozeEntry (d : Dev) (i : Nat) : Dev :=
  match d.entryOf i with
  | none =>
    if d.dozeDecides i then
      { d with pwr := { d.pwr with entering := d.pwr.entering ++ [{ unit := i, passed := 1, before := d.power i }] } }
    else d
  | some e =>
    if 4 ≤ e.passed then
      let d := d.dozeDone i
      if e.wake then d.undoze i else d
    else
      match d.dozeCheck i with
      | some (outcome, code) => (if code = 21 then d.answerWakes i else d).dozeUndo e outcome code
      | none =>
        let next := fun x : DozeEntry => if x.unit = i then { x with passed := x.passed + 1 } else x
        let d := { d with pwr := { d.pwr with entering := d.pwr.entering.map next } }
        if e.passed = 1 && decide (24 ≤ i) then d.setPower i .nap else d

/-- A dozing unit's arrival is near: the earliest expected arrival minus 2 µs and WAKE_GUARD has come (R464). -/
def Dev.arrivalNear (d : Dev) (i : Nat) : Bool :=
  match d.nextArrival (d.unitTargets i) with
  | some t => decide (t - 2000 - ((d.par 0x10 0x16 0 : Nat) : Int) ≤ (d.now : Int))
  | none => false

/-- DOZE_WAKE: Gander wakes a dozing unit for a wake request, a near arrival, R463, or work that has reached it; for a unit
past A4 the wake begins once Doze is reached (R463 to R465). -/
def Dev.dozeWake (d : Dev) (i : Nat) : Dev :=
  let asked := d.wakeAsked i
  let margin := d.gating && (d.unitTargets i).any (fun t => d.marginTargets.contains t)
  let due := asked || margin || d.arrivalNear i || (decide (256 ≤ i) && !d.unitIdle i)
  if !isDozeUnit i || !due then d
  else
    match d.entryOf i with
    | some e => if e.passed = 4 then (d.answerWakes i).wakeLater i else d
    | none =>
      if d.power i = .doze then
        let d := if margin && !asked then d.bump (pwrBase + 0x420) else d
        (d.answerWakes i).undoze i
      else d

end Sys2Proof.Machine
end

