-- ==== Sys2Proof/Machine/Modes.lean ====
section
/-!
DEFINITION. Operating modes: requests, Service entry and exit, Dormant, Maintenance, automatic Lean, sensors and regulators
(R455 to R459, R470 to R477, R481, R482, R489, R490).
-/
namespace Sys2Proof.Machine

/-! ### Mode changes (R457, R473, R479) -/

/-- The mode changes: the entry record, MODE_CHANGE and the NOTIFY; TDD_CTL follows the new mode. -/
def Dev.setMode (d : Dev) (m : Nat) : Dev :=
  let d := { d with pwr := { d.pwr with mode := m } }
  let d := ((d.entryRec 0 m 0 0).pwrInt 0).notify ⟨1, 2, 0, 7, leBytes 2 m⟩
  d.tddRefresh

/-- A transition is under way (R456). -/
def Dev.inTransition (d : Dev) : Bool := d.modeTarget.isSome || d.cal.trimRun.isSome

/-- A requested transition exists (R456). -/
def modePair (src dst : Nat) : Bool :=
  (src = 3 && (dst = 2 || dst = 4 || dst = 5 || dst = 6)) || (src = 4 && (dst = 3 || dst = 5))
    || (src = 5 && (dst = 3 || dst = 4)) || (src = 6 && dst = 3)

/-- Why a mode request is refused: a status of R507, 0 where it is accepted (R456, R516). -/
def Dev.modeRefusal (d : Dev) (t : Nat) : Nat :=
  if t < 2 ∨ 6 < t then 5
  else if d.inTransition then 0x21
  else if !modePair d.pwr.mode t then 0x20
  else if (t = 4 || t = 5) && d.pwr.mode = 3 && d.sup.slot.isNone then 0x32
  else 0

/-- VDD_CORE takes the target of a Service mode's clocks (R475). -/
def Dev.setVcore (d : Dev) (lean : Bool) : Dev :=
  let v := 600 + 5 * (Config.vcoreSteps lean d.fresh).val
  { d.used with pwr := { d.pwr with vcore := v, vread := v } }

/-! ### Service (R457 to R459) -/

/-- Fronthaul ports: powered where `on` says so (R374). -/
def Dev.powerPorts (d : Dev) (on : Nat → Bool) : Dev :=
  (List.range 8).foldl (fun (d : Dev) p => if (d.port p).off = on p then d.portPower p (on p) else d) d

/-- Only the Standby port is powered (R374, R457). -/
def Dev.standbyPorts (d : Dev) : Dev := d.powerPorts (fun p => decide (p = d.par 0x30 1 0))

/-- Units rest in Doze outside the Service modes: those that are idle, and clusters whose cores are idle or in reset (R455). -/
def Dev.restUnits (d : Dev) : Dev :=
  let idle := fun (d : Dev) (i : Nat) =>
    if i < 24 then (List.range 8).all (fun j => !(d.core (8 * i + j)).released || (d.core (8 * i + j)).stopped || d.coreIdle (8 * i + j))
    else d.unitIdle i
  ((List.range 24) ++ allUnits.map (fun p => pwrEng p.1 p.2)).foldl (fun (d : Dev) i =>
    if (d.power i = .active || d.power i = .nap) && (d.entryOf i).isNone && idle d i then d.setPower i .doze else d) d

/-- What Supervisor applies on entry to Standby (R427, R563, R567). -/
def Dev.standbyApply (d : Dev) : Dev := (d.applyTime.applyPins).standbyPorts

/-- Entry to a Service mode from Standby: units on, the profile's registers, cores, pools, ports, queues, the ENABLE bits,
Smilda's last (R457). -/
def Dev.enterService (d : Dev) (t : Nat) : Dev :=
  let d := (d.applyMem.unusedOff).usedOn
  let d := ((d.applyTime).applySmilda).applyUnits false
  let d := d.releaseCores.powerPorts (fun p => decide (d.portMode p ≠ 0))
  let d := (d.loadQueues.applyUnits true).setVcore (t = 4)
  ((d.setMode t).smdEnable).calRefresh

/-- Between the Service modes; no work stops (R458, R459). -/
def Dev.switchService (d : Dev) (t : Nat) : Dev := (d.setVcore (t = 4)).setMode t

/-- PAUSED channels of every mover are aborted (R457). -/
def Dev.abortPaused (d : Dev) : Dev :=
  (List.range 32).foldl (fun (d : Dev) m =>
    (List.range 16).foldl (fun (d : Dev) k => if (d.chan m k).st = .paused then d.chanAbort m k true else d) d) d

/-- SMD_STATUS.RUNNING (R75). -/
def Dev.smdRunning (d : Dev) : Bool := bit (d.regN (smdBase + 4)) 0 || decide (0 < d.liveCount)

/-- The start of leaving a Service mode: Smilda off, PAUSED channels aborted (R457). -/
def Dev.leaveStart (d : Dev) : Dev :=
  let d := d.smdDisable.abortPaused
  { d with pwr := { d.pwr with leaving := true, quietFrom := none } }

/-- ENABLE bits of every engine, mover and the fronthaul are cleared (R457). -/
def Dev.disableUnits (d : Dev) : Dev :=
  (allUnits.foldl (fun (d : Dev) p =>
    if p.1 = 6 ∨ p.1 = 7 then d else d.setRegN (ctrlAddr p.1 p.2) 0) d).fhnEnable false

/-- The end of leaving a Service mode, once RUNNING reads 0 (R457, R469). -/
def Dev.leaveEnd (d : Dev) : Dev :=
  if !d.pwr.leaving || d.smdRunning then d
  else
    let d := d.disableUnits
    let d := { d with pwr := { d.pwr with leaving := false } }
    ((d.standbyApply.restUnits).setMode 3).calRefresh

/-- LEAVE_SERVICE: the request begins the exit, and the exit ends when Smilda has stopped. -/
def Dev.leaveService (d : Dev) : Dev :=
  if d.pwr.mode ≠ 4 ∧ d.pwr.mode ≠ 5 then d
  else if d.pwr.leaving then d.leaveEnd
  else d.leaveStart.leaveEnd

/-- AUTO_LEAN: busy and all cycles of the last 10 ms against the thresholds; a DEADLINE cancellation moves Lean to Full at
once (R459). -/
def Dev.autoLean (d : Dev) (busy all : Nat) : Dev :=
  if d.par 0x10 2 0 = 0 || d.inTransition then d
  else
    let hit := d.pwr.deadlineHit
    let d := { d with pwr := { d.pwr with deadlineHit := false } }
    if d.pwr.mode = 4 then
      if hit || decide (d.par 0x10 3 0 * all < 100 * busy) then d.switchService 5 else d
    else if d.pwr.mode = 5 then
      if 100 * busy < d.par 0x10 4 0 * all then
        match d.pwr.quietFrom with
        | none => { d with pwr := { d.pwr with quietFrom := some d.time.raw } }
        | some r =>
          if 10 ^ 6 * d.par 0x10 5 0 ≤ d.nsSince r then
            ({ d with pwr := { d.pwr with quietFrom := none } }).switchService 4
          else d
      else { d with pwr := { d.pwr with quietFrom := none } }
    else d

/-! ### Maintenance (R445, R456, R488, R489) -/

/-- Standby to Maintenance: key slots zeroised, fronthaul off. -/
def Dev.enterMaint (d : Dev) : Dev := (((d.zeroiseAll).powerPorts (fun _ => false)).setMode 6).calRefresh

/-- Maintenance to Standby. -/
def Dev.leaveMaint (d : Dev) : Dev := ((d.standbyApply.restUnits).setMode 3).calRefresh

/-- P 0x11.0001: a status, and the trims at once in Maintenance, or a run through Maintenance from Standby (R489). -/
def Dev.trimRequest (d : Dev) (mask : Nat) : Dev × Nat :=
  if d.cal.trimRun.isSome then (d, 0x21)
  else if d.pwr.mode = 6 then (d.runTrims (mask % 64), 0)
  else if d.pwr.mode ≠ 3 then (d, 0x20)
  else if d.inTransition then (d, 0x21)
  else
    let d := d.enterMaint
    ({ d with cal := { d.cal with trimRun := some (mask % 64) } }, 0)

/-- LEAVE_MAINTENANCE: a mode request, or the end of a trim run that was started from Standby. -/
def Dev.maintEnd (d : Dev) : Dev :=
  if d.pwr.mode ≠ 6 then d
  else
    match d.cal.trimRun with
    | none => d.leaveMaint
    | some mask =>
      let d := d.runTrims mask
      ({ d with cal := { d.cal with trimRun := none } }).leaveMaint

/-! ### Dormant (R470 to R474) -/

/-- What refuses Dormant: a code of R473 (R473, R493). -/
def Dev.dormRefuser (d : Dev) : Option Nat :=
  if d.upd.owner ≠ 0 then some 1
  else if d.cal.targets.any (fun t => t.2.running) then some 2
  else if d.mem.fillBusy then some 3
  else if d.q.queues.any (fun e => e.2.enabled && (e.2.ckind = 0 || e.2.ckind = 2) && e.2.nonEmpty) then some 4
  else if (List.range 12).any (fun e => (d.ceng e).run.isSome || d.queueBusy (d.par 0x70 2 e))
      || (List.range 64).any (fun u => !(d.cpage u).fifo.isEmpty) then some 5
  else none

/-- The PCIe link comes up where PCIE_PERST_N and the mode permit it (R470, R509, R573). -/
def Dev.linkTry (d : Dev) : Dev :=
  let ok := !d.sup.perst && (d.pwr.mode = 1 || decide (3 ≤ d.pwr.mode)) && !d.pwr.thermTrip
  { d with sup := { d.sup with linkUp := ok } }

/-- A Dormant entry ends without Dormant: back to Standby as if none had begun, with the record of who refused (outcome 1)
or which source aborted (outcome 2). -/
def Dev.dormUndo (d : Dev) (outcome code : Nat) : Dev :=
  let d := { d with pwr := { d.pwr with dormStep := none } }
  ((d.linkTry.standbyPorts).entryRefused outcome 2 0 code).pwrInt 1

/-- Supervisor adds the counters of everything that VDD_CORE powers to area 0x90 (R461). -/
def Dev.saveAll (d : Dev) : Dev :=
  (List.range 3328).foldl (fun (d : Dev) i =>
    if (0x60 ≤ i ∧ i < 0x69) ∨ (0x80 ≤ i ∧ i < 0xC7) ∨ (0xE0 ≤ i ∧ i < 0xE6) then d else d.saveCounter i) d

/-- Register windows whose registers outlive VDD_CORE: time unit, memory controllers, power and mailbox (assumption log 40). -/
def keptInDormant (a : Nat) : Bool :=
  (decide (tmuBase ≤ a) && decide (a < tmuBase + 0x300000)) || decide (supBase ≤ a)

/-- VDD_CORE is switched off: units lose what they do not retain (R455, R470, assumption log 40). -/
def Dev.coreDown (d : Dev) : Dev :=
  let d := (List.range 24).foldl (fun (d : Dev) k => d.clusterOff k) d
  let d := allUnits.foldl (fun (d : Dev) p => d.unitOff p.1 p.2) d
  let d := d.saveAll
  { d with
    regs := d.regs.filter (fun e => keptInDormant e.1), q := {}, smd := {}, cph := {}, wbr := [], movers := [], engs := []
    fhn := { ports := (List.range 9).map (fun p => (p, { off := true })) }
    obs := { d.obs with fifo := [], traced := 0, lost := 0, full := false, snap := [], snapTime := 0 }
    mem := { d.mem with comb := [], clc := [], srcBuf := [], filter := [] }
    pins := { d.pins with b1 := false, tddOn := false, gpioOn := false } }

/-- Abort point A4, the commit, and Dormant: key slots zeroised, sessions closed, the rails off (R470, R504, R513). -/
def Dev.dormCommit (d : Dev) : Dev :=
  let d := d.zeroiseAll
  let d := { d with sup := { d.sup with
    sessions := [], ready := false, respValid := false, mb := { d.sup.mb with blob := none } } }
  let d := d.coreDown
  let d := { d with pwr := { d.pwr with
    dormStep := none, wakeSrc := none, refGone := false, sleepRtc := d.time.rtc, entering := [] } }
  d.setMode 2

/-- One abort point of Dormant entry after another, with what its step does. -/
def Dev.dormNext (d : Dev) (step : Nat) : Dev :=
  let past := fun (d : Dev) (n : Nat) => { d with pwr := { d.pwr with dormStep := some n } }
  match d.dormRefuser with
  | some c => d.dormUndo 1 c
  | none =>
    match step with
    | 1 =>
      let d := d.powerPorts (fun _ => false)
      past { d with sup := { d.sup with linkUp := false } } 2
    | 2 => past (d.writeBack.saveSignatures) 3
    | _ => d.dormCommit

/-- A request for Dormant: refusal checks at A1, a status of R507 (R470, R473). -/
def Dev.dormRequest (d : Dev) : Dev × Nat :=
  match d.dormRefuser with
  | some c => ((d.entryRefused 1 2 0 c).pwrInt 1, 0x0B)
  | none => ({ d with pwr := { d.pwr with dormStep := some 1 } }, 0)

/-- A wake source is enabled (R471). -/
def Dev.wakeEnabled (d : Dev) (code : Nat) : Bool := bit (d.par 0x10 0x40 0) (code - 1)

/-- A wake source becomes active: it aborts an entry before A4, or wakes the device from Dormant; the earliest one counts. -/
def Dev.wakeSource (d : Dev) (code : Nat) : Dev :=
  if !d.wakeEnabled code then d
  else if d.pwr.dormStep.isSome then d.dormUndo 2 (15 + code)
  else if d.pwr.mode = 2 && d.pwr.wakeSrc.isNone then { d with pwr := { d.pwr with wakeSrc := some code } }
  else d

/-- RTC_ALARM: TMU_RTC has reached the alarm (R471); only Dormant and its entry watch it. -/
def Dev.rtcAlarm (d : Dev) : Dev := if d.par 0x10 0x41 0 ≤ d.time.rtc then d.wakeSource 2 else d

/-- The wake record (R474). -/
def Dev.wakeRecord (d : Dev) (src : Nat) : Dev :=
  let mask := d.regN (memBase + 0x5C) % 65536
  let flags := b2n d.pwr.refGone + 2 * b2n d.mem.ddrKept + 4 * b2n (decide (mask ≠ 0))
  let slept := (d.time.rtc + 2 ^ 48 - d.pwr.sleepRtc) % 2 ^ 48
  d.setRegBytes (pwrBase + 0x110)
    (leBytes 1 src ++ leBytes 1 flags ++ leBytes 2 mask ++ zeros 4 ++ leBytes 8 slept ++ leBytes 8 d.now ++ zeros 8)

/-- A Dormant wake whose regulators answer and whose DDR5 was kept: walks, reloads, interfaces, the record (R362, R472,
R474). -/
def Dev.dormWake (d : Dev) (src : Nat) : Dev :=
  let d := { d with mem := { d.mem with ddrKept := true }, pwr := { d.pwr with wakeSrc := none, wakeLow := true } }
  let d := (d.wakePool).usedOn
  let d := (List.range 192).foldl (fun (d : Dev) c => if d.heldOff (c / 8) then d else d.loadCore c) d
  let d := ((d.applyUnits false).loadQueues).applyObs
  let d := { d with sup := { d.sup with ready := true }, pins := { d.pins with b1 := true } }
  let d := d.portPower 8 true
  let d := ((d.standbyApply.restUnits).setMode 3).linkTry
  let d := (d.wakeRecord src).pwrInt 4
  let d := d.calRefresh
  (List.range 37).foldl (fun (d : Dev) k => d.calTrigger k) d

/-! ### Regulators (R475, R476) -/

/-- A regulator fault of a rail: REG_FAULT, and a fatal error in the running modes. -/
def Dev.regFault (d : Dev) (rail : Nat) : Dev :=
  let d := d.pwrInt 2
  if 3 ≤ d.pwr.mode ∧ d.pwr.mode ≤ 6 then d.raiseFatal 0x84 15 2 rail else d

/-- PMBUS_TELEMETRY: rails that did not answer three times, or that show a fault bit; a rail without an address is not
polled (R476). -/
def Dev.pmbusPoll (d : Dev) (bad : Nat) : Dev :=
  match (List.range 8).find? (fun r => bit bad r && decide (d.par 0x10 0x20 r ≠ 0)) with
  | some r => d.regFault r
  | none => d

/-- AVS_READBACK: a read-back more than 25 mV from the target is a regulator fault (R475). -/
def Dev.avsReadback (d : Dev) (mv : Nat) : Dev :=
  let d := { d with pwr := { d.pwr with vread := mv } }
  if 25 < ((mv : Int) - (d.pwr.vcore : Int)).natAbs then d.regFault 0 else d

/-! ### Sensors and monitors (R471, R477, R481, R482, R490) -/

/-- The domain of a sensor is on: a cluster's or engines' sensor is off with all of them (R481). -/
def Dev.sensorOn (d : Dev) (n : Nat) : Bool :=
  let any := fun (cls : Nat) (us : List Nat) => us.any (fun u => decide (d.power (pwrEng cls u) ≠ .off))
  if n < 24 then decide (d.power n ≠ .off)
  else if n < 30 then any 0 [2 * (n - 24), 2 * (n - 24) + 1]
  else if n < 34 then any 1 [3 * (n - 30), 3 * (n - 30) + 1, 3 * (n - 30) + 2]
  else if n = 34 then any 2 [0, 1, 2, 3] || any 3 [0]
  else if n = 35 then any 4 [0, 1, 2, 3]
  else if n = 36 then any 4 [4, 5, 6, 7]
  else if n = 37 then any 5 [0, 1, 2, 3] || any 9 [0, 1, 2, 3] || any 6 (List.range 8) || any 7 (List.range 4)
  else true

/-- A sensor is read: out of range or unpowered is invalid, and the transition is counted. -/
def Dev.readSensor (d : Dev) (n : Nat) (v : Int) (on : Bool) : Dev :=
  let new := if on && decide (-440 ≤ v) && decide (v ≤ 1400) then some v else none
  let d := if (d.sensor n).isSome && new.isNone then d.calCount 6 1 else d
  { d with cal := { d.cal with sensors := Tab.put (fun _ => none) d.cal.sensors n new } }

/-- The hottest valid reading, with its sensor (R477). -/
def Dev.hottest (d : Dev) : Option (Nat × Int) :=
  (List.range 64).foldl (fun (m : Option (Nat × Int)) n =>
    match d.sensor n, m with
    | none, m => m
    | some x, none => some (n, x)
    | some x, some (k, y) => if y < x then some (n, x) else some (k, y)) none

/-- Recommended range of a monitor, mV (R482, R554). -/
def Dev.voltRange (d : Dev) (n : Nat) : Nat × Nat :=
  if n < 8 then (d.pwr.vcore - 25, d.pwr.vcore + 25)
  else if n < 11 ∨ n = 13 then (728, 772)
  else if n < 13 then (1067, 1133)
  else (1164, 1236)

/-- A monitor is read; outside its range it is counted and recorded. -/
def Dev.readVolt (d : Dev) (n mv : Nat) : Dev :=
  let d := { d with cal := { d.cal with volts := Tab.put (fun _ => 0) d.cal.volts n mv } }
  let r := d.voltRange n
  if mv < r.1 ∨ r.2 < mv then (d.calCount 5 1).fault 6 1 15 4 (n + 65536 * mv) else d

/-- THERM_TRIP: everything outside the always-on domain stops, in Fault Hold without a dump (R477). -/
def Dev.thermTrips (d : Dev) : Dev :=
  let d := d.zeroiseAll
  let d := { d with
    pwr := { d.pwr with thermTrip := true, dormStep := none, leaving := false, entering := [] }
    sup := { d.sup with ready := false, linkUp := false } }
  d.setMode 7

/-- The hottest reading is acted on. -/
def Dev.thermal (d : Dev) : Dev :=
  match d.hottest with
  | none => d
  | some (n, x) =>
    if 1216 ≤ x then d.thermTrips
    else if ((8 * d.par 0x10 0x30 0 : Nat) : Int) < x then
      let d := if d.pwr.thermWarn then d else d.fault 8 0 15 4 n
      let d := ({ d with pwr := { d.pwr with thermWarn := true } }).pwrInt 3
      if d.pwr.mode = 5 && !d.inTransition && d.par 0x10 0x32 0 = 1 then d.switchService 4 else d
    else { d with pwr := { d.pwr with thermWarn := false } }

/-- SENSOR_READ: readings in 1/8 °C and mV; in Dormant only sensor 59 is read, for the thermal wake. -/
def Dev.sensorRead (d : Dev) (temps : List Int) (volts : List Nat) : Dev :=
  if d.pwr.mode = 0 || d.pwr.thermTrip then d
  else if d.pwr.mode = 2 then
    let x := temps.getD 59 (-1000)
    let d := (List.range 64).foldl (fun (d : Dev) n => d.readSensor n (temps.getD n (-1000)) (n = 59)) d
    if ((8 * d.par 0x10 0x31 0 : Nat) : Int) < x ∧ x ≤ 1400 then d.wakeSource 5 else d
  else
    let d := (List.range 64).foldl (fun (d : Dev) n => d.readSensor n (temps.getD n (-1000)) (d.sensorOn n)) d
    let d := volts.zipIdx.foldl (fun (d : Dev) p => if p.2 < 16 then d.readVolt p.2 p.1 else d) d
    let d := d.thermal
    if d.pwr.thermTrip then d
    else
      let d := (List.range 37).foldl (fun (d : Dev) k => d.calDrift k) d.calRefresh
      (List.range 7).foldl (fun (d : Dev) n => d.trimDrift n) d

/-! ### Requests (R456, R457) -/

/-- A mode request from outside: a status of R507, and the transition or its beginning. `src` is the wake source that the
request is while Dormant entry is under way. -/
def Dev.modeRequest (d : Dev) (t : Nat) (src : Nat) : Dev × Nat :=
  let r := d.modeRefusal t
  if r = 0x21 && d.pwr.dormStep.isSome then
    let early := match d.pwr.dormStep with | some n => decide (n < 2) | none => false
    (if src = 3 || early then d.wakeSource src else d, r)
  else if r ≠ 0 then (if r = 0x20 || r = 0x21 then d.pwrInt 1 else d, r)
  else
    match t with
    | 2 => d.dormRequest
    | 3 => if d.pwr.mode = 6 then (d.maintEnd, 0) else (d.leaveService, 0)
    | 6 => (d.enterMaint, 0)
    | _ => (if d.pwr.mode = 3 then d.enterService t else d.switchService t, 0)

end Sys2Proof.Machine
end

