-- ==== Sys2Proof/Machine/Vault.lean ====
section
/-!
DEFINITION. What outlives every reset: the boot control block, flash images, configuration banks, OTP (R519 to R525).
-/
namespace Sys2Proof.Machine

/-- The content of a boot control block but for its CRC; 0xFF in a TRIAL field is none (R520). -/
structure Bcb where
  seq       : Nat := 0
  flash     : Nat := 0
  supActive : Nat := 0
  supTrial  : Nat := 0xFF
  sigActive : Nat := 0
  sigTrial  : Nat := 0xFF
  cfgActive : Nat := 0
  cfgTrial  : Nat := 0xFF
  boots     : Nat := 0
  failed    : Bool := false
  mule      : Bool := false
  tries     : Nat := 0
  slots     : List Nat := [0, 0, 0, 0, 0, 0, 0]
  schedTarget : Nat := 0
  schedTime : List (BitVec 8) := zeros 10
  result    : List (BitVec 8) := zeros 32
  key       : List (BitVec 8) := zeros 60
  deriving DecidableEq, Repr

/-- An OTP entry of the integrator root; a hash without VALID is an entry whose programming was interrupted (R523, R524). -/
structure OtpEntry where
  hash  : Option (List (BitVec 8)) := none
  valid : Bool := false
  deriving DecidableEq, Repr

/-- Flash and OTP. Image regions: 1 Stage-1, 2 Gander, 3 and 4 Supervisor A and B, 5 and 6 signal bundle A and B, 7 Mule
staging. -/
structure Vault where
  bcb0   : Option Bcb := none        -- none: the copy's CRC is invalid
  bcb1   : Option Bcb := none
  images : Tab (List (BitVec 8)) := []
  otp    : List OtpEntry := [{}, {}, {}, {}]
  svn    : List Nat := [0, 0, 0, 0]  -- OTP minimum of classes 1 to 4
  banks  : Tab (Tab (List (BitVec 8))) := []   -- PERSIST values by configuration bank
  fmts   : Tab Nat := []             -- CFG_FORMAT by bank
  profiles : Tab (List (BitVec 8)) := []       -- profile copies: 8 × bank + 2 × slot + copy
  profUse  : Tab Nat := []           -- copy in use: 4 × bank + slot
  begun  : Nat := 0                  -- target of a download that has not been finished
  chal   : Nat := 0                  -- challenges issued (R504)
  dump   : List (BitVec 8) := []     -- fault-dump copy
  deriving DecidableEq, Repr

/-- The device without its command queue: its volatile and its lasting part. -/
structure Sys where
  dev   : Dev := {}
  vault : Vault := {}
  deriving DecidableEq, Repr

/-! ### The boot control block (R520, R521) -/

/-- The governing copy. -/
def Vault.bcb? (v : Vault) : Option Bcb :=
  match v.bcb0, v.bcb1 with
  | none, b => b
  | some a, none => some a
  | some a, some b => if a.seq < b.seq then some b else some a

/-- The governing BCB, or a fresh one where no copy is valid. -/
def Vault.bcb (v : Vault) : Bcb := v.bcb?.getD {}

/-- The BCB is changed by writing the other copy with SEQ + 1. -/
def Vault.putBcb (v : Vault) (b : Bcb) : Vault :=
  let b := { b with seq := v.bcb.seq + 1 }
  match v.bcb0, v.bcb1 with
  | none, _ => { v with bcb0 := some b }
  | some _, none => { v with bcb1 := some b }
  | some x, some y => if x.seq < y.seq then { v with bcb0 := some b } else { v with bcb1 := some b }

/-- SLOTSTATE of a region. -/
def Bcb.slot (b : Bcb) (r : Nat) : Nat := b.slots.getD (r - 1) 0
def Bcb.setSlot (b : Bcb) (r st : Nat) : Bcb := { b with slots := b.slots.set (r - 1) st }
def Vault.markSlot (v : Vault) (r st : Nat) : Vault := v.putBcb (v.bcb.setSlot r st)

/-- Image of a region, and its replacement. -/
def Vault.image (v : Vault) (r : Nat) : List Byte := Tab.get (fun _ => []) v.images r
def Vault.setImage (v : Vault) (r : Nat) (bs : List Byte) : Vault :=
  { v with images := Tab.put (fun _ => []) v.images r bs }

/-- Bytes of a region (R519). -/
def regionSize (r : Nat) : Nat :=
  match r with
  | 1 => 2 ^ 20 | 2 => 2 ^ 19 | 3 => 12 * 2 ^ 20 | 4 => 12 * 2 ^ 20 | 5 => 32 * 2 ^ 20 | 6 => 32 * 2 ^ 20 | _ => 2 * 2 ^ 20

/-! ### Configuration banks (R498, R519, R531) -/

/-- The bank that serves PERSIST values and profiles: the trial bank while a trial is set. -/
def Bcb.bank (b : Bcb) : Nat := if b.cfgTrial = 0xFF then b.cfgActive else b.cfgTrial

/-- PERSIST values of a bank. -/
def Vault.persist (v : Vault) (bank : Nat) : Tab (List Byte) := Tab.get (fun _ => []) v.banks bank
def Vault.setPersist (v : Vault) (bank : Nat) (t : Tab (List Byte)) : Vault :=
  { v with banks := Tab.put (fun _ => []) v.banks bank t }

/-- CFG_FORMAT of a bank. -/
def Vault.fmt (v : Vault) (bank : Nat) : Nat := Tab.get (fun _ => 0) v.fmts bank

/-- A PERSIST value is stored. -/
def Vault.store (v : Vault) (key : Nat) (val : List Byte) : Vault :=
  let b := v.bcb.bank
  v.setPersist b (Tab.put paramDefault (v.persist b) key val)

/-- Copy of a profile slot in use, in the bank in force, and the other copy's place. -/
def Vault.profCopy (v : Vault) (bank n : Nat) : Nat := Tab.get (fun _ => 0) v.profUse (4 * bank + n) % 2
def Vault.profKey (v : Vault) (bank n : Nat) (other : Bool) : Nat :=
  8 * bank + 2 * n + (if other then 1 - v.profCopy bank n else v.profCopy bank n)

/-- A profile image in use. -/
def Vault.profile (v : Vault) (n : Nat) : List Byte := Tab.get (fun _ => []) v.profiles (v.profKey v.bcb.bank n false)

/-- The bank of an update's profile: CFG_ACTIVE, or the trial bank while a trial runs (R529, R531). -/
def Vault.setProfile (v : Vault) (key : Nat) (bs : List Byte) : Vault :=
  { v with profiles := Tab.put (fun _ => []) v.profiles key bs }

/-- The active configuration is copied into the trial bank and converted to the format of the running Supervisor (R531). -/
def Vault.convert (v : Vault) (dst fmt : Nat) : Vault :=
  let src := v.bcb.cfgActive
  let t := (v.persist src).foldl (fun (t : Tab (List Byte)) (e : Nat × List Byte) =>
    let val := if v.fmt src = fmt then e.2 else Config.convertValue (v.fmt src) fmt e.1 e.2
    Tab.put paramDefault t e.1 val) []
  let v := (v.setPersist dst t)
  let v := { v with fmts := Tab.put (fun _ => 0) v.fmts dst fmt }
  let v := (List.range 8).foldl (fun (v : Vault) i =>
    v.setProfile (8 * dst + i) (Tab.get (fun _ => []) v.profiles (8 * src + i))) v
  (List.range 4).foldl (fun (v : Vault) n =>
    { v with profUse := Tab.put (fun _ => 0) v.profUse (4 * dst + n) (v.profCopy src n) }) v

/-! ### Trust (R522 to R525) -/

/-- Hash of the active integrator root: the highest-numbered VALID entry. -/
def Vault.rootHash (v : Vault) : Option (List Byte) :=
  match (v.otp.filter (fun e => e.valid)).getLast? with
  | some e => e.hash
  | none => none

/-- The active integrator root, when IROOT_KEY matches it. -/
def Vault.integratorKey (v : Vault) : Option (List Byte) :=
  match v.rootHash with
  | none => none
  | some h => if sha256 v.bcb.key = h then some v.bcb.key else none

/-- A message verifies under a root: 0 Palril, 1 integrator. -/
def Vault.signed (v : Vault) (root : Nat) (msg sig : List Byte) : Bool :=
  if root = 0 then hssVerify Config.palrilKey msg sig
  else match v.integratorKey with
    | none => false
    | some k => hssVerify k msg sig

/-- Fields of an image's header. -/
def imgClass (b : List Byte) : Nat := leAt b 4 1
def imgVersion (b : List Byte) : Nat := leAt b 8 4
def imgSvn (b : List Byte) : Nat := leAt b 12 4
def imgLength (b : List Byte) : Nat := leAt b 16 4
def imgRaise (b : List Byte) : Bool := bit (leAt b 24 4) 0
def imgFormat (b : List Byte) : Nat := leAt b 28 2
def imgPayload (b : List Byte) : List Byte := slice b 256 (imgLength b)

/-- The header fields of an image of a class hold the values of R525. -/
def headerOk (b : List Byte) (cls size : Nat) : Bool :=
  let tail := b.drop (256 + imgLength b)
  decide (slice b 0 4 = [0x49, 0x46, 0x49, 0x4D]) && decide (imgClass b = cls)
    && decide (leAt b 5 1 = (if cls = 4 then 1 else 0)) && decide (leAt b 6 2 = 256) && decide (imgSvn b ≤ 63)
    && decide (256 + imgLength b + 5076 ≤ size) && decide (leAt b 20 4 = 5076) && decide (leAt b 24 4 ≤ 1)
    && (decide (3 ≤ cls) || decide (imgFormat b = 0)) && decide (leAt b 30 2 = 0)
    && (slice b 96 160).all (fun x => decide (x = 0)) && decide (5076 ≤ tail.length)

/-- Verification of an image for a class and region size: REASON codes of R530, 0 passed, 1 VERIFY_FAIL, 6 ROLLBACK. -/
def Vault.verifyImage (v : Vault) (b : List Byte) (cls size : Nat) : Nat :=
  let ok := headerOk b cls size && decide (sha256 (imgPayload b) = slice b 32 32)
    && v.signed (leAt b 5 1) (b.take 256) (slice b (256 + imgLength b) 5076)
  if !ok then 1 else if imgSvn b < v.svn.getD (cls - 1) 0 then 6 else 0

/-- Verification of a region's content. -/
def Vault.verifyRegion (v : Vault) (r : Nat) : Nat :=
  v.verifyImage (v.image r) (if r ≤ 2 then r else if r ≤ 4 then 3 else 4) (regionSize r)

/-- The OTP minimum of a class is raised to an image's SVN; it never falls (R525, R531). -/
def Vault.raiseSvn (v : Vault) (cls n : Nat) : Vault :=
  { v with svn := v.svn.set (cls - 1) (max (v.svn.getD (cls - 1) 0) n) }

/-- RAISE_SVN of an image is carried out. -/
def Vault.raiseFor (v : Vault) (b : List Byte) : Vault := if imgRaise b then v.raiseSvn (imgClass b) (imgSvn b) else v

/-- First OTP entry that ENROLL can program (R524). -/
def Vault.freeOtp (v : Vault) : Option Nat :=
  (List.range v.otp.length).find? (fun i => match v.otp[i]? with | some e => e.hash.isNone && !e.valid | none => false)

/-- ENROLL: the hash first, VALID last, the key to IROOT_KEY. -/
def Vault.enroll (v : Vault) (i : Nat) (key : List Byte) : Vault :=
  let v := { v with otp := v.otp.set i { hash := some (sha256 key), valid := true } }
  v.putBcb { v.bcb with key := key }

/-- P 0x02.0003[n]: bytes 0 to 47 of a slot, or zeros (R514). -/
def Vault.profHeader (v : Vault) (n : Nat) : List Byte := padTo 48 ((v.profile n).take 48)

end Sys2Proof.Machine
end

