-- ==== Sys2Proof/Machine/DictView.lean ====
section
/-!
DEFINITION. The values the parameter dictionary serves: current values, and the read-only items computed from state (R2, R427,
R454, R457, R478, R491, R495, R499, R514 to R516, R526, R530, R539, R544, R548, R567).
-/
namespace Sys2Proof.Machine

open Sys2Proof.Config (PItem)

/-- A TIME80 value of ns, little-endian: seconds, then nanoseconds (R13, R402). -/
def time80 (ns : Nat) : List Byte := leBytes 6 (ns / 10 ^ 9) ++ leBytes 4 (ns % 10 ^ 9)

/-- The ns of a TIME80 value. -/
def nsOf80 (b : List Byte) : Nat := leAt b 0 6 * 10 ^ 9 + leAt b 6 4

/-- State of a core as P 0x41.0001 reports it. -/
def Dev.coreReport (d : Dev) (c : Nat) : Nat :=
  let k := d.core c
  if d.power (pwrCluster (c / 8)) = .off then 3 else if k.stopped then 2 else if k.released then 1 else 0

/-- A fault record as P 0xA0.0002 serves it: SEQ modulo 256. -/
def Dev.faultAt (d : Dev) (e : Nat) : List Byte :=
  match (d.obs.faults.filter (fun r => decide (r.seq % 256 = e))).getLast? with
  | some r => r.bytes
  | none => zeros 32

/-- Entry of the memory log that Supervisor serves as element `e`: the unread entries from the oldest on (assumption log 42). -/
def Dev.logAt (d : Dev) (e : Nat) : List Byte :=
  if e < d.logOcc then d.regBytes (memBase + 0x10000 + 32 * ((d.regN (memBase + 0x44) + e) % 1024)) 32 else zeros 32

/-- Base of the dump region: the top 64 MiB of visible DDR5 (R548). -/
def Dev.dumpBase (d : Dev) : Nat := ddrBase + d.visible - 0x4000000

/-- A count since PORST_N (R539). -/
def Dev.totalCount (d : Dev) (i : Nat) : Nat :=
  (d.catValue i + (Tab.get (fun _ => (0 : BitVec 64)) d.obs.saved i).toNat) % 2 ^ 64

/-- Read-only items of Identity, Modes and Profiles. -/
def Sys.viewLow (s : Sys) (a i e : Nat) : Option (List Byte) :=
  let d := s.dev
  match a, i with
  | 0, 4 => some ((List.range 16).map Config.serial)
  | 0, 5 => some (leBytes 2 Config.vendorId.toNat)
  | 0, 0x13 => some (leBytes 8 Config.mgmtMac.toNat)
  | 1, 2 => some (leBytes 2 d.pwr.mode)
  | 1, 3 => some (leBytes 2 (d.modeTarget.getD 0xFF))
  | 2, 1 => some (leBytes 1 d.sup.pins)
  | 2, 2 => some (leBytes 1 (d.sup.slot.getD 0xFF))
  | 2, 3 => some (s.vault.profHeader e)
  | 2, 0x11 => some (leBytes 1 d.sup.loadStatus)
  | 2, 0x20 => some (leBytes 8 (d.sup.loads.getD e 0))
  | 2, 0x21 => some (leBytes 8 (d.sup.loads.getD (2 + e) 0))
  | _, _ => none

/-- Read-only items of Power, Calibration, Time and Cores. -/
def Dev.viewMid (d : Dev) (a i e : Nat) : Option (List Byte) :=
  match a, i with
  | 0x10, 0x50 => some (d.regBytes (pwrBase + 0x110) 32)
  | 0x10, 0x61 => some (leBytes 4 d.pins.gpioIn.toNat)
  | 0x11, 2 => some (leBytes 4 d.trimFlags)
  | 0x11, 3 => some (leBytes 8 d.calRunning)
  | 0x11, 0x30 => some (d.calTarget e).record
  | 0x11, 0x31 => some (d.trim e).record
  | 0x11, 0x100 => some (leBytes 4 (ofSigned 32 ((d.sensor e).getD (d.freeBits 32).toInt)))
  | 0x11, 0x101 => some (leBytes 2 (Tab.get (fun _ => 0) d.cal.volts e))
  | 0x11, 0x102 => some (leBytes 1 (b2n (d.sensor e).isSome))
  | 0x20, 1 => some (leBytes 2 d.time.state.code)
  | 0x20, 2 => some (time80 d.now)
  | 0x20, 3 => some (leBytes 4 (ofSigned 32 (satS 32 (d.time.lastOfs / 65536))))
  | 0x20, 0x50 => some d.time.tddAct.blob
  | 0x41, 1 => some (leBytes 2 (d.coreReport e))
  | 0x41, 2 => some (leBytes 4 (Tab.get ctlReset (d.core e).ctl 0x80).toNat)
  | _, _ => none

/-- Read-only items of Cipher, Update, Counters and Faults. -/
def Sys.viewHigh (s : Sys) (a i e : Nat) : Option (List Byte) :=
  let d := s.dev
  match a, i with
  | 0x70, 0x20 => some (leBytes 4 (d.ceng e).nFault)
  | 0x70, 0x21 => some (leBytes 4 (d.ceng e).nDiscard)
  | 0x70, 0x22 => some (leBytes 4 (d.cpage e).denied)
  | 0x80, 1 => some (leBytes 2 d.upd.state)
  | 0x80, 2 => some (leBytes 4 d.upd.owner)
  | 0x80, 3 => some s.vault.bcb.result
  | 0x80, 5 => some (leBytes 4 d.upd.got)
  | 0x80, 0x32 => some (leBytes 8 (s.vault.svn.getD e 0))
  | 0x80, 0x40 => some (leBytes 1 d.upd.bootMode)
  | 0xA0, 1 => some (leBytes 4 (d.obs.faults.filter (fun r => !r.acked)).length)
  | 0xA0, 2 => some (d.faultAt e)
  | 0xA0, 0x10 => some (d.logAt e)
  | 0xA0, 0x21 => some (leBytes 2 d.obs.dump)
  | 0xA0, 0x23 => some (leBytes 8 d.dumpBase)
  | _, _ => if a = 0x90 ∧ 1 ≤ i ∧ i ≤ 16 then some (leBytes 8 (d.totalCount (256 * (i - 1) + e))) else none

/-- The value of an element of an item. -/
def Sys.value (s : Sys) (a i e : Nat) : List Byte :=
  ((s.viewLow a i e <|> s.dev.viewMid a i e) <|> s.viewHigh a i e).getD (s.dev.param a i e)

/-! ### Presence and attributes (R496, R499, R513) -/

/-- The ROM recovery loader's items (R536). -/
def recoveryItem (a i : Nat) : Bool :=
  a = 0x80 && (i = 1 || i = 3 || i = 5 || i = 0x10 || i = 0x11 || i = 0x12 || i = 0x15)

/-- An area is not served in the present mode (R513). -/
def Dev.unserved (d : Dev) (a : Nat) : Bool :=
  (d.pwr.mode = 1 || d.pwr.mode = 7) && !(a = 0 || a = 1 || a = 0x80 || a = 0xA0)

/-- Presence of an item and an element, as a status of R507 with the item (R496, R499, R507, R513, R536; assumption log 43). -/
def Dev.lookup (d : Dev) (a i e : Nat) : Nat × Option PItem :=
  if 0xF0 ≤ a then (2, none)
  else if !isArea a then (1, none)
  else if d.unserved a then (0x0A, none)
  else if 0xF000 ≤ i then (2, none)
  else
    match findItem a i with
    | none => (2, none)
    | some p =>
      if d.upd.recovery && !recoveryItem a i then (0x0A, none)
      else if p.count ≤ e then (3, none)
      else (0, some p)

/-- A value's bytes suit the item's type: BOOL, TIME80 and stated ranges (R497). -/
def valueOk (p : PItem) (v : List Byte) : Bool :=
  let n := leNat v
  (decide (p.ty ≠ 6) || decide (n < 2)) && (decide (p.ty ≠ 8) || decide (leAt v 6 4 < 10 ^ 9))
    && (p.vals.isEmpty || p.vals.any (fun r => decide (r.1 ≤ n) && decide (n ≤ r.2)))

/-- An RWS item may not be written now (R497). -/
def Dev.rwsClosed (d : Dev) : Bool := decide (d.pwr.mode ≠ 3) || d.inTransition

end Sys2Proof.Machine
end

