-- ==== Sys2Proof/Machine/NapMsg.lean ====
section
/-!
DEFINITION. Records of NAP messages and of profile images, checks of a record that sets an item, and BLOB segments (R497, R501,
R502, R507).
-/
namespace Sys2Proof.Machine

open Sys2Proof.Config (PItem)

/-- A record of R502. -/
structure NapRec where
  area : Nat
  elem : Nat
  item : Nat
  ty   : Nat
  rst  : Nat
  val  : List (BitVec 8)
  deriving DecidableEq, Repr

/-- Bytes of a record. -/
def NapRec.bytes (r : NapRec) : List Byte := napRecord r.area r.elem r.item r.ty r.rst r.val

/-- LEN rounded up to a multiple of 8. -/
def up8 (n : Nat) : Nat := (n + 7) / 8 * 8

/-- A number of records, with the bytes behind them. -/
def parseRecs : Nat → List Byte → Option (List NapRec × List Byte)
  | 0, b => some ([], b)
  | n + 1, b =>
    let len := leAt b 4 2
    if b.length < 8 + up8 len then none
    else
      let pad := slice b (8 + len) (up8 len - len)
      let r : NapRec := ⟨leAt b 0 1, leAt b 1 1, leAt b 2 2, leAt b 6 1, leAt b 7 1, slice b 8 len⟩
      if pad.any (fun x => decide (x ≠ 0)) then none
      else match parseRecs n (b.drop (8 + up8 len)) with
        | none => none
        | some (rs, rest) => some (r :: rs, rest)

/-- Segment header and data of a BLOB value. -/
def segOff (v : List Byte) : Nat := leAt v 0 2
def segTotal (v : List Byte) : Nat := leAt v 2 2
def segData (v : List Byte) : List Byte := v.drop 4

/-- A BLOB's TOTAL suits the item: the declared length, or at most it for CHUNK (R496, R530). -/
def totalOk (p : PItem) (n : Nat) : Bool :=
  if p.area = 0x80 ∧ p.item = 0x11 then decide (4 < n) && decide (n ≤ p.size) else decide (n = p.size)

/-- What a segment does: a status, the held segments, and the whole BLOB once it is complete (R502). -/
def segment (held : Option HeldBlob) (p : PItem) (r : NapRec) : Nat × Option HeldBlob × Option (List Byte) :=
  let off := segOff r.val
  let tot := segTotal r.val
  if r.val.length < 4 ∨ !totalOk p tot then (4, none, none)
  else
    let before := match held with
      | some h =>
        if off = 0 then some []
        else if h.area = r.area && h.item = r.item && h.elem = r.elem && h.total = tot && h.data.length = off then some h.data
        else none
      | none => if off = 0 then some [] else none
    match before with
    | none => (5, none, none)
    | some b =>
      let data := b ++ segData r.val
      if tot < data.length then (5, none, none)
      else if data.length = tot then (0, none, some data)
      else (0, some ⟨r.area, r.item, r.elem, tot, data⟩, none)

/-- The value a record gives its item: a status, held segments, and the value when it is whole (R497, R502). -/
def recordValue (held : Option HeldBlob) (p : PItem) (r : NapRec) : Nat × Option HeldBlob × Option (List Byte) :=
  if r.ty ≠ p.ty then (4, held, none)
  else if p.ty = 9 then segment held p r
  else if r.val.length ≠ p.size then (4, held, none)
  else if !valueOk p r.val then (5, held, none)
  else (0, held, some r.val)

/-- Refusals of a write before its value is looked at: presence, privilege, access, mode (R496, R497, assumption log 43). -/
def Dev.mayWrite (d : Dev) (priv : Nat) (r : NapRec) : Nat × Option PItem :=
  match d.lookup r.area r.item r.elem with
  | (st, none) => (st, none)
  | (st, some p) =>
    if st ≠ 0 then (st, none)
    else if priv < p.wpriv then (9, none)
    else if p.acc = 0 then (6, none)
    else if p.acc = 2 && d.rwsClosed then (8, none)
    else (0, some p)

/-- Refusals by an item's own rule (R424, R478, R499). -/
def Dev.ownRule (d : Dev) (p : PItem) (v : List Byte) : Nat :=
  if p.area = 0x10 ∧ p.item = 0x41 then (if leNat v ≤ d.time.rtc then 0x0B else 0)
  else if p.area = 0x20 ∧ p.item = 0x50 then
    (if !(tddOfBlob v).blobOk then 5 else if d.time.tddArmed.isSome then 0x0B else 0)
  else 0

end Sys2Proof.Machine
end

