-- ==== Sys2Proof/Machine/Profile.lean ====
section
/-!
DEFINITION. Loading a profile (R22 to R26, R498, R514 to R517).
-/
namespace Sys2Proof.Machine

open Sys2Proof.Config (PItem)

/-- Format, class and length of a profile image for slot `n` (step 2 of R515). -/
def profHeaderOk (b : List Byte) (n : Nat) : Bool :=
  let len := leAt b 4 4
  decide (leAt b 0 2 = 1) && decide (leAt b 2 1 = n) && decide (leAt b 3 1 = 0) && decide (len % 8 = 0)
    && decide (48 + len + 5076 ≤ 2 ^ 20) && decide (48 + len + 5076 ≤ b.length)

/-- The signature of a profile image (step 1 of R515). -/
def Vault.profSigned (v : Vault) (b : List Byte) : Bool :=
  let len := leAt b 4 4
  v.signed 1 (b.take (48 + len)) (slice b (48 + len) 5076)

/-- One record of a profile, checked as a SET at Integrator privilege in Standby; an item that is RO, WO or PERSIST fails
(step 3 of R515). The values taken so far and the held segments are carried along. -/
def Dev.profRecord (d : Dev) (acc : Option (Tab (List Byte) × Option HeldBlob)) (r : NapRec) :
    Option (Tab (List Byte) × Option HeldBlob) :=
  match acc with
  | none => none
  | some (t, held) =>
    let item := if !isArea r.area || decide (0xF000 ≤ r.item) then none else findItem r.area r.item
    match item with
    | none => none
    | some p =>
      if p.count ≤ r.elem || p.acc = 0 || p.acc = 3 || p.persist || decide (1 < p.wpriv) then none
      else match recordValue held p r with
        | (st, held, val) =>
          if st ≠ 0 then none
          else match val with
            | none => some (t, held)
            | some v =>
              if d.ownRule p v ≠ 0 then none
              else some (Tab.put paramDefault t (paramKey r.area r.item r.elem) v, held)

/-- The values of the PERSIST items among current values: a profile load leaves them, and drops the others (R498, assumption
log 44). -/
def persistOnly (t : Tab (List Byte)) : Tab (List Byte) :=
  t.filter (fun e =>
    match findItem (e.1 / 2 ^ 24) (e.1 / 2 ^ 8 % 2 ^ 16) with
    | some p => p.persist
    | none => false)

/-- The values after a profile's records, when every one passes (step 3 of R515). -/
def Dev.profValues (d : Dev) (b : List Byte) : Option (Tab (List Byte)) :=
  match parseRecs (min (leAt b 12 4) (2 ^ 18)) (slice b 48 (leAt b 4 4)) with
  | some (rs, []) =>
    match rs.foldl d.profRecord (some (persistOnly d.dict, none)) with
    | some (t, none) => some t
    | _ => none
  | _ => none

/-- Key slots whose owner differs between two sets of values (R439). -/
def Dev.ownerMoved (d e : Dev) : List Nat :=
  (List.range 1024).filter (fun k => decide (d.par 0x70 (0x12 + k / 256) (k % 256) ≠ e.par 0x70 (0x12 + k / 256) (k % 256)))

/-- The new values are in force: slots that change owner are zeroised; the observation registers follow; units that the profile
leaves unused go Off (R439, R517, R552). -/
def Dev.profApply (d : Dev) (t : Tab (List Byte)) : Dev :=
  let new := { d with dict := t }
  let moved := if (d.dict.any (fun e => decide (e.1 / 2 ^ 24 = 0x70))) || (t.any (fun e => decide (e.1 / 2 ^ 24 = 0x70)))
    then d.ownerMoved new else []
  let d := moved.foldl (fun (d : Dev) k => d.zeroiseSlot k) new
  (d.applyObs.unusedOff).calRefresh

/-- The end of a load that fails: the previous profile stays in force. -/
def Sys.loadFails (s : Sys) (st : Nat) : Sys × Nat := ({ s with dev := { s.dev with sup := { s.dev.sup with loadStatus := st } } }, st)

/-- A load of slot `n`: the steps of R515 in order. -/
def Sys.loadProfile (s : Sys) (n : Nat) : Sys × Nat :=
  let b := s.vault.profile n
  if !s.vault.profSigned b || !profHeaderOk b n then s.loadFails 0x32
  else
    match s.dev.profValues b with
    | none => s.loadFails 0x32
    | some t =>
      let loads := (List.range 4).map (fun i => if h : i < 4 then Config.profileLoad t ⟨i, h⟩ else 0)
      let s := { s with dev := { s.dev with sup := { s.dev.sup with loads := loads } } }
      if !Config.classWithin n t then s.loadFails 0x31
      else if 24 * 10 ^ 9 < loads.getD 0 0 ∨ 24 * 10 ^ 9 < loads.getD 1 0 ∨ 12 * 10 ^ 9 < loads.getD 2 0
          ∨ 12 * 10 ^ 9 < loads.getD 3 0 then s.loadFails 0x30
      else
        let d := s.dev.profApply t
        ({ s with dev := { d with sup := { d.sup with loadStatus := 0, slot := some n, lastSlot := some n } } }, 0)

/-- PROFILE_LOAD: a write of the slot to P 0x02.0010 (R517). -/
def Sys.profileLoad (s : Sys) (n : Nat) : Sys × Nat :=
  if 3 < n then (s, 5)
  else if s.dev.rwsClosed then (s, 8)
  else s.loadProfile n

end Sys2Proof.Machine
end

