-- ==== Sys2Proof/Machine/Boot.lean ====
section
/-!
DEFINITION. Resets, the boot chain, the choice of images, ROM recovery, trials and activation (R516, R526 to R536, R571, R572).
-/
namespace Sys2Proof.Machine

/-! ### Resets (R363, R535, R571, R572) -/

/-- DDR5 contents alone: what SYSRST_N keeps of memory (R363, R572). -/
def MemState.ddrOnly (m : MemState) : MemState :=
  let lo := ddrBase
  { data := m.data.filter (fun e => decide (lo ≤ e.1)), badPar := m.badPar.filter (fun e => decide (lo ≤ 64 * e.1))
    syn := m.syn.filter (fun e => decide (lo ≤ 64 * e.1)), chkBad := m.chkBad.filter (fun e => decide (lo ≤ 64 * e.1))
    filled := m.filled, ddrKept := m.filled }

/-- Registers that SYSRST_N leaves: the time unit's and PWR_WAKE_REC (R428, R572). -/
def keptInSysrst (a : Nat) : Bool :=
  (decide (tmuBase ≤ a) && decide (a < tmuBase + 0x100000)) || (decide (pwrBase + 0x110 ≤ a) && decide (a < pwrBase + 0x130))

/-- Update state after a reset: an activation that had not reached the BCB is given back without the lock (R530, R535). -/
def UpdState.afterReset (u : UpdState) (bootMode : Nat) : UpdState :=
  if u.state = 6 && u.goal = 1 then { state := u.backTo, target := u.target, bootMode := bootMode }
  else { bootMode := bootMode }

/-- Every counter is added to what the counter area keeps, so that it counts on from PORST_N (R539). -/
def Dev.saveForReset (d : Dev) : Dev :=
  (List.range 3333).foldl (fun (d : Dev) i => if 0x60 ≤ i ∧ i < 0x69 then d else d.saveCounter i) d

/-- The state that SYSRST_N leaves, in Boot: everything is reset but the always-on domain, the time unit, PWR_WAKE_REC, DDR5 and
the record of the last profile (R572). -/
def Dev.sysReset (d : Dev) : Dev :=
  let d := (d.writeBack.timeSysrst).saveForReset
  { regs := d.regs.filter (fun e => keptInSysrst e.1)
    mem := d.mem.ddrOnly
    time := d.time
    obs := { faults := d.obs.faults, faultSeq := d.obs.faultSeq, saved := d.obs.saved, dump := d.obs.dump, dumpLen := d.obs.dumpLen }
    pwr := { mode := 1, sleepRtc := d.pwr.sleepRtc }
    sup := { lastSlot := d.sup.lastSlot, pins := d.sup.pins, perst := d.sup.perst, starts := d.sup.starts }
    upd := d.upd.afterReset d.upd.bootMode
    pins := { refFast := d.pins.refFast, porst := d.pins.porst, sysrst := d.pins.sysrst, gpioIn := d.pins.gpioIn }
    fhn := { ports := (List.range 9).map (fun p => (p, { off := true })) }
    fresh := d.fresh }

/-- Every unit is Off: clusters, engines, movers and receivers. -/
def allOff : Tab Power :=
  (List.range 24).map (fun k => (k, Power.off)) ++ allUnits.map (fun p => (pwrEng p.1 p.2, Power.off))

/-- P 0xA0.0021 after PORST_N: only a flash copy is left (R548). -/
def dumpAfterPorst (n : Nat) : Nat := if n = 2 ∨ n = 3 then 3 else 0

/-- Cold: the whole device is reset, always-on domain included; the levels that the board drives are left (R571). -/
def Dev.coldReset (d : Dev) : Dev :=
  { pwr := { mode := 0, unit := allOff }
    obs := { dump := dumpAfterPorst d.obs.dump }
    sup := { perst := d.sup.perst, starts := d.sup.starts }
    upd := d.upd.afterReset 0
    pins := { refFast := d.pins.refFast, porst := true, sysrst := d.pins.sysrst, gpioIn := d.pins.gpioIn }
    time := { refclk := d.time.refclk }
    fhn := { ports := (List.range 9).map (fun p => (p, { off := true })) }
    fresh := d.fresh }

/-! ### Records and fall-back (R530, R531) -/

/-- A last-result record (R530). -/
def resultRecord (time target result reason version : Nat) : List Byte :=
  leBytes 8 time ++ leBytes 1 target ++ leBytes 1 result ++ leBytes 1 reason ++ zeros 1 ++ leBytes 4 version ++ zeros 16

/-- A result is recorded in the BCB. -/
def Sys.recordResult (s : Sys) (target result reason version : Nat) : Sys :=
  { s with vault := s.vault.putBcb { s.vault.bcb with result := resultRecord s.dev.now target result reason version } }

/-- Target and region of the trial that the BCB names, if any. -/
def Bcb.trial (b : Bcb) : Option (Nat × Nat) :=
  if b.supTrial ≠ 0xFF then some (3, 3 + b.supTrial % 2)
  else if b.sigTrial ≠ 0xFF then some (4, 5 + b.sigTrial % 2) else none

/-- A fall-back: one BCB write clears both TRIAL fields, keeps CFG_ACTIVE and records FALLBACK (R531). -/
def Sys.fallBcb (s : Sys) (reason : Nat) : Sys :=
  let b := s.vault.bcb
  match b.trial with
  | none => s
  | some (target, region) =>
    let rec' := resultRecord s.dev.now target 2 reason (imgVersion (s.vault.image region))
    let v := s.vault.putBcb { b with
      supTrial := 0xFF, sigTrial := 0xFF, cfgTrial := 0xFF, boots := 0, failed := false, result := rec' }
    { dev := { s.dev with upd := { s.dev.upd with state := 0, owner := 0, trial := false, checked := false } }, vault := v }

/-! ### The choice of images (R528) -/

/-- The slot that runs without a trial: ACTIVE, or the other one where ACTIVE fails and it is complete. -/
def Sys.chooseActive (s : Sys) (base : Nat) (active : Nat) : Sys × Option Nat :=
  let a := base + active % 2
  let o := base + 1 - active % 2
  if s.vault.verifyRegion a = 0 then (s, some a)
  else if 2 ≤ s.vault.bcb.slot o ∧ s.vault.verifyRegion o = 0 then
    (s.recordResult (if base = 3 then 3 else 4) 5 0 (imgVersion (s.vault.image a)), some o)
  else (s, none)

/-- The slot of a kind: Supervisor (base 3) or signal bundle (base 5); a trial boot is counted before the image is verified. -/
def Sys.chooseSlot (s : Sys) (base : Nat) : Sys × Option Nat :=
  let b := s.vault.bcb
  let trial := if base = 3 then b.supTrial else b.sigTrial
  let act := fun (s : Sys) => s.chooseActive base (if base = 3 then s.vault.bcb.supActive else s.vault.bcb.sigActive)
  if trial = 0xFF then act s
  else if b.failed then act (s.fallBcb 5)
  else if 3 ≤ b.boots then act (s.fallBcb 2)
  else
    let s := { s with vault := s.vault.putBcb { b with boots := b.boots + 1 } }
    if s.vault.verifyRegion (base + trial % 2) = 0 then
      ({ s with dev := { s.dev with upd := { s.dev.upd with trial := true, trialAt := s.dev.time.raw } } }, some (base + trial % 2))
    else act (s.fallBcb 1)

/-! ### The boot chain (R526, R527, R536) -/

/-- ROM recovery: the loader serves NAP and the mailbox (R526, R536). -/
def Sys.enterRecovery (s : Sys) : Sys :=
  let d := s.dev.runTrims (8 + 64)
  let m := d.upd.bootMode
  let d := { d with
    upd := { d.upd with recovery := true, state := 0, owner := 0, trial := false }
    pins := { d.pins with b1 := true }
    sup := { d.sup with ready := true } }
  let d := if m = 3 then d else d.portPower 8 true
  { s with dev := if m = 2 then d else d.linkTry }

/-- BOOT_MODE selects ROM recovery. -/
def recoveryMode (m : Nat) : Bool := decide (2 ≤ m) && decide (m ≤ 6)

/-- Current values from a configuration bank (R498). -/
def Sys.loadValues (s : Sys) (bank : Nat) : Sys := { s with dev := s.dev.resetParams (s.vault.persist bank) }

/-- Steps 5 and 6: trims, interfaces, DDR5 and its fill. -/
def Sys.stage1 (s : Sys) (kept : Bool) : Sys :=
  let d := s.dev.runTrims (4 + 8 + 64)
  let d := { d with pins := { d.pins with b1 := true }, sup := { d.sup with ready := true }, pwr := { d.pwr with unit := [] } }
  let d := ((d.portPower 8 true).linkTry).runTrims (16 + 32)
  let b := s.vault.bcb
  let s := ({ s with dev := d }).loadValues (if b.cfgTrial ≠ 0xFF ∧ 1 ≤ b.boots then b.cfgTrial else b.cfgActive)
  let d := s.dev.applyDdr
  { s with dev := { d with mem := { d.mem with filled := kept, ddrKept := kept, fillBusy := !kept } } }

/-- Step 8: the configuration of this start, the signal bundle, the retirement state. -/
def Sys.bundleStage (s : Sys) : Sys :=
  let (s, r) := s.chooseSlot 5
  let b := s.vault.bcb
  let first := b.cfgTrial ≠ 0xFF ∧ b.boots = 1 ∧ s.dev.upd.trial
  let fmt := imgFormat (s.vault.image (match b.trial with | some (3, g) => g | _ => 3 + b.supActive % 2))
  let s := if first then { s with vault := s.vault.convert b.cfgTrial fmt } else s
  let s := s.loadValues s.vault.bcb.bank
  let d := match r with
    | none => s.dev
    | some g =>
      let img := s.vault.image g
      let ws := Config.bundleWrites (imgPayload img)
      let d := { s.dev with sup := { s.dev.sup with images := ws, bundleOk := true, bundleVer := imgVersion img } }
      ws.foldl (fun (d : Dev) (w : Nat × List Byte) => (d.busWrite .supervisor w.1 w.2).1) d
  { s with dev := d.applyRetire }

/-- A download that a reset interrupted is recorded (R535). -/
def Sys.noteInterrupted (s : Sys) : Sys :=
  if s.vault.begun = 0 then s
  else
    let s := s.recordResult s.vault.begun 3 0 0
    { s with vault := { s.vault with begun := 0 } }

/-- The boot chain from step 2 on; the fill and the entry to Standby are events of their own. -/
def Sys.bootChain (s : Sys) : Sys :=
  let kept := s.dev.mem.filled
  let d := s.dev.runTrims 3
  let s := { s with dev := { d with sup := { d.sup with starts := d.sup.starts + 1 } } }
  if recoveryMode s.dev.upd.bootMode then s.enterRecovery
  else
    match s.vault.bcb? with
    | none => s.enterRecovery
    | some b =>
      let n := min 255 (b.tries + 1)
      let s := { s with vault := s.vault.putBcb { b with tries := n } }
      if 3 < n ∨ b.mule then s.enterRecovery
      else if s.vault.verifyRegion 1 ≠ 0 ∨ s.vault.verifyRegion 2 ≠ 0 then s.enterRecovery
      else
        let (s, r) := (s.stage1 kept).chooseSlot 3
        match r with
        | none => s.enterRecovery
        | some g =>
          let s := { s with
            vault := s.vault.putBcb { s.vault.bcb with tries := 0 }
            dev := { s.dev with sup := { s.dev.sup with supVer := imgVersion (s.vault.image g) } } }
          s.bundleStage.noteInterrupted

/-- A restart into Boot with DDR5 kept: as after SYSRST_N (R531, R550). -/
def Sys.restart (s : Sys) : Sys := ({ s with dev := s.dev.sysReset }).bootChain

/-! ### Trials (R531) -/

/-- Confirmation: one BCB write, then the OTP minimum (R531). -/
def Sys.confirm (s : Sys) : Sys :=
  let b := s.vault.bcb
  match b.trial with
  | none => s
  | some (target, region) =>
    let img := s.vault.image region
    let v := s.vault.putBcb { b with
      supActive := if b.supTrial = 0xFF then b.supActive else b.supTrial
      sigActive := if b.sigTrial = 0xFF then b.sigActive else b.sigTrial
      cfgActive := if b.cfgTrial = 0xFF then b.cfgActive else b.cfgTrial
      supTrial := 0xFF
      sigTrial := 0xFF
      cfgTrial := 0xFF
      boots := 0
      failed := false
      result := resultRecord s.dev.now target 1 0 (imgVersion img) }
    { dev := { s.dev with upd := { s.dev.upd with state := 0, owner := 0, trial := false, checked := false } }
      vault := v.raiseFor img }

/-- The built-in check of a trial image on reaching Standby; `want` is the profile that was active before (R531). -/
def Sys.trialCheck (s : Sys) (want : Option Nat) : Sys :=
  if !s.dev.upd.trial then s
  else
    let ok := s.dev.sup.bundleOk && s.dev.sup.ready && (want.isNone || decide (s.dev.sup.slot = want))
    let s := { s with dev := { s.dev with upd := { s.dev.upd with checked := ok, state := 7 } } }
    if ok && s.dev.par 0x80 0x20 0 = 0 then s.confirm else s

/-! ### Activation (R531 to R534) -/

/-- State to go back to from an activation of a target: VERIFIED or DOWNLOADED. -/
def Sys.backState (s : Sys) (target : Nat) : Nat :=
  let b := s.vault.bcb
  match target with
  | 1 => if b.slot 7 = 3 then 4 else 2
  | 2 => if b.slot 7 = 3 then 4 else 2
  | 3 => if b.slot (4 - b.supActive % 2) = 3 then 4 else 2
  | 4 => if b.slot (6 - b.sigActive % 2) = 3 then 4 else 2
  | _ => if s.dev.upd.backTo = 4 then 4 else 2

/-- The schedule is cleared. -/
def Vault.unschedule (v : Vault) : Vault :=
  if v.bcb.schedTarget = 0 then v else v.putBcb { v.bcb with schedTarget := 0, schedTime := zeros 10 }

/-- Statuses of the update chapter: SLOT_BUSY, and those whose codes the manual does not give (R507, assumption log 41). -/
def updSt (n : Nat) : Nat := 0x41 + (Config.updStatus n).val

/-- Mule rewrites Stage-1 or Gander firmware (R533). -/
def Sys.runMule (s : Sys) : Sys :=
  let t := s.dev.upd.target
  let img := s.vault.image 7
  let r := s.vault.verifyImage img t (regionSize t)
  if r ≠ 0 then
    let d := s.dev.leaveMaint
    { dev := { d with upd := { d.upd with state := 2, answer := updSt (if r = 6 then 6 else 5) } }
      vault := s.vault.putBcb { s.vault.bcb with mule := false } }
  else if s.dev.upd.badWrite then
    { s with vault := (s.vault.setImage t []).markSlot t 1 }
  else
    let v := (s.vault.setImage t img).markSlot t 3
    let v := v.putBcb { v.bcb with mule := false, result := resultRecord s.dev.now t 6 0 (imgVersion img) }
    ({ s with vault := v.raiseFor img }).restart

/-- An activation in Maintenance: the trial is set and the device restarts, or Mule runs (R531, R533). -/
def Sys.doActivate (s : Sys) : Sys :=
  let t := s.dev.upd.target
  let s := { s with
    vault := s.vault.unschedule
    dev := { s.dev with upd := { s.dev.upd with goal := 0 } } }
  let b := s.vault.bcb
  if t = 3 ∨ t = 4 then
    let v := s.vault.putBcb { b with
      supTrial := if t = 3 then 1 - b.supActive % 2 else 0xFF
      sigTrial := if t = 4 then 1 - b.sigActive % 2 else 0xFF
      boots := 0
      failed := false
      cfgTrial := 1 - b.cfgActive % 2 }
    ({ s with vault := v }).restart
  else ({ s with vault := s.vault.putBcb { b with mule := true } }).runMule

/-- The copy of a profile slot is switched, in the bank in force (R534). -/
def Sys.switchCopy (s : Sys) (n : Nat) : Sys :=
  let bank := s.vault.bcb.bank
  let v := { s.vault.unschedule with profUse := Tab.put (fun _ => 0) s.vault.profUse (4 * bank + n) (1 - s.vault.profCopy bank n) }
  { dev := { s.dev with upd := { s.dev.upd with state := 0, owner := 0, target := 0, goal := 0 } }, vault := v }

/-- What waits for Standby goes on: an activation, or the restart after a fall-back (R531, R537). -/
def Sys.goalNext (s : Sys) : Sys :=
  let g := s.dev.upd.goal
  if g = 0 ∨ s.dev.inTransition ∨ (s.dev.pwr.mode ≠ 3 ∧ s.dev.pwr.mode ≠ 6 ∧ s.dev.pwr.mode ≠ 1) then s
  else
    let d := if s.dev.pwr.mode = 6 then s.dev else s.dev.enterMaint
    let s := { s with dev := { d with upd := { d.upd with goal := 0 } } }
    if g = 1 then s.doActivate else s.restart

/-- From a Service mode the device goes to Standby first (R531). -/
def Sys.headForBoot (s : Sys) (goal : Nat) : Sys :=
  let d := { s.dev with upd := { s.dev.upd with goal := goal } }
  let d := if (d.pwr.mode = 4 || d.pwr.mode = 5) && !d.pwr.leaving then d.leaveService else d
  ({ s with dev := d }).goalNext

/-- Activation begins (R531 to R534). -/
def Sys.beginActivation (s : Sys) : Sys :=
  let t := s.dev.upd.target
  if 5 ≤ t then s.switchCopy (t - 5)
  else
    let back := s.backState t
    ({ s with dev := { s.dev with upd := { s.dev.upd with state := 6, backTo := back } } }).headForBoot 1

/-- A fall-back while the device runs: the BCB write, then a restart through Maintenance (R531). -/
def Sys.fallBack (s : Sys) (reason : Nat) : Sys := (s.fallBcb reason).headForBoot 2

/-- FALL_BACK: 600 s after the release of reset of the trial boot (R531). -/
def Sys.trialTimeout (s : Sys) : Sys :=
  let d := s.dev
  if d.upd.trial && d.pwr.mode ≠ 2 && d.pwr.mode ≠ 7 && d.pwr.mode ≠ 0 && decide (600 * 10 ^ 9 ≤ d.nsSince d.upd.trialAt) then s.fallBack 3
  else s

/-! ### Schedules (R532) -/

/-- The schedule is over without activation: DOWNLOADED or VERIFIED, the lock released (R532). -/
def Sys.scheduleOver (s : Sys) : Sys :=
  let back := s.backState s.dev.upd.target
  { dev := { s.dev with upd := { s.dev.upd with state := back, owner := 0 } }, vault := s.vault.unschedule }

/-- WINDOW_MISSED is recorded (R530, R532). -/
def Sys.missWindow (s : Sys) : Sys := (s.scheduleOver).recordResult s.dev.upd.target 4 0 0

/-- ns at which the window of the schedule ends. -/
def Sys.windowEnd (s : Sys) : Nat := nsOf80 s.vault.bcb.schedTime + 10 ^ 9 * s.dev.par 0x80 0x21 0

/-- SCHEDULED_ACTIVATION: device time has reached the instant and is locked, within the window; neither a mode transition nor a
safe boot is under way (R532, R537). -/
def Sys.scheduledActivation (s : Sys) : Sys :=
  let d := s.dev
  if d.upd.state ≠ 5 ∨ d.pwr.mode < 3 ∨ d.pwr.mode = 7 ∨ d.inTransition then s
  else if d.now < nsOf80 s.vault.bcb.schedTime ∨ s.windowEnd < d.now ∨ !d.time.locked then s
  else s.beginActivation

/-- WINDOW_MISSED: the window has passed without lock (R532). -/
def Sys.windowMissed (s : Sys) : Sys :=
  if s.dev.upd.state = 5 ∧ s.windowEnd < s.dev.now then s.missWindow else s

/-- After Boot a schedule is re-armed, or counts as missed; a safe boot leaves it (R532). -/
def Sys.rearm (s : Sys) : Sys :=
  let b := s.vault.bcb
  if b.schedTarget = 0 ∨ s.dev.upd.bootMode = 1 ∨ s.dev.upd.state = 7 then s
  else
    let upd : UpdState := { s.dev.upd with state := 5, owner := 2 ^ 32 - 1, target := b.schedTarget, backTo := s.backState b.schedTarget }
    let s : Sys := { s with dev := { s.dev with upd := upd } }
    if s.windowEnd < s.dev.now then s.missWindow else s

/-! ### Standby after Boot (R516, R527) -/

/-- BOOT_STANDBY: with the fill complete, the profile is loaded and Standby entered; a wake from Dormant that led through Boot is
recorded (R472, R474); a trial image checks itself. -/
def Sys.bootStandby (s : Sys) : Sys :=
  let d := s.dev
  if d.pwr.mode ≠ 1 ∨ !d.mem.filled ∨ d.upd.recovery ∨ !d.sup.ready ∨ d.pins.sysrst then s
  else
    let want := d.sup.lastSlot
    let slot := if d.upd.bootMode = 1 then none else if d.sup.fromPins then some d.sup.pins else want
    let s := match slot with
      | none => s
      | some n => (s.loadProfile n).1
    let d := ((s.dev.standbyApply.restUnits).setMode 3).calRefresh
    let d := match d.pwr.wakeSrc with
      | none => d
      | some src =>
        let d := (d.wakeRecord src).pwrInt 4
        { d with pwr := { d.pwr with wakeSrc := none, wakeLow := true } }
    (({ s with dev := d }).trialCheck want).rearm

/-! ### Pins (R571, R572, R575) -/

/-- PORST_N asserted: Cold. -/
def Sys.porstAssert (s : Sys) : Sys := { s with dev := s.dev.coldReset }

/-- PORST_N released: the straps PROFILE, BOOT_MODE and REFSEL are sampled and the boot chain runs. -/
def Sys.porstRelease (s : Sys) (profile bootMode : Nat) (refsel : Bool) : Sys :=
  if !s.dev.pins.porst then s
  else
    let d := s.dev
    let d := { d with
      pins := { d.pins with porst := false, refFast := refsel, jtagIr := 0, extest := false, jtagData := 0 }
      sup := { d.sup with pins := profile % 4, fromPins := true }
      upd := { d.upd with bootMode := bootMode % 8 } }
    let d := { d with time := { d.time with inc := incOf d.fref 0 } }
    ({ s with dev := d.setMode 1 }).bootChain

/-- SYSRST_N asserted; ignored while PORST_N is low, and after THERM_TRIP. -/
def Sys.sysrstAssert (s : Sys) : Sys :=
  let d := { s.dev with pins := { s.dev.pins with sysrst := true } }
  if d.pins.porst || d.pwr.thermTrip then { s with dev := d } else { s with dev := d.sysReset }

/-- SYSRST_N released: the boot chain from step 2. -/
def Sys.sysrstRelease (s : Sys) : Sys :=
  if !s.dev.pins.sysrst then s
  else
    let d := { s.dev with pins := { s.dev.pins with sysrst := false } }
    if d.pins.porst || d.pwr.thermTrip then { s with dev := d } else ({ s with dev := d }).bootChain

end Sys2Proof.Machine
end

