-- ==== Sys2Proof/Machine/Update.lean ====
section
/-!
DEFINITION. Update sessions: the lock, download, verification, activation, trials and enrolment (R524, R529 to R537).
-/
namespace Sys2Proof.Machine

/-! ### Sessions that command updates -/

/-- Privilege of the mailbox session (R512). -/
def Dev.mbPriv (d : Dev) : Nat :=
  let p := d.par 0 0x21 0
  if d.sup.mb.authed then max p d.sup.mb.priv else p

/-- Session number that stands for NAP clients of the ROM recovery loader, which have none (R536). -/
def recoverySid : Nat := 2

/-- Privilege of a session: 1 is the mailbox; none where the session does not exist. -/
def Dev.privOf (d : Dev) (sid : Nat) : Option Nat :=
  if sid = 1 then some d.mbPriv
  else if sid = recoverySid then (if d.upd.recovery then some 1 else none)
  else (d.sup.sessions.find? (fun x => x.id = sid && x.authed)).map (fun x => x.priv)

/-- A command's answer is kept and returned. -/
def Sys.answer (s : Sys) (st : Nat) : Sys × Nat := ({ s with dev := { s.dev with upd := { s.dev.upd with answer := st } } }, st)

/-- Why a session may not command updates at all: a status of R507. -/
def Dev.updRefused (d : Dev) (sid : Nat) : Nat :=
  if !d.sup.ready then 0x0A
  else match d.privOf sid with
    | none => 0x11
    | some p => if p = 0 then 9 else 0

/-- Why a session may not give a command of the listed states (R529, R530): the lock is another's, or the state is wrong. -/
def Dev.updBarred (d : Dev) (sid : Nat) (states : List Nat) : Nat :=
  if d.updRefused sid ≠ 0 then d.updRefused sid
  else if !states.contains d.upd.state then updSt 0
  else if d.upd.owner ≠ 0 ∧ d.upd.owner ≠ sid then 0x40
  else 0

/-! ### Regions -/

/-- Region that a target is written to: 0 for a profile (R529). -/
def Vault.regionOf (v : Vault) (t : Nat) : Nat :=
  match t with
  | 1 => 7 | 2 => 7 | 3 => 4 - v.bcb.supActive % 2 | 4 => 6 - v.bcb.sigActive % 2 | _ => 0

/-- Bytes of a target downloaded so far, and their replacement. -/
def Vault.staged (v : Vault) (t : Nat) : List Byte :=
  if 5 ≤ t then Tab.get (fun _ => []) v.profiles (v.profKey v.bcb.bank (t - 5) true) else v.image (v.regionOf t)
def Vault.setStaged (v : Vault) (t : Nat) (bs : List Byte) : Vault :=
  if 5 ≤ t then v.setProfile (v.profKey v.bcb.bank (t - 5) true) bs else v.setImage (v.regionOf t) bs
def Vault.markTarget (v : Vault) (t st : Nat) : Vault := if 5 ≤ t then v else v.markSlot (v.regionOf t) st

/-- Bytes that a target's region holds. -/
def Vault.roomOf (v : Vault) (t : Nat) : Nat := if 5 ≤ t then 2 ^ 20 else regionSize (v.regionOf t)

/-- A flash write or read-back error: the region is marked INCOMPLETE (R530). -/
def Sys.flashFails (s : Sys) (t : Nat) : Sys × Nat := ({ s with vault := s.vault.markTarget t 1 }).answer (updSt 4)

/-! ### OPEN, CHUNK, COPY, FINISH -/

/-- OPEN: the lock is taken and the region erased (R529). -/
def Sys.updOpen (s : Sys) (sid t : Nat) (flashErr : Bool) : Sys × Nat :=
  let u := s.dev.upd
  if s.dev.updRefused sid ≠ 0 then s.answer (s.dev.updRefused sid)
  else if t = 0 ∨ 8 < t then s.answer 5
  else if u.recovery ∧ 3 < t then s.answer 0x0A
  else if u.owner ≠ 0 ∧ u.owner ≠ sid then s.answer 0x40
  else if u.owner = sid then s.answer (updSt 0)
  else if t ≤ 4 ∧ !u.recovery ∧ s.vault.bcb.trial.isSome then s.answer (updSt 1)
  else if u.state ≠ 0 then s.answer (updSt 0)
  else if flashErr then s.flashFails t
  else
    let d := { s.dev with upd := { u with state := 1, owner := sid, target := t, got := 0, image := [], badWrite := false } }
    if u.recovery then ({ s with dev := d }).answer 0
    else
      let v := { ((s.vault.setStaged t []).markTarget t 1) with begun := t }
      ({ dev := d, vault := v } : Sys).answer 0

/-- The next bytes of an image are programmed, or kept by the recovery loader (R530, R536). -/
def Sys.program (s : Sys) (off : Nat) (data : List Byte) (flashErr : Bool) : Sys × Nat :=
  let u := s.dev.upd
  let room := if u.recovery then regionSize u.target else s.vault.roomOf u.target
  if off ≠ u.got then s.answer (updSt 2)
  else if room < u.got + data.length then s.answer (updSt 3)
  else if u.recovery then
    ({ s with dev := { s.dev with upd := { u with got := u.got + data.length, image := u.image ++ data } } }).answer 0
  else if flashErr then s.flashFails u.target
  else
    ({ dev := { s.dev with upd := { u with got := u.got + data.length } }
       vault := s.vault.setStaged u.target (s.vault.staged u.target ++ data) } : Sys).answer 0

/-- CHUNK: a U32 image offset followed by data (R530). -/
def Sys.updChunk (s : Sys) (sid : Nat) (b : List Byte) (flashErr : Bool) : Sys × Nat :=
  let bar := s.dev.updBarred sid [1]
  if bar ≠ 0 then s.answer bar
  else if b.length < 5 ∨ 4096 < b.length then s.answer 4
  else s.program (leAt b 0 4) (b.drop 4) flashErr

/-- COPY: a global address in Pool or DDR5, an image offset and a length (R530, R536). -/
def Sys.updCopy (s : Sys) (sid : Nat) (b : List Byte) (flashErr : Bool) : Sys × Nat :=
  let bar := s.dev.updBarred sid [1]
  let a := leAt b 0 8
  let n := leAt b 12 4
  let inPool := decide (poolBase ≤ a) && decide (a + n ≤ poolBase + 0x8000000)
  let inDdr := decide (ddrBase ≤ a) && decide (a + n ≤ ddrBase + s.dev.visible)
  if bar ≠ 0 then s.answer bar
  else if b.length ≠ 16 then s.answer 4
  else if 2 ^ 20 < n then s.answer 5
  else if leAt b 8 4 ≠ s.dev.upd.got then s.answer (updSt 2)
  else if !(inPool || (inDdr && !s.dev.upd.recovery)) then s.answer 0x0B
  else
    match s.dev.memRead .supervisor a n with
    | (d, .ok bs) => ({ s with dev := d }).program (leAt b 8 4) bs flashErr
    | (d, _) => ({ s with dev := d }).answer 0x0B

/-- Length that FINISH expects: HDRLEN + LENGTH + SIGLEN, or that of a profile image (R530). -/
def expectedLen (t : Nat) (b : List Byte) : Nat :=
  if 5 ≤ t then 48 + leAt b 4 4 + 5076 else leAt b 6 2 + leAt b 16 4 + leAt b 20 4

/-- FINISH of the recovery loader: the image is verified, and only then written (R536). -/
def Sys.recoveryFinish (s : Sys) (flashErr : Bool) : Sys × Nat :=
  let u := s.dev.upd
  let t := u.target
  let r := s.vault.verifyImage u.image t (regionSize t)
  if expectedLen t u.image ≠ u.got then s.answer (updSt 3)
  else if r ≠ 0 then s.answer (updSt (if r = 6 then 6 else 5))
  else
    let b := s.vault.bcb
    let region := if t = 3 then 3 + b.supActive % 2 else t
    if flashErr then ({ s with vault := s.vault.markSlot region 1 }).answer (updSt 4)
    else
      let b := (if t = 3 then { b with supTrial := 0xFF, sigTrial := 0xFF, cfgTrial := 0xFF, boots := 0, failed := false }
        else b).setSlot region 3
      let v := (s.vault.setImage region u.image).putBcb b
      ({ dev := { s.dev with upd := { u with state := 2 } }, vault := v } : Sys).answer 0

/-- FINISH: the length is checked and the region marked COMPLETE (R530). -/
def Sys.updFinish (s : Sys) (sid : Nat) (flashErr : Bool) : Sys × Nat :=
  let u := s.dev.upd
  let bar := s.dev.updBarred sid [1]
  if bar ≠ 0 then s.answer bar
  else if u.recovery then s.recoveryFinish flashErr
  else if expectedLen u.target (s.vault.staged u.target) ≠ u.got then s.answer (updSt 3)
  else if flashErr then s.flashFails u.target
  else
    let v := { s.vault.markTarget u.target 2 with begun := 0 }
    ({ dev := { s.dev with upd := { u with state := 2 } }, vault := v } : Sys).answer 0

/-! ### VERIFY, CLOSE, CANCEL -/

/-- Verification of what has been downloaded: a REASON code, 0 for passed (R525, R530). -/
def Vault.verifyTarget (v : Vault) (t : Nat) : Nat :=
  if 5 ≤ t then (if v.profSigned (v.staged t) then 0 else 1)
  else if t ≤ 2 then v.verifyImage (v.image 7) t (regionSize t)
  else v.verifyRegion (v.regionOf t)

/-- VERIFY: DOWNLOADED to VERIFIED, or back with a status (R530). -/
def Sys.updVerify (s : Sys) (sid : Nat) : Sys × Nat :=
  let u := s.dev.upd
  let bar := s.dev.updBarred sid [2]
  if bar ≠ 0 then s.answer bar
  else if u.recovery then s.answer 0x0A
  else
    let r := s.vault.verifyTarget u.target
    if r ≠ 0 then s.answer (updSt (if r = 6 then 6 else 5))
    else
      ({ dev := { s.dev with upd := { u with state := 4, backTo := 4 } }
         vault := s.vault.markTarget u.target 3 } : Sys).answer 0

/-- The lock is released and the state is IDLE. -/
def Sys.updIdle (s : Sys) : Sys :=
  let u := s.dev.upd
  { dev := { s.dev with upd := { u with state := 0, owner := 0, target := 0, got := 0, image := [], backTo := 0 } }
    vault := { s.vault with begun := 0 } }

/-- CLOSE (R529, R530). -/
def Sys.updClose (s : Sys) (sid : Nat) : Sys × Nat :=
  let bar := s.dev.updBarred sid [2, 4]
  if bar ≠ 0 then s.answer bar else s.updIdle.answer 0

/-- CANCEL: a download by its session, a schedule by any Integrator session (R530, R532). -/
def Sys.updCancel (s : Sys) (sid : Nat) : Sys × Nat :=
  if s.dev.updRefused sid ≠ 0 then s.answer (s.dev.updRefused sid)
  else if s.dev.upd.state = 5 then s.scheduleOver.answer 0
  else
    let bar := s.dev.updBarred sid [1, 2, 4]
    if bar ≠ 0 then s.answer bar else s.updIdle.answer 0

/-! ### ACTIVATE, CONFIRM, REJECT, ENROLL -/

/-- ACTIVATE in the recovery loader: RECOVERED is recorded and the device restarts (R536, assumption log 45). -/
def Sys.recoveryActivate (s : Sys) : Sys × Nat :=
  let u := s.dev.upd
  let b := s.vault.bcb
  let v := s.vault.putBcb { b with
    tries := 0
    mule := false
    result := resultRecord s.dev.now u.target 7 0 (imgVersion u.image) }
  (({ s with vault := v }).restart).answer 0

/-- ACTIVATE with a TIME80 value: at once for 0, else at the instant (R531, R532). -/
def Sys.updActivate (s : Sys) (sid : Nat) (b : List Byte) (flashErr : Bool) : Sys × Nat :=
  let u := s.dev.upd
  let bar := s.dev.updBarred sid [2, 4]
  if bar ≠ 0 then s.answer bar
  else if b.length ≠ 10 then s.answer 4
  else if u.recovery then (if nsOf80 b = 0 then s.recoveryActivate else s.answer 0x0A)
  else if nsOf80 b = 0 then
    if u.target ≤ 4 ∧ s.dev.pwr.mode = 7 then s.answer 0x20
    else if flashErr ∧ 3 ≤ u.target then s.flashFails u.target
    else
      let s := (s.answer 0).1
      (({ s with dev := { s.dev with upd := { s.dev.upd with badWrite := flashErr, backTo := u.state } } }).beginActivation, 0)
  else if nsOf80 b < s.dev.now + 10 ^ 9 then s.answer (updSt 7)
  else if !s.dev.time.locked then s.answer (updSt 8)
  else if flashErr then s.flashFails u.target
  else
    let v := s.vault.putBcb { s.vault.bcb with schedTarget := u.target, schedTime := b }
    let upd := { u with state := 5, owner := 2 ^ 32 - 1, backTo := u.state, badWrite := false }
    ({ dev := { s.dev with upd := upd }, vault := v } : Sys).answer 0

/-- CONFIRM: the trial image becomes active when its built-in check has passed (R531). -/
def Sys.updConfirm (s : Sys) (sid : Nat) : Sys × Nat :=
  let bar := s.dev.updBarred sid [7]
  if bar ≠ 0 then s.answer bar
  else if s.dev.upd.checked then s.confirm.answer 0
  else s.answer 0x0B

/-- REJECT: a fall-back with reason REJECTED (R531). -/
def Sys.updReject (s : Sys) (sid : Nat) : Sys × Nat :=
  let bar := s.dev.updBarred sid [7]
  if bar ≠ 0 then s.answer bar else (((s.answer 0).1).fallBack 4, 0)

/-- ENROLL: only through the mailbox, at Integrator privilege, in Standby or Maintenance (R524). -/
def Sys.updEnroll (s : Sys) (sid : Nat) (key : List Byte) : Sys × Nat :=
  if s.dev.updRefused sid ≠ 0 then s.answer (s.dev.updRefused sid)
  else if sid ≠ 1 then s.answer 0x0B
  else if key.length ≠ 60 then s.answer 4
  else if s.dev.pwr.mode ≠ 3 ∧ s.dev.pwr.mode ≠ 6 then s.answer 8
  else match s.vault.freeOtp with
    | none => s.answer (updSt 9)
    | some i => ({ s with vault := s.vault.enroll i key }).answer 0

/-- The end of a session releases its update lock (R529). -/
def Dev.dropLock (d : Dev) (sid : Nat) : Dev :=
  if d.upd.owner = sid then { d with upd := { d.upd with owner := 0 } } else d

end Sys2Proof.Machine
end

