-- ==== Sys2Proof/Machine/Fatal.lean ====
section
/-!
DEFINITION. Fatal errors, the dump, Fault Hold and the way out (R531, R537, R545 to R551).
-/
namespace Sys2Proof.Machine

/-! ### The dump's sections (R549) -/

/-- Section 1: the fault ring. -/
def Dev.dumpFaults (d : Dev) : List Byte := (List.range 256).flatMap d.faultAt

/-- Section 2: the memory log with its indices. -/
def Dev.dumpLog (d : Dev) : List Byte :=
  d.regBytes (memBase + 0x10000) 32768 ++ leBytes 4 (d.regN (memBase + 0x40)) ++ leBytes 4 (d.regN (memBase + 0x44))

/-- Section 3: every counter. -/
def Dev.dumpCounts (d : Dev) : List Byte := (List.range 4096).flatMap (fun i => leBytes 8 (d.catValue i))

/-- The words of a window's copy, mapped ones alone, in ascending order. -/
def windowWords (w : RegWin) (copy : Nat) : List Nat :=
  w.rows.flatMap (fun r => (List.range r.count).flatMap (fun i =>
    let a := w.base + w.span * copy + r.off + r.stride * i
    if r.wide then [a, a + 4] else [a]))

/-- Section 4: every mapped register of every unit window. -/
def Dev.dumpRegs (d : Dev) : List Byte :=
  (regWins.filter (fun w => decide (w.base ≠ supBase))).flatMap (fun w =>
    (List.range w.copies).flatMap (fun c => (windowWords w c).flatMap (fun a => leBytes 4 (d.regRead a).toNat)))

/-- Offsets of a core's control registers in order (R115, R121, R162). -/
def crOffsets : List Nat := (List.range 80).map (fun i => 4 * i) |>.filter isCr

/-- Section 5, one core: registers, VRI and PC as words, control registers, the dispatch record; 8 KiB. -/
def Dev.dumpCore (d : Dev) (c : Nat) : List Byte :=
  let k := d.core c
  padTo 8192 ((List.range 56).flatMap (fun n => leBytes 4 (Tab.get (fun _ => (0 : BitVec 32)) k.sregs (if n < 32 then n else n + 8)).toNat)
    ++ (List.range 12).flatMap (fun n => leBytes 8 (Tab.get (fun _ => (0 : BitVec 64)) k.pregs n).toNat)
    ++ (List.range 32).flatMap (fun n => leBytes 64 (k.v n).toNat) ++ (List.range 8).flatMap (fun n => leBytes 192 (k.a n).toNat)
    ++ leBytes 4 k.vri.toNat ++ leBytes 4 k.pc.toNat ++ crOffsets.flatMap (fun o => leBytes 4 (d.mfc c o))
    ++ d.mem.bytes (lmBase c + 0x3FF80) 128)

/-- Section 5: every core. -/
def Dev.dumpCores (d : Dev) : List Byte := (List.range 192).flatMap d.dumpCore

/-- Section 6: Smilda's instance table and SMD_INST_INFO of every slot. -/
def Dev.dumpSlots (d : Dev) : List Byte :=
  (List.range 2048).flatMap (fun i =>
    let s := d.slot i
    Config.instEntry [s.info, s.template, s.lastNode, s.nodeBase, s.t1us, s.t2us, s.notify, s.anchor, s.deadline, s.user])
    ++ (List.range 2048).flatMap (fun i => leBytes 4 (d.slot i).info)

/-- Section 8: the last 16 MiB of the trace ring. -/
def Dev.dumpTrace (d : Dev) : List Byte :=
  let size := 2 ^ (d.regN (obsBase + 0x28) % 32)
  let w := d.reg64 (obsBase + 0x30)
  let n := min w (min size 0x1000000)
  match d.memRead .supervisor (d.reg64 (obsBase + 0x20) + (w - n) % size) (min n (size - (w - n) % size)) with
  | (_, .ok a) =>
    match d.memRead .supervisor (d.reg64 (obsBase + 0x20)) (n - a.length) with
    | (_, .ok b) => a ++ b
    | _ => a
  | _ => []

/-- The sections with their TYPE. -/
def Dev.dumpSections (d : Dev) : List (Nat × List Byte) :=
  [(1, d.dumpFaults), (2, d.dumpLog), (3, d.dumpCounts), (4, d.dumpRegs), (5, d.dumpCores), (6, d.dumpSlots),
    (7, (Config.supDump d.fresh).take 0x800000), (8, d.dumpTrace)]

/-- CRC-32 of R320 over whole bytes, as a field. -/
def dumpCrc (bs : List Byte) : List Byte := crcField 4 (crcFinal 4 (crcFeed 4 0 (crcInit 4) bs))

/-- The directory: TYPE, OFFSET from the header, LENGTH and CRC of each section, from an offset on. -/
def dumpDir : Nat → List (Nat × List Byte) → List Byte
  | _, [] => []
  | off, (ty, bs) :: rest =>
    leBytes 2 ty ++ zeros 2 ++ leBytes 4 off ++ leBytes 4 bs.length ++ dumpCrc bs ++ dumpDir (off + bs.length) rest

/-- The 64-byte header, with its CRC over bytes 0 to 59 and the directory. -/
def Dev.dumpHeader (d : Dev) (status code time seq second mode len nsect : Nat) (dir : List Byte) : List Byte :=
  let h := [0x49, 0x46, 0x44, 0x50] ++ leBytes 2 1 ++ leBytes 1 status ++ leBytes 1 code ++ leBytes 8 time
    ++ leBytes 4 seq ++ leBytes 4 len ++ leBytes 2 nsect ++ leBytes 1 second ++ leBytes 1 mode
    ++ leBytes 4 0x7192001 ++ leBytes 4 d.sup.supVer ++ leBytes 4 d.sup.bundleVer ++ leBytes 1 (d.sup.slot.getD 0xFF) ++ zeros 19
  h ++ dumpCrc (h ++ dir)

/-- Step 4: the dump is written, then written back; a second fatal error ends it at once (R547, R549, assumption log 46). -/
def Dev.writeDump (d : Dev) (first : FatalEvent) (second : Option FatalEvent) (mode : Nat) : Dev :=
  if !d.mem.filled || d.obs.dump ≠ 0 then d
  else
    let mine := fun r : FaultRec => r.code = first.code && r.cls = first.cls && r.num = first.num && !r.acked
    let seq := ((d.obs.faults.find? mine).map (fun r => r.seq)).getD d.obs.faultSeq
    let secs := if second.isSome then [] else d.dumpSections
    let dir := dumpDir (64 + 16 * secs.length) secs
    let body := secs.flatMap (fun p => p.2)
    let len := 64 + dir.length + body.length
    let head := d.dumpHeader (if second.isSome then 2 else 1) first.code d.now seq ((second.map (fun f => f.code)).getD 0) mode len
      secs.length dir
    let d := (d.memWrite .supervisor d.dumpBase (head ++ dir ++ body)).1.writeBack
    let d := d.obsCount 5 1
    { d with obs := { d.obs with dump := 1, dumpLen := len, copying := decide (d.par 0xA0 0x20 0 = 1) } }

/-! ### The sequence (R547) -/

/-- The BCB actions of a fatal error: a trial fails; a download is marked INCOMPLETE and its lock released (R531, R537). -/
def Sys.fatalBcb (s : Sys) : Sys :=
  let u := s.dev.upd
  let v := if u.trial then s.vault.putBcb { s.vault.bcb with failed := true } else s.vault
  if u.state = 1 then
    { dev := { s.dev with upd := { u with state := 0, owner := 0, goal := 0 } }
      vault := { (if u.recovery then v else v.markTarget u.target 1) with begun := 0 } }
  else { dev := { s.dev with upd := { u with goal := 0 } }, vault := v }

/-- Steps 1 to 3: FAULT_N, the mailbox's FAULT, ports off, keys zeroised, the BCB, the fault records. -/
def Sys.fatalFreeze (s : Sys) (events : List FatalEvent) : Sys :=
  let d := { (s.dev.supInt 3) with
    pwr := { s.dev.pwr with faultLow := true, leaving := false, entering := [], dormStep := none }
    cal := { s.dev.cal with trimRun := none } }
  let d := (d.powerPorts (fun _ => false)).zeroiseAll
  let s := ({ s with dev := d }).fatalBcb
  let d := events.foldl (fun (d : Dev) (f : FatalEvent) => d.fault f.code 2 f.cls f.num f.detail) s.dev
  { s with dev := { d with obs := { d.obs with fatal := [] } } }

/-- FATAL_ERROR: the dump routine handles the fatal errors raised; in Fault Hold they are only recorded (R547, R550). -/
def Sys.fatalError (s : Sys) : Sys :=
  match s.dev.obs.fatal with
  | [] => s
  | f :: rest =>
    if s.dev.pwr.mode = 0 ∨ s.dev.pwr.thermTrip then s
    else if s.dev.pwr.mode = 7 then
      let d := (f :: rest).foldl (fun (d : Dev) (f : FatalEvent) => d.fault f.code 2 f.cls f.num f.detail) s.dev
      { s with dev := { d with obs := { d.obs with fatal := [] } } }
    else
      let mode := s.dev.pwr.mode
      let s := s.fatalFreeze (f :: rest)
      let d := s.dev.writeDump f rest.head? mode
      { s with dev := d.setMode 7 }

/-- DUMP_FLASH_COPY: the dump's LENGTH, rounded up to 64 KiB, is in flash (R547, R548). -/
def Sys.dumpCopy (s : Sys) : Sys :=
  if !s.dev.obs.copying then s
  else
    match s.dev.memRead .supervisor s.dev.dumpBase (ceilDiv s.dev.obs.dumpLen 65536 * 65536) with
    | (d, .ok bs) =>
      { dev := { d with obs := { d.obs with copying := false, dump := 2 } }, vault := { s.vault with dump := bs } }
    | (d, _) => { s with dev := { d with obs := { d.obs with copying := false } } }

/-- DUMP_RELEASE: a write to P 0xA0.0022 releases the dump and its copy (R548). -/
def Sys.dumpRelease (s : Sys) : Sys :=
  { dev := { s.dev with obs := { s.dev.obs with dump := 0, copying := false, dumpLen := 0 } }
    vault := { s.vault with dump := [] } }

/-- RESTART: a write to P 0xA0.0004 leaves Fault Hold for Boot, unless the flash copy runs (R550). -/
def Sys.faultRestart (s : Sys) : Sys × Nat :=
  if s.dev.pwr.mode ≠ 7 ∨ s.dev.pwr.thermTrip then (s, 0x20)
  else if s.dev.obs.copying then (s, 0x21)
  else (s.restart, 0)

/-- A fatal error that is raised from outside: the CODEs of R545 with their SOURCE. Nothing is watched in Cold. -/
def Dev.fatalEvent (d : Dev) (code cls num detail : Nat) : Dev :=
  if d.pwr.mode = 0 || d.pwr.thermTrip then d else d.raiseFatal code cls num detail

end Sys2Proof.Machine
end

