-- ==== Sys2Proof/Machine/DictWrite.lean ====
section
/-!
DEFINITION. Writing the parameter dictionary: commands, stored values and what follows from them (R360, R411, R427, R439, R457,
R489, R498, R504, R517, R530, R552).
-/
namespace Sys2Proof.Machine

open Sys2Proof.Config (PItem)

/-- Who asks: the session, and its privilege; session 1 is the mailbox. -/
structure Asker where
  sid  : Nat
  priv : Nat
  deriving DecidableEq, Repr

/-- A credential is replaced, through the mailbox alone (R499, R504). -/
def Sys.setCred (s : Sys) (w : Asker) (e : Nat) (v : List Byte) : Sys × Nat :=
  if w.sid ≠ 1 then (s, 0x0B)
  else ({ s with dev := { s.dev with sup := { s.dev.sup with
    creds := Tab.put (fun _ => zeros 32) s.dev.sup.creds e v } } }, 0)

/-- A mode request; what waits for Standby may then go on (R457). -/
def Sys.modeCommand (s : Sys) (t src : Nat) : Sys × Nat :=
  let (d, st) := s.dev.modeRequest t src
  (({ s with dev := d }).goalNext, st)

/-- The commands of the catalogue: WO items (R411, R457, R489, R517, R524, R529 to R532, R544, R545, R548, R550). -/
def Sys.command (s : Sys) (w : Asker) (p : PItem) (e : Nat) (v : List Byte) : Sys × Nat :=
  match p.area, p.item with
  | 0, 0x22 => s.setCred w e v
  | 1, 1 => s.modeCommand (leNat v) (if w.sid = 1 then 4 else 3)
  | 2, 0x10 => s.profileLoad (leNat v)
  | 0x11, 1 =>
    let (d, st) := s.dev.trimRequest (leNat v)
    ({ s with dev := d }, st)
  | 0x20, 4 =>
    if leNat v = 0 then (s, 0x0B)
    else
      let (d, ok) := s.dev.acceptStep
      ({ s with dev := d }, if ok then 0 else 0x0B)
  | 0x80, 0x10 => s.updOpen w.sid (leNat v) false
  | 0x80, 0x11 => s.updChunk w.sid v false
  | 0x80, 0x12 => s.updCopy w.sid v false
  | 0x80, 0x15 => s.updActivate w.sid v false
  | 0x80, 0x30 => s.updEnroll w.sid v
  | 0xA0, 3 => ({ s with dev := s.dev.ackFaults (leNat v) }, 0)
  | 0xA0, 4 => s.faultRestart
  | 0xA0, 5 => ({ s with dev := s.dev.fatalEvent 0x87 12 0 0 }, 0)
  | 0xA0, 0x22 => (s.dumpRelease, 0)
  | _, _ => (s, 0)

/-- What follows at once from a stored value: time registers, retirement, observation, a key slot's owner, MACsec thresholds,
calibration targets (R360, R395, R427, R439, R490, R552). -/
def Dev.valueEffect (d : Dev) (old : Dev) (a i e : Nat) : Dev :=
  if a = 0x20 then (if i = 0x50 then d.commitTable (d.param 0x20 0x50 0) else d.applyTimeItem i e)
  else if a = 0x60 ∧ 0x10 ≤ i ∧ i ≤ 0x12 then d.applyRetire
  else if a = 0x90 ∧ 0x100 ≤ i then d.applyObs
  else if a = 0x70 ∧ 0x12 ≤ i ∧ i ≤ 0x15 then
    (if old.par a i e = d.par a i e then d else d.zeroiseSlot (256 * (i - 0x12) + e))
  else if a = 0x30 ∧ i = 0x21 then
    { d with fhn := { d.fhn with pnSet := if d.fhn.pnSet.contains e then d.fhn.pnSet else d.fhn.pnSet ++ [e] } }
  else if a = 0x11 ∧ i = 0x13 then d.calRefresh
  else d

/-- An accepted value replaces the current one; a PERSIST value is stored in flash first (R498). -/
def Sys.assign (s : Sys) (p : PItem) (e : Nat) (v : List Byte) : Sys :=
  let vault := if p.persist then s.vault.store (paramKey p.area p.item e) v else s.vault
  { dev := (s.dev.setParam p.area p.item e v).valueEffect s.dev p.area p.item e, vault := vault }

/-- A whole value is written: a command is executed, any other value is stored (R497, R498). -/
def Sys.writeValue (s : Sys) (w : Asker) (p : PItem) (e : Nat) (v : List Byte) : Sys × Nat :=
  if p.acc = 3 then s.command w p e v
  else
    let st := s.dev.ownRule p v
    if st ≠ 0 then (s, st) else (s.assign p e v, 0)

/-- One record of a SET or COMMAND, with the session's held segments: status, state, held segments. -/
def Sys.writeRecord (s : Sys) (w : Asker) (held : Option HeldBlob) (r : NapRec) : Sys × Nat × Option HeldBlob :=
  match s.dev.mayWrite w.priv r with
  | (st, none) => (s, st, held)
  | (_, some p) =>
    match recordValue held p r with
    | (st, held, none) => (s, st, held)
    | (_, held, some v) =>
      let (s, st) := s.writeValue w p r.elem v
      (s, st, held)

/-- A SET's first pass: every record is checked against the state before the request (R506). -/
def Sys.checkRecords (s : Sys) (w : Asker) : Option HeldBlob → List NapRec → List Nat
  | _, [] => []
  | held, r :: rs =>
    match s.writeRecord w held r with
    | (_, st, held) => st :: s.checkRecords w held rs

/-- A SET's second pass: every record is applied in order (R506). -/
def Sys.applyRecords (s : Sys) (w : Asker) : Option HeldBlob → List NapRec → Sys × List Nat × Option HeldBlob
  | held, [] => (s, [], held)
  | held, r :: rs =>
    match s.writeRecord w held r with
    | (s, st, held) =>
      let (s, sts, held) := s.applyRecords w held rs
      (s, st :: sts, held)

/-- A SET: all records, or none; the statuses and the segments that stay held (R502, R506). -/
def Sys.setAll (s : Sys) (w : Asker) (held : Option HeldBlob) (rs : List NapRec) : Sys × List Nat × Option HeldBlob :=
  let held := match held with
    | some h => if rs.any (fun r => r.area = h.area && r.item = h.item && r.elem = h.elem) then some h else none
    | none => none
  let sts := s.checkRecords w held rs
  if sts.any (fun st => decide (st ≠ 0)) then (s, sts, none)
  else
    let (s', sts, held) := s.applyRecords w held rs
    if sts.any (fun st => decide (st ≠ 0)) then (s, sts, none) else (s', sts, held)

/-- The first status that is not OK (R506). -/
def firstStatus (sts : List Nat) : Nat := (sts.find? (fun st => decide (st ≠ 0))).getD 0

end Sys2Proof.Machine
end

