-- ==== Sys2Proof/Machine/Nap.lean ====
section
/-!
DEFINITION. The Nintober Access Protocol and the mailbox: messages, sessions, operations, BAR0 and BAR4 (R500 to R513, R518, R536).
-/
namespace Sys2Proof.Machine

/-! ### Messages (R501, R502) -/

/-- A message's header with its records. -/
structure NapMsg where
  op     : Nat
  flags  : Nat
  sess   : Nat
  seq    : Nat
  recs   : List NapRec
  macced : Bool
  deriving DecidableEq, Repr

/-- Fewest and most records of an OP (R503); none for an OP that is not a request. -/
def opCount (op : Nat) : Option (Nat × Nat) :=
  match op with
  | 1 => some (0, 0) | 2 => some (1, 1) | 3 => some (0, 0) | 4 => some (0, 0) | 0x10 => some (1, 255) | 0x11 => some (1, 255)
  | 0x12 => some (1, 1) | 0x13 => some (1, 255) | 0x14 => some (1, 1) | _ => none

/-- Reserved fields of a request's record are 0; a GET may carry a segment header for OFFSET (R502, assumption log 43). -/
def recOk (op : Nat) (r : NapRec) : Bool :=
  r.rst = 0 && (!(op = 0x10 || op = 0x13 || op = 0x14) || (r.ty = 0 && (r.val.isEmpty || (op = 0x10 && r.val.length = 4))))

/-- A request's message, or none where it is malformed (R501, R502, R507). -/
def napParse (b : List Byte) : Option NapMsg :=
  let op := leAt b 1 1
  let flags := leAt b 2 2
  let count := leAt b 14 2
  let macLen := 16 * (flags % 2)
  match opCount op with
  | none => none
  | some (lo, hi) =>
    if b.length < 16 + macLen ∨ leAt b 0 1 ≠ 1 ∨ 1 < flags ∨ leAt b 12 2 ≠ 0 ∨ count < lo ∨ hi < count then none
    else match parseRecs count ((b.drop 16).take (b.length - 16 - macLen)) with
      | some (rs, []) =>
        if rs.all (recOk op) then some ⟨op, flags, leAt b 4 4, leAt b 8 4, rs, decide (macLen = 16)⟩ else none
      | _ => none

/-- A response without MAC: OP with bit 7, and the request's SEQ. -/
def napReply (op sess seq st : Nat) (recs : List NapRec) : List Byte :=
  napHeader (op ||| 0x80) 0 sess seq st recs.length ++ recs.flatMap NapRec.bytes

/-- A response of a session, with its MAC where the session carries one (R504). -/
def Session.reply (s : Session) (op seq st : Nat) (recs : List NapRec) : List Byte :=
  s.seal (napHeader (op ||| 0x80) (b2n s.macced) s.id seq st recs.length ++ recs.flatMap NapRec.bytes)

/-! ### GET, DESCRIBE and LIST (R503, R506) -/

/-- One record of a GET: status, the item's type and its whole value (R497, R506). -/
def Sys.getRecord (s : Sys) (r : NapRec) : Nat × Nat × List Byte :=
  match s.dev.lookup r.area r.item r.elem with
  | (st, none) => (st, 0, [])
  | (_, some p) => if p.acc = 3 then (7, 0, []) else (0, p.ty, s.value r.area r.item r.elem)

/-- The records of a GET within `room` bytes for BLOB data; none where even their headers do not fit (R502, R507). -/
def getFit : Nat → List (NapRec × Nat × Nat × List Byte) → Option (List NapRec)
  | _, [] => some []
  | room, (r, st, ty, v) :: rest =>
    if ty ≠ 9 then
      match getFit room rest with
      | none => none
      | some out => some (⟨r.area, r.elem, r.item, ty, st, v⟩ :: out)
    else if room < 8 then none
    else
      let off := segOff r.val
      let n := min (v.length - off) (room / 8 * 8 - 4)
      match getFit (room - up8 (n + 4)) rest with
      | none => none
      | some out => some (⟨r.area, r.elem, r.item, ty, st, blobValue off v.length (slice v off n)⟩ :: out)

/-- GET: status and records; `limit` is what the response may hold, MAC included. -/
def Sys.napGet (s : Sys) (rs : List NapRec) (limit : Nat) : Nat × List NapRec :=
  let got := rs.map (fun r => (r, s.getRecord r))
  let fixed := got.foldl (fun n (x : NapRec × Nat × Nat × List Byte) => n + 8 + (if x.2.2.1 = 9 then 0 else up8 x.2.2.2.length)) 16
  if limit < fixed then (0x16, [])
  else match getFit (limit - fixed) got with
    | none => (0x16, [])
    | some out => (firstStatus (got.map (fun x => x.2.1)), out)

/-- The 24 bytes that DESCRIBE gives of an item (R496, R503). -/
def describeBytes (p : Config.PItem) : List Byte :=
  leBytes 1 p.ty ++ leBytes 1 p.acc ++ leBytes 1 0 ++ leBytes 1 p.wpriv ++ leBytes 1 (b2n p.persist) ++ zeros 3
    ++ leBytes 2 p.size ++ leBytes 2 p.count ++ zeros 4 ++ leBytes 8 p.dflt

/-- DESCRIBE. -/
def Sys.napDescribe (s : Sys) (rs : List NapRec) (limit : Nat) : Nat × List NapRec :=
  let out := rs.map (fun r =>
    match s.dev.lookup r.area r.item r.elem with
    | (st, none) => (⟨r.area, r.elem, r.item, 0, st, []⟩ : NapRec)
    | (_, some p) => ⟨r.area, r.elem, r.item, p.ty, 0, describeBytes p⟩)
  if limit < 16 + (out.flatMap NapRec.bytes).length then (0x16, []) else (firstStatus (out.map (fun r => r.rst)), out)

/-- Every item of an area, in ascending order. -/
def itemsOf (a : Nat) : List Config.PItem :=
  let extra := if unitArea a then (Config.unitItems.map (fun u => u.attr)).filter (fun p => p.area = a) else []
  (areaItems a ++ extra).mergeSort (fun p q => decide (p.item ≤ q.item))

/-- LIST: the items of an area from ITEM on, as many as fit. -/
def Sys.napList (s : Sys) (r : NapRec) (limit : Nat) : Nat × List NapRec :=
  if 0xF0 ≤ r.area then (2, [])
  else if !isArea r.area then (1, [])
  else if s.dev.unserved r.area then (0x0A, [])
  else
    let its := (itemsOf r.area).filter (fun p => decide (r.item ≤ p.item) && (!s.dev.upd.recovery || recoveryItem p.area p.item))
    (0, (its.take (min 255 ((limit - 16) / 8))).map (fun p => ⟨r.area, 0, p.item, p.ty, 0, []⟩))

/-! ### Executing a request (R503, R506) -/

/-- A record of a SET's or COMMAND's response: its RSTATUS, the value absent (assumption log 84). -/
def echoed (r : NapRec) (st : Nat) : NapRec := { r with rst := st, val := [] }

/-- COMMAND: exactly one record, naming a WO item; its BLOB comes whole (R503). -/
def Sys.napCommand (s : Sys) (w : Asker) (r : NapRec) : Sys × Nat × List NapRec :=
  match s.dev.lookup r.area r.item r.elem with
  | (st, none) => (s, st, [echoed r st])
  | (_, some p) =>
    if p.acc ≠ 3 then (s, 0x10, [echoed r 0x10])
    else match s.writeRecord w none r with
      | (s', st, none) => (s', st, [echoed r st])
      | (_, _, some _) => (s, 4, [echoed r 4])

/-- The operations that work on the dictionary: the state, STATUS, the records and the segments held. -/
def Sys.operate (s : Sys) (w : Asker) (held : Option HeldBlob) (op : Nat) (rs : List NapRec) (limit : Nat) :
    Sys × Nat × List NapRec × Option HeldBlob :=
  match op with
  | 0x10 => let (st, out) := s.napGet rs limit; (s, st, out, none)
  | 0x11 =>
    let (s', sts, held) := s.setAll w held rs
    (s', firstStatus sts, (rs.zip sts).map (fun p => echoed p.1 p.2), held)
  | 0x12 =>
    match rs with
    | r :: _ => let (s', st, out) := s.napCommand w r; (s', st, out, none)
    | [] => (s, 0x10, [], none)
  | 0x13 => let (st, out) := s.napDescribe rs limit; (s, st, out, none)
  | 0x14 =>
    match rs with
    | r :: _ => let (st, out) := s.napList r limit; (s, st, out, none)
    | [] => (s, 0x10, [], none)
  | _ => (s, 0, [], none)

/-! ### Sessions (R504, R505, R512) -/

/-- A session of NAP, and its replacement; the mailbox is session 1. -/
def Dev.session (d : Dev) (id : Nat) : Option Session := d.sup.sessions.find? (fun x => x.id = id)
def Dev.putSession (d : Dev) (x : Session) : Dev :=
  if x.id = 1 then { d with sup := { d.sup with mb := x } }
  else { d with sup := { d.sup with sessions := d.sup.sessions.map (fun y => if y.id = x.id then x else y) } }

/-- A session closes: its held segments and its update lock go with it (R504, R529); the mailbox falls back to its privilege. -/
def Dev.closeSession (d : Dev) (id : Nat) : Dev :=
  if id = 1 then
    let m := d.sup.mb
    { d with sup := { d.sup with mb := { m with authed := false, priv := 0, blob := none, chal := [] } } }
  else { (d.dropLock id) with sup := { d.sup with sessions := d.sup.sessions.filter (fun x => decide (x.id ≠ id)) } }

/-- 60 s in ns (R504). -/
def sixty : Nat := 60 * 10 ^ 9

/-- Sessions without a valid message for 60 s close (R504). -/
def Dev.expireSessions (d : Dev) : Dev :=
  (d.sup.sessions.filter (fun x => decide (sixty ≤ d.nsSince x.valid))).foldl (fun (d : Dev) x => d.closeSession x.id) d

/-- A source is blocked (R504). -/
def Dev.isBlocked (d : Dev) (src : Nat) : Bool :=
  d.sup.blocked.any (fun b => b.1 = src && decide (d.nsSince b.2 < sixty))

/-- An AUTH_FAIL result: counted; the third from one source within 60 s blocks it (R504). -/
def Dev.authFails (d : Dev) (src : Option Nat) : Dev :=
  let d := d.catCount 0xD01 1
  match src with
  | none => d
  | some a =>
    let recent := d.sup.fails.filter (fun f => decide (d.nsSince f.2 < sixty))
    let recent := recent ++ [(a, d.time.raw)]
    if 3 ≤ (recent.filter (fun f => f.1 = a)).length then
      { d with sup := { d.sup with
        fails := recent.filter (fun f => decide (f.1 ≠ a))
        blocked := d.sup.blocked.filter (fun b => decide (b.1 ≠ a)) ++ [(a, d.time.raw)] } }
    else { d with sup := { d.sup with fails := recent } }

/-- A challenge: the persisted count, then device time; never issued twice (R504). -/
def Sys.newChallenge (s : Sys) : Sys × List Byte :=
  let n := s.vault.chal + 1
  ({ s with vault := { s.vault with chal := n } }, leBytes 8 n ++ leBytes 8 s.dev.now)

/-- The record that carries a challenge. -/
def chalRecord (c : List Byte) : NapRec := ⟨0, 0, 0, 9, 0, blobValue 0 16 c⟩

/-- SESSION_OPEN on NAP (R503, R504): the state and the answer. -/
def Sys.napOpen (s : Sys) (src : Nat) (m : NapMsg) : Sys × List Byte :=
  let priv := m.seq % 256
  let no := fun (s : Sys) (st : Nat) => (s, napReply 1 m.sess m.seq st [])
  if m.sess ≠ 0 ∨ m.macced ∨ 2 < priv then no s 0x10
  else if priv = 2 then no { s with dev := s.dev.authFails (some src) } 0x13
  else if 16 ≤ s.dev.sup.sessions.length then no s 0x15
  else
    let id := s.dev.sup.nextId
    let openIt := decide (priv = 0) && decide (s.dev.par 0 0x20 0 = 1)
    let (s, c) := if openIt then (s, []) else s.newChallenge
    let x : Session := { id := id, src := src, asked := priv, authed := openIt, chal := c, valid := s.dev.time.raw }
    let next := if id + 1 < 2 ^ 32 then id + 1 else 0x100
    ({ s with dev := { s.dev with sup := { s.dev.sup with sessions := s.dev.sup.sessions ++ [x], nextId := next } } },
      napReply 1 id m.seq 0 (if openIt then [] else [chalRecord c]))

/-- SESSION_OPEN on the mailbox gives a challenge for session 1 (R512). -/
def Sys.mbOpen (s : Sys) (m : NapMsg) : Sys × List Byte :=
  let priv := m.seq % 256
  if (m.sess ≠ 0 ∧ m.sess ≠ 1) ∨ 2 < priv then (s, napReply 1 m.sess m.seq 0x10 [])
  else if priv = 2 then ({ s with dev := s.dev.authFails none }, napReply 1 m.sess m.seq 0x13 [])
  else
    let (s, c) := s.newChallenge
    ({ s with dev := s.dev.putSession { s.dev.sup.mb with asked := priv, chal := c } }, napReply 1 1 m.seq 0 [chalRecord c])

/-- AES-256-CMAC of a message under a credential: 16 bytes (R504). -/
def credMac (k msg : List Byte) : List Byte := ofNats (beN 16 (cmac (aesKeys (toNats k)) (toNats msg) (8 * msg.length)))

/-- What a credential signs for a session (R504). -/
def Session.proof (x : Session) : List Byte := x.chal ++ leBytes 4 x.id ++ leBytes 1 x.asked

/-- SESSION_AUTH: the session holds its privilege on a match; a failure closes it (R504). -/
def Sys.napAuth (s : Sys) (src : Option Nat) (x : Session) (m : NapMsg) : Sys × List Byte :=
  match m.recs with
  | r :: _ =>
    if r.ty ≠ 9 ∨ r.val.length ≠ 20 ∨ segOff r.val ≠ 0 ∨ segTotal r.val ≠ 16 then (s, napReply 2 x.id m.seq 0x10 [])
    else
      let k := Tab.get (fun _ => zeros 32) s.dev.sup.creds x.asked
      if k.all (fun b => decide (b = 0)) || decide (credMac k x.proof ≠ segData r.val) then
        let d := s.dev.authFails src
        ({ s with dev := d.closeSession x.id }, napReply 2 x.id m.seq 0x13 [])
      else
        let key := (credMac k (x.proof ++ [0x4B])).take 16
        let y := { x with
          priv := x.asked
          authed := true
          macced := decide (x.id ≠ 1)
          key := key
          seq := 0
          chal := []
          valid := s.dev.time.raw }
        ({ s with dev := s.dev.putSession y }, y.reply 2 m.seq 0 [])
  | [] => (s, napReply 2 x.id m.seq 0x10 [])

/-- A request of an authenticated session whose SEQ is next: executed, answered, and the answer kept (R505, R506). -/
def Sys.execute (s : Sys) (x : Session) (priv : Nat) (m : NapMsg) (raw : List Byte) (limit : Nat) : Sys × List Byte :=
  let room := limit - 16 * b2n x.macced
  let (s', st, out, held) := s.operate ⟨x.id, priv⟩ x.blob m.op m.recs room
  let resp := x.reply m.op m.seq st out
  let y := if x.id = 1 then s'.dev.sup.mb else (s'.dev.session x.id).getD x
  let y := { y with seq := m.seq, lastReq := raw, lastResp := resp, blob := held, valid := s.dev.time.raw }
  let d := if s'.dev.sup.starts = s.dev.sup.starts then s'.dev.putSession y else s'.dev
  ({ s' with dev := if m.op = 3 then d.closeSession x.id else d }, resp)

/-- SEQ is the previous one with identical bytes, or the next one (R505). -/
def Sys.sequenced (s : Sys) (x : Session) (priv : Nat) (m : NapMsg) (raw : List Byte) (limit : Nat) : Sys × List Byte :=
  if m.seq = x.seq && decide (x.lastReq = raw) && !x.lastReq.isEmpty then
    ({ s with dev := s.dev.putSession { x with valid := s.dev.time.raw } }, x.lastResp)
  else if m.seq ≠ (x.seq + 1) % 2 ^ 32 then (s, x.reply m.op m.seq 0x12 [])
  else s.execute x priv m raw limit

/-- The MAC of a message under a session's key holds (R504). -/
def macOk (x : Session) (raw : List Byte) : Bool :=
  decide (napMac x.key (raw.take (raw.length - 16)) = raw.drop (raw.length - 16))

/-- A message of a NAP session (R504, R505). -/
def Sys.onSession (s : Sys) (src : Nat) (m : NapMsg) (raw : List Byte) : Sys × List Byte :=
  match s.dev.session m.sess with
  | none => (s, napReply m.op m.sess m.seq 0x11 [])
  | some x =>
    if !x.authed then
      if m.op = 2 ∧ !m.macced then s.napAuth (some src) x m else (s, napReply m.op m.sess m.seq 0x11 [])
    else if m.macced ≠ x.macced || (x.macced && !macOk x raw) then (s, napReply m.op m.sess m.seq 0x14 [])
    else if m.op = 2 then (s, x.reply 2 m.seq 0x10 [])
    else s.sequenced x x.priv m raw 1400

/-- The recovery loader serves without sessions, at Integrator privilege (R536). -/
def Sys.onRecovery (s : Sys) (m : NapMsg) : Sys × List Byte :=
  if m.op ≤ 4 ∨ m.macced then (s, napReply m.op m.sess m.seq (if m.op = 4 then 0 else 0x10) [])
  else
    let (s', st, out, _) := s.operate ⟨recoverySid, 1⟩ none m.op m.recs 1400
    (s', napReply m.op m.sess m.seq st out)

/-- Supervisor serves NAP on the management port: a mode of R513, READY, and the port on (R500, R513, R536). -/
def Dev.napServed (d : Dev) : Bool := d.sup.ready && decide (d.pwr.mode ≠ 0) && decide (d.pwr.mode ≠ 2) && !(d.port 8).off

/-- A request on NAP: the state and the answer, if there is one (R500, R504 to R506, R518). -/
def Sys.napServe (s : Sys) (src : Nat) (raw : List Byte) : Sys × Option (List Byte) :=
  if !s.dev.napServed ∨ 1400 < raw.length ∨ raw.length < 16 then (s, none)
  else
    let s := { s with dev := s.dev.expireSessions.catCount 0xD00 1 }
    let bare := fun (st : Nat) => napReply (leAt raw 1 1) (leAt raw 4 4) (leAt raw 8 4) st []
    if s.dev.isBlocked src then (s, some (bare 0x17))
    else match napParse raw with
      | none => (s, some (bare 0x10))
      | some m =>
        let (s', a) :=
          if s.dev.upd.recovery then s.onRecovery m else if m.op = 1 then s.napOpen src m else s.onSession src m raw
        (s', some a)

/-- A NAP message arrives from a source; the answer goes back to it unless the device has restarted meanwhile (R500, R550). -/
def Sys.napMessage (s : Sys) (src : Nat) (raw : List Byte) : Sys :=
  match s.napServe src raw with
  | (s', none) => s'
  | (s', some a) =>
    if s'.dev.sup.starts ≠ s.dev.sup.starts then s'
    else { s' with dev := { s'.dev with sup := { s'.dev.sup with out := s'.dev.sup.out ++ [⟨src, a⟩] } } }

/-- An operation of the table as a NAP message: byte 1, OP, is the operation's. -/
def Sys.napOp (s : Sys) (op src : Nat) (msg : List Byte) : Sys := s.napMessage src (msg.set 1 (BitVec.ofNat 8 op))

/-- BLOCK_EXPIRY: sources blocked for 60 s are no longer blocked (R504). -/
def Dev.blockExpiry (d : Dev) : Dev :=
  { d with sup := { d.sup with blocked := d.sup.blocked.filter (fun b => decide (d.nsSince b.2 < sixty)) } }

/-! ### The mailbox (R511 to R513) -/

/-- A request in the mailbox: session 1, no MAC, at most 8,192 bytes (R512). -/
def Sys.mbServe (s : Sys) (raw : List Byte) : Sys × List Byte :=
  let s := { s with dev := s.dev.catCount 0xD02 1 }
  let bare := fun (st : Nat) => napReply (leAt raw 1 1) (leAt raw 4 4) (leAt raw 8 4) st []
  match napParse raw with
  | none => (s, bare 0x10)
  | some m =>
    let x := s.dev.sup.mb
    if m.macced then (s, bare 0x10)
    else if m.op = 1 then s.mbOpen m
    else if m.sess ≠ 1 then (s, bare 0x11)
    else if m.op = 2 then (if x.chal.isEmpty then (s, bare 0x11) else s.napAuth none x m)
    else s.sequenced x s.dev.mbPriv m raw 8192

/-- SUP_MB_DOORBELL: the request is served and the response set, or OVERRUN (R512). -/
def Sys.doorbell (s : Sys) (v : Nat) : Sys :=
  let n := v % 2 ^ 14
  if !s.dev.sup.ready ∨ n < 16 ∨ 8192 < n then { s with dev := s.dev.supInt 2 }
  else
    let raw := s.dev.regBytes (supBase + 0x1000) n
    let s := { s with dev := { s.dev with sup := { s.dev.sup with respValid := false } } }
    let (s', a) := s.mbServe raw
    if s'.dev.sup.starts ≠ s.dev.sup.starts then s'
    else
      let d := (s'.dev.setRegBytes (supBase + 0x3000) a).setRegN (supBase + 0xC) a.length
      { s' with dev := ({ d with sup := { d.sup with respValid := true } }).supInt 0 }

/-- SUP_MB_NOTIFY_CI: ignored if it passes PI (R513). -/
def Dev.notifyCi (d : Dev) (v : BitVec 32) : Dev :=
  let ci := d.reg (supBase + 0x24)
  if (v - ci).toNat ≤ (d.reg (supBase + 0x20) - ci).toNat then d.setReg (supBase + 0x24) v else d

/-- The host's requests reach the device: the link is up, outside Cold and Dormant (R455, R509). -/
def Dev.hostLinked (d : Dev) : Bool := d.sup.linkUp && decide (d.pwr.mode ≠ 0) && decide (d.pwr.mode ≠ 2)

/-- A masked MSI-X vector that is pending is sent once its mask is cleared (R511, PCI Express). -/
def Dev.msixUnmask (d : Dev) (a : Nat) : Dev :=
  let o := a - (supBase + 0x8000)
  let v := o / 16
  if supBase + 0x8000 ≤ a ∧ o % 16 = 12 ∧ !bit (d.regN a) 0 ∧ bit (d.regN (supBase + 0x7000 + 4 * (v / 32))) (v % 32) then
    let p := supBase + 0x7000 + 4 * (v / 32)
    (d.setReg p (d.reg p &&& ~~~(BitVec.ofNat 32 (2 ^ (v % 32))))).sendMsix v
  else d

/-- A write of one word of BAR0 (R511 to R513). -/
def Sys.bar0Word (s : Sys) (o : Nat) (v : BitVec 32) : Sys :=
  let a := supBase + o
  if o = 4 then s.doorbell v.toNat
  else if o = 0x24 then { s with dev := s.dev.notifyCi v }
  else if o = 0x1C ∧ 321 < v.toNat % 512 then s
  else
    match regPlace a with
    | none => s
    | some p => { s with dev := (s.dev.plainWrite p a v).msixUnmask a }

/-- A host write to BAR0: whole words, in ascending order (R11, R511). -/
def Sys.bar0Write (s : Sys) (off : Nat) (bs : List Byte) : Sys :=
  if !s.dev.hostLinked then s
  else
    let first := ceilDiv off 4 * 4
    (List.range ((off + bs.length - first) / 4)).foldl (fun (s : Sys) i =>
      let w := first + 4 * i
      if w < 0x10000 then s.bar0Word w (BitVec.ofNat 32 (leAt bs (w - off) 4)) else s) s

/-! ### BAR4 (R510, R536) -/

/-- Global address of a BAR4 offset; none where it is unmapped. -/
def Dev.bar4Addr (d : Dev) (o : Nat) : Option Nat :=
  if o < 0x8000000 then some (poolBase + o)
  else if 0x40000000 ≤ o ∧ o < 0x1000000000 ∧ !d.upd.recovery then
    some (ddrBase + d.regN (supBase + 0x1C) % 512 * 2 ^ 30 + (o - 0x40000000))
  else none

/-- A rejected BAR4 access is counted (R510). -/
def Dev.barErr (d : Dev) : Dev := (d.bump32 (supBase + 0x28)).catCount 0xD03 1

/-- BAR4_ACCESS: a write of bytes, or a read of a number of bytes; the offset is that of its first byte (R510). -/
def Dev.bar4Access (d : Dev) (off : Nat) (wr : Option (List Byte)) (n : Nat) : Dev :=
  if !d.hostLinked then d
  else
    match d.bar4Addr off with
    | none => d.barErr
    | some a =>
      match wr with
      | some bs =>
        match d.memWrite .host a bs with
        | (d, .decode _) => d.barErr
        | (d, _) => d
      | none =>
        match d.memRead .host a n with
        | (d, .decode _) => d.barErr
        | (d, _) => d

end Sys2Proof.Machine
end

