-- ==== Sys2Proof/Machine/Pins.lean ====
section
/-!
DEFINITION. Pins, the PCIe reset, the test port, and the wake from Dormant at the level of the whole device (R470 to R476, R509,
R567, R573, R574).
-/
namespace Sys2Proof.Machine

/-! ### PCIe (R509, R573) -/

/-- The link trains where PCIE_PERST_N is high and the mode and the boot chain permit it. -/
def Dev.linkRelease (d : Dev) : Dev :=
  if (d.pwr.mode = 1 && !d.sup.ready) || (d.upd.recovery && d.upd.bootMode = 2) then d else d.linkTry

/-- PCIE_PERST_N asserted: the link goes down; configuration space and the MSI-X structures are reset. -/
def Dev.perstAssert (d : Dev) : Dev :=
  { d with
    regs := dropRange d.regs (supBase + 0x7000) (supBase + 0x10000)
    sup := { d.sup with perst := true, linkUp := false } }

/-- PCIE_PERST_N released. -/
def Dev.perstRelease (d : Dev) : Dev := ({ d with sup := { d.sup with perst := false } }).linkRelease

/-! ### GPIO (R562, R567) -/

/-- The GPIO levels are sampled while bank B1 is on. -/
def Dev.gpioSample (d : Dev) (levels : BitVec 32) : Dev :=
  if d.pins.b1 then { d with pins := { d.pins with gpioIn := levels } } else d

/-! ### The test port (R574) -/

/-- An IEEE 1149.1 instruction while the TAP is out of Test-Logic-Reset: PORST_N low and TRST_N high; else the TAP is reset. -/
def Dev.tap (d : Dev) (trst : Bool) (f : PinState → PinState) : Dev :=
  if d.pins.porst && trst then { d with pins := f d.pins }
  else { d with pins := { d.pins with jtagIr := 0, jtagData := 0, extest := false } }

/-- BYPASS: a one-bit register that captures 0. -/
def Dev.jtagBypass (d : Dev) (trst : Bool) (tdi : BitVec 32) : Dev :=
  d.tap trst (fun p => { p with jtagIr := 1, jtagData := 2 * tdi.toNat % 2 ^ 32, extest := false })

/-- IDCODE. -/
def Dev.jtagIdcode (d : Dev) (trst : Bool) : Dev :=
  d.tap trst (fun p => { p with jtagIr := 2, jtagData := 0x71920FD3, extest := false })

/-- SAMPLE/PRELOAD: the levels of the balls are captured, the cells are loaded. -/
def Dev.jtagSample (d : Dev) (trst : Bool) (levels tdi : BitVec 128) : Dev :=
  d.tap trst (fun p => { p with jtagIr := 3, jtagData := levels.toNat, preload := tdi.toNat, extest := false })

/-- EXTEST: the cells drive the balls. -/
def Dev.jtagExtest (d : Dev) (trst : Bool) (levels tdi : BitVec 128) : Dev :=
  d.tap trst (fun p => { p with jtagIr := 4, jtagData := levels.toNat, preload := tdi.toNat, extest := true })

/-! ### Dormant (R470 to R476) -/

/-- DORMANT_WAKE: a wake source is active and REFCLK present. `kept`: DDR5 kept its contents; `regBad`: a regulator does not
answer. -/
def Sys.dormantWake (s : Sys) (kept regBad : Bool) : Sys :=
  let d := s.dev
  match d.pwr.wakeSrc with
  | none => s
  | some src =>
    if d.pwr.mode ≠ 2 ∨ !d.time.refclk ∨ d.pwr.wakeStuck then s
    else if regBad then
      let d := d.pwrInt 2
      { s with dev := { d with pwr := { d.pwr with wakeStuck := true, faultLow := true } } }
    else if kept then { s with dev := d.dormWake src }
    else
      let gone := d.pwr.refGone
      let s := ({ s with dev := { d with mem := { d.mem with filled := false } } }).restart
      { s with dev := { s.dev with pwr := { s.dev.pwr with wakeSrc := some src, refGone := gone } } }

/-- DORMANT_ENTRY: the request, then one abort point after another (R470, R473). -/
def Sys.dormantEntry (s : Sys) : Sys :=
  match s.dev.pwr.dormStep with
  | none => if s.dev.sup.ready then { s with dev := (s.dev.modeRequest 2 3).1 } else s
  | some n => ({ s with dev := s.dev.dormNext n }).goalNext

/-- WAKE_N_PULSE_END (R471). -/
def Dev.wakePulseEnd (d : Dev) : Dev := { d with pwr := { d.pwr with wakeLow := false } }

/-- A mode change that the table names, as a request with its refusals (R456, R457). -/
def Sys.modeRow (s : Sys) (t : Nat) : Sys := if s.dev.sup.ready then (s.modeCommand t 3).1 else s

/-- LEAVE_SERVICE: the request, or its end once Smilda has stopped (R457). -/
def Sys.leaveServiceRow (s : Sys) : Sys :=
  if s.dev.pwr.leaving then ({ s with dev := s.dev.leaveService }).goalNext
  else if s.dev.pwr.mode = 4 ∨ s.dev.pwr.mode = 5 then s.modeRow 3 else s

/-- LEAVE_MAINTENANCE: a mode request, or the end of a trim run started from Standby (R456, R489). -/
def Sys.leaveMaintRow (s : Sys) : Sys :=
  if s.dev.pwr.mode ≠ 6 then s
  else if s.dev.cal.trimRun.isSome then ({ s with dev := s.dev.maintEnd }).goalNext
  else s.modeRow 3

/-- LEAN_FULL_SWITCH: a request between the Service modes (R456, R459). -/
def Sys.switchRow (s : Sys) (lean : Bool) : Sys :=
  if s.dev.pwr.mode = 4 ∨ s.dev.pwr.mode = 5 then s.modeRow (if lean then 4 else 5) else s

/-- ENTER_SERVICE: a request in Standby (R456, R457). -/
def Sys.enterServiceRow (s : Sys) (lean : Bool) : Sys :=
  if s.dev.pwr.mode = 3 then s.modeRow (if lean then 4 else 5) else s

end Sys2Proof.Machine
end

