-- ==== Sys2Proof/Machine/RowOps.lean ====
section
/-!
DEFINITION. What the commands of the table do beyond the operations of the units: choosing the oldest waiting item, a register
write as one command, and events that Supervisor serves.
-/
namespace Sys2Proof.Machine

/-! ### Smilda (R39, R44, R60, R62, R66) -/

/-- Smilda consumes its creation and token queues while ENABLE is 1 (R74). -/
def Dev.smdOn (d : Dev) : Bool := bit (d.regN (smdBase + 4)) 0

/-- INSTANCE_CREATE: the next descriptor of the queue named in SMD_CREATE_QUEUE. -/
def Dev.createNext (d : Dev) : Dev :=
  if !d.smdOn then d
  else match d.takeEntry (d.regN (smdBase + 0x40)) with
    | (d, none) => d
    | (d, some (_, bs)) => d.createInst bs

/-- TOKEN_ACCEPT: the oldest token of a source; a token queue's next descriptor. -/
def Dev.acceptNext (d : Dev) (src : TokSrc) : Dev :=
  match src with
  | .tokenQueue k =>
    let r := d.regN (smdBase + 0x44 + 4 * (k % 4))
    if !d.smdOn || !bit r 31 then d
    else match d.takeEntry (r % 2 ^ 18) with
      | (d, none) => d
      | (d, some (_, bs)) => d.acceptToken (leAt bs 0 8) (leAt bs 8 8)
  | _ =>
    match takeFirst (fun t : InTok => decide (t.src = src)) d.smd.tokens with
    | none => d
    | some (t, rest) => ({ d with smd := { d.smd with tokens := rest } }).acceptToken t.tag t.val

/-- COMPLETION_WORD: the oldest word of an engine or mover. -/
def Dev.receiveNext (d : Dev) (cls num : Nat) : Dev :=
  match takeFirst (fun w : Cpl => decide (w.cls = cls ∧ w.unit = num)) d.smd.cpls with
  | none => d
  | some (w, rest) => ({ d with smd := { d.smd with cpls := rest } }).receiveCpl w

/-- TIMER_FIRE: an armed timer whose time has come, and is earlier than the deadline. -/
def Dev.fireAt (d : Dev) (inst node : Nat) : Dev :=
  match d.smd.timers.find? (fun t => decide (t.inst = inst ∧ t.node = node)) with
  | none => d
  | some t =>
    if t.fire ≤ (d.now : Int) ∧ ((d.slot inst).deadline = noDeadline ∨ t.fire < ((d.slot inst).deadline : Int)) then
      d.fireTimer t
    else d

/-- MOVE (R66). -/
def Dev.poolMove (d : Dev) (c p : Nat) : Dev :=
  if d.clusterRetired (c / 8) then d.poolResult true else d.poolLeave c (some p)

/-! ### Unit interrupts (R545) -/

/-- The units that assert an interrupt to Supervisor: register window, and class and number of R358 and R544. -/
def intSources : List (Nat × Nat × Nat) :=
  [(smdBase, 8, 0), (qmgBase, 7, 0)]
    ++ (List.range 32).map (fun m => (bmvBase m, 6, m))
    ++ (List.range 12).map (fun u => (benBase u, 1, u))
    ++ (List.range 12).map (fun u => (decBase u, 2, u))
    ++ (List.range 4).map (fun u => (encBase u, 3, u)) ++ [(codecBase, 3, 4)]
    ++ (List.range 8).map (fun u => (xfuBase u, 4, u))
    ++ (List.range 4).map (fun u => (wbuGBase u, 5, u)) ++ (List.range 4).map (fun u => (wbuRBase u, 5, 4 + u))
    ++ (List.range 64).map (fun u => (cphBase u, 15, 0x100 + u))
    ++ [(fhnBase, 15, 5), (tmuBase, 15, 0), (memBase, 15, 1), (pwrBase, 15, 2), (obsBase, 15, 3)]

/-- UNIT_INT: an asserted interrupt becomes a fault record with INT_STATUS, and the recorded bits are cleared. -/
def Dev.unitInt (d : Dev) (source : Nat) : Dev :=
  match intSources[source]? with
  | none => d
  | some (base, cls, num) =>
    let st := d.reg (base + 0x10)
    if st &&& d.reg (base + 0x14) = 0 then d
    else (d.setReg (base + 0x10) 0).fault 4 0 cls num st.toNat

/-! ### Units -/

/-- Register window of a unit; class 9 is a burst receiver. -/
def unitWin (cls u : Nat) : Nat := if cls = 9 then wbuRBase u else engBase cls u

/-- Class and number of a coding unit: decoders 0 to 11, encoders 12 to 15, the codec 16 (R239). -/
def fecClass (f : Nat) : Nat := if f < 12 then 1 else if f < 16 then 2 else 3
def fecNum (f : Nat) : Nat := if f < 12 then f else if f < 16 then f - 12 else 0

/-- CODING_COMPLETION of a decoder or an encoder. -/
def Dev.codingDone (d : Dev) (encoder : Bool) (u : Nat) : Dev := d.codingComplete (if encoder then 2 else 1) u

/-! ### Queues (R305, R306, R307, R312, R333) -/

/-- HOST_POST. -/
def Dev.hostPost (d : Dev) (q : Nat) (long : Bool) (data : BitVec 512) : Dev :=
  if !d.hostLinked then d else d.hostWrite q 0 (leBytes (if long then 64 else 32) data.toNat)

/-- A doorbell of a core, or of the host through the queue's page. -/
def Dev.ringBell (d : Dev) (q : Nat) (byHost : Bool) (f : Dev → Dev) : Dev :=
  if !byHost then f d
  else if !d.hostLinked then d
  else if !d.hostOk q then d.bump (qmgCnt 11)
  else f d

/-- STALLED_POST: the first held post of a queue; Smilda learns of its job's, and a fronthaul port goes on receiving. -/
def Dev.stalledPost (d : Dev) (q : Nat) : Dev :=
  match d.retryHeld q with
  | (d, none) => d
  | (d, some (h, res)) =>
    match h.job, h.agent with
    | some (cls, u, k), _ => d.jobPosted cls u k res
    | none, .fronthaul p => d.fhDrain p
    | none, _ => d

/-! ### Fronthaul and time -/

/-- SA_INSTALL with its operands. -/
def Dev.saGiven (d : Dev) (p : Nat) (tx : Bool) (sci : BitVec 64) (window : BitVec 32) (an : Fin 4) (key : BitVec 256)
    (xpn : Bool) (ssci : BitVec 32) (salt : BitVec 96) (clear : Bool) : Dev :=
  let i : SaInstall := {
    tx := tx
    sci := sci
    window := window.toNat
    an := an
    key := leBytes 32 key.toNat
    xpn := xpn
    ssci := ssci
    salt := leBytes 12 salt.toNat
    clear := clear }
  d.saInstall p i

/-- PPS_IN rises; its receiver lies in bank B1 (R563). -/
def Dev.ppsEdge (d : Dev) (sub : Nat) : Dev := if d.pins.b1 then d.ppsIn sub else d

/-! ### Cipher pages (R432) -/

/-- A write to a page's registers by a requester that its access list admits. -/
def Dev.onPage (d : Dev) (ag : Agent) (u : Nat) (f : Dev → Dev) : Dev := if d.cphAdmits ag u then f d else d.cphDeny u

/-! ### Supervisor and the host -/

/-- Apply a change of the device. -/
def Sys.onDev (s : Sys) (f : Dev → Dev) : Sys := { s with dev := f s.dev }

/-- ENTER_MAINTENANCE: a request in Standby (R456). -/
def Sys.maintRow (s : Sys) : Sys := if s.dev.pwr.mode = 3 then s.modeRow 6 else s

/-- TRIM_REQUEST: a write of P 0x11.0001 (R489). -/
def Sys.trimRow (s : Sys) (mask : Nat) : Sys :=
  if s.dev.sup.ready then ({ s with dev := (s.dev.trimRequest mask).1 }).goalNext else s

/-- SUP_MB_DOORBELL through BAR0. -/
def Sys.hostDoorbell (s : Sys) (v : Nat) : Sys := if s.dev.hostLinked then s.doorbell v else s

/-- SUP_MB_NOTIFY_CI through BAR0. -/
def Dev.hostNotifyCi (d : Dev) (v : BitVec 32) : Dev := if d.hostLinked then d.notifyCi v else d

/-- PROFILE_LOAD (R515). -/
def Sys.loadRow (s : Sys) (slot : Nat) : Sys := if s.dev.sup.ready then (s.profileLoad slot).1 else s

/-- FABRIC_TIMEOUT: the record's source is the requester, and DETAIL holds the address with the requester above it
(assumption log 51). -/
def Dev.fabricTimeout (d : Dev) (ag : Agent) (a : Nat) : Dev :=
  d.fatalEvent 0x86 ag.code.1 ag.code.2 (a + 2 ^ 40 * ag.word)

/-- What a BAR4 read answers; none where the link is down (R510). -/
def Dev.bar4Answer (d : Dev) (off n : Nat) : Option RResp :=
  if !d.hostLinked then none
  else match d.bar4Addr off with
    | none => some (.decode off)
    | some a => some (d.memRead .host a n).2

end Sys2Proof.Machine
end

