-- ==== Sys2Proof/Machine/State.lean ====
section
/-!
DEFINITION. The machine's state: the commands that wait, the device, and flash and OTP; the reasons a step can stop.
-/
namespace Sys2Proof.Machine

/-- What the last read or write access answered its requester (R18, R348, R510). -/
inductive Reply where
  | none
  | read (r : RResp)
  | write (w : WResp)
  deriving DecidableEq, Repr

/-- The machine: `pending` is the queue of commands, first in, first out. -/
structure State where
  pending : List Instr := []
  dev     : Dev := {}
  vault   : Vault := {}
  reply   : Reply := .none
  deriving DecidableEq, Repr

/-- Reasons to stop with a fault. There is none: wherever the spec describes an error it says what the device does, and that is
the command's effect. -/
inductive Fault where
  deriving DecidableEq, Repr

/-- Reasons to refuse a command. -/
inductive Refusal where
  /-- The command has no meaning in the model yet; raised by Machine/Dispatch.lean alone. Safe. -/
  | notModelled (mnemonic : String)
  /-- No sender can give the command: an agent or token source that does not exist, an operation word that names another
  operation, a length that no access has. Raised by the meanings of commands with such operands. Safe. -/
  | illFormed
  deriving DecidableEq, Repr

/-- The device and its lasting part. -/
def State.sys (s : State) : Sys := ⟨s.dev, s.vault⟩

/-- The machine with a new device part. -/
def State.withDev (s : State) (d : Dev) : State := { s with dev := d }

/-- The machine with a new device and lasting part. -/
def State.withSys (s : State) (y : Sys) : State := { s with dev := y.dev, vault := y.vault }

/-- Right after reset: PORST_N is low and every unit is Off (R455, R571); flash is blank and OTP unprogrammed (assumption
log 47). -/
def State.reset : State :=
  { pending := [], dev := Dev.coldReset {}, vault := {}, reply := .none }

end Sys2Proof.Machine
end

