-- ==== Sys2Proof/WellFormed.lean ====
section
/-!
DEFINITION. Which commands a sender can give: agents and token sources that exist, operation words that name their row's
operation, and lengths of the data an access carries.
-/
namespace Sys2Proof

namespace Machine

/-- The agent exists (R358). -/
def Agent.ok : Agent → Bool
  | .core c => decide (c < 192)
  | .beam e => decide (e < 12)
  | .decoder e => decide (e < 12)
  | .encoder e => decide (e < 5)
  | .xfu u => decide (u < 8)
  | .wake u => decide (u < 8)
  | .mover m => decide (m < 32)
  | .queueMgr => true
  | .smilda => true
  | .fronthaul p => decide (p < 9)
  | .cipher e => decide (e < 12)
  | .host => true
  | .supervisor => true
  | .goat => true
  | .walk => true

/-- The token source exists (R44). -/
def TokSrc.ok : TokSrc → Bool
  | .queue q => decide (q < 2 ^ 18)
  | .engine c u => decide (c < 8) && decide (u < 12)
  | .mover m => decide (m < 32)
  | .smilda => true
  | .core c => decide (c < 192)
  | .edges c => decide (c < 192)
  | .tokenQueue k => decide (k < 4)

/-- The word names the operation (R82, R89 to R91, R128, R130, R139). -/
def names (o : CoreOp) (w : BitVec 32) : Bool := decide (opOf w.toNat = some o)

end Machine

open Machine

/-- A command that a sender can give. -/
def Instr.wf (i : Instr) : Bool :=
  match i with
  | .registerWrite sender _ data => sender.ok && !data.isEmpty && decide (data.length ≤ 64)
  | .instanceCreate => true
  | .tokenAccept src => src.ok
  | .dispatchCommit => true
  | .completionWord _ _ => true
  | .timerFire _ _ => true
  | .sweep => true
  | .smdCancel _ => true
  | .smdTplInval _ => true
  | .smildaEnable => true
  | .smildaDisable => true
  | .clrHwm => true
  | .add _ _ => true
  | .withdraw _ => true
  | .move _ _ => true
  | .unitInt _ => true
  | .alu _ word => names .alu word
  | .addi _ word => names .addi word
  | .andi _ word => names .andi word
  | .ori _ word => names .ori word
  | .xori _ word => names .xori word
  | .shi _ word => names .shi word
  | .mul _ word => names .mul word
  | .cmp _ word => names .cmp word
  | .plog _ word => names .plog word
  | .mvsp _ word => names .mvsp word
  | .mvps _ word => names .mvps word
  | .movw _ word => names .movw word
  | .nop _ word => names .nop word
  | .localLoad _ word => names .load word
  | .localLoadPi _ word => names .loadPi word
  | .localStore _ word => names .store word
  | .localStorePi _ word => names .storePi word
  | .ldgw _ word => names .ldgw word
  | .ldgd _ word => names .ldgd word
  | .stgw _ word => names .stgw word
  | .stgd _ word => names .stgd word
  | .aadd _ word => names .aadd word
  | .br _ word => names .br word
  | .call _ word => names .call word
  | .jr _ word => names .jr word
  | .rpt _ word => names .rpt word
  | .rptr _ word => names .rptr word
  | .take _ word => names .take word
  | .emit _ word => names .emit word
  | .post _ word => names .post word
  | .mfc _ word => names .mfc word
  | .mtc _ word => names .mtc word
  | .reti _ word => names .reti word
  | .trap _ word => names .trap word
  | .fence _ word => names .fence word
  | .fenceI _ word => names .fenceI word
  | .ien _ word => names .ien word
  | .exposedResult _ => true
  | .scoreboardResult _ _ => true
  | .impreciseException _ _ => true
  | .interruptAccept _ => true
  | .timer _ => true
  | .supervisorInterrupt _ => true
  | .vadd _ word => names .vadd word
  | .vadds _ word => names .vadds word
  | .vsub _ word => names .vsub word
  | .vsubs _ word => names .vsubs word
  | .vlog _ word => names .vlog word
  | .vshl _ word => names .vshl word
  | .vshr _ word => names .vshr word
  | .vsar _ word => names .vsar word
  | .vsarr _ word => names .vsarr word
  | .vmin _ word => names .vmin word
  | .vmax _ word => names .vmax word
  | .vabs _ word => names .vabs word
  | .vcls _ word => names .vcls word
  | .vcmp _ word => names .vcmp word
  | .vsel _ word => names .vsel word
  | .vmulq _ word => names .vmulq word
  | .vcmul _ word => names .vcmul word
  | .vcmag _ word => names .vcmag word
  | .vmulw _ word => names .vmulw word
  | .vdot2 _ word => names .vdot2 word
  | .vdot4 _ word => names .vdot4 word
  | .vcmac _ word => names .vcmac word
  | .vcmacb _ word => names .vcmacb word
  | .vcmacbj _ word => names .vcmacbj word
  | .vacrd _ word => names .vacrd word
  | .vld _ word => names .vld word
  | .vldPi _ word => names .vldPi word
  | .vst _ word => names .vst word
  | .vstPi _ word => names .vstPi word
  | .vldg _ word => names .vldg word
  | .vstg _ word => names .vstg word
  | .vgath _ word => names .vgath word
  | .vscat _ word => names .vscat word
  | .vacsv _ word => names .vacsv word
  | .vacld _ word => names .vacld word
  | .vbcast _ word => names .vbcast word
  | .vext _ word => names .vext word
  | .vins _ word => names .vins word
  | .vperm _ word => names .vperm word
  | .vsplit _ word => names .vsplit word
  | .vslide _ word => names .vslide word
  | .lv _ word => names .lv word
  | .crcStartZero _ word => names .crcZero word
  | .crcStartOnes _ word => names .crcOnes word
  | .test _ word => names .test word
  | .kill _ word => names .kill word
  | .inv _ word => names .inv word
  | .invh _ word => names .invh word
  | .demap _ word => names .demap word
  | .topkLargest _ word => names .topkLargest word
  | .topkSmallest _ word => names .topkSmallest word
  | .level1Result _ _ _ => true
  | .level0JobEnd _ _ _ => true
  | .handover _ => true
  | .gram _ _ => true
  | .chol _ _ => true
  | .solve _ _ => true
  | .apply _ _ => true
  | .detect _ _ => true
  | .eq1 _ _ => true
  | .eqm _ _ => true
  | .beamCompletion _ => true
  | .benAbort _ => true
  | .benEnable _ _ => true
  | .ldpcDecode _ _ => true
  | .turboDecode _ _ => true
  | .ldpcEncode _ _ => true
  | .turboEncode _ _ => true
  | .polarEncode _ => true
  | .polarDecode _ => true
  | .reedMullerEncode _ => true
  | .reedMullerDecode _ => true
  | .convolutionalEncode _ => true
  | .convolutionalDecode _ => true
  | .smallBlockEncode _ => true
  | .smallBlockDecode _ => true
  | .codingCompletion encoder num => !encoder || decide (num.val < 4)
  | .codecCompletion => true
  | .fecAbort _ => true
  | .fecEnable _ _ => true
  | .fft _ _ => true
  | .ifft _ _ => true
  | .prach _ _ => true
  | .srs _ _ => true
  | .resample _ _ => true
  | .transformCompletion _ => true
  | .xfuAbort _ => true
  | .xfuEnable _ _ => true
  | .frame _ _ _ => true
  | .frameAndCwTail _ _ _ => true
  | .cwOnly _ _ _ => true
  | .generatorCompletion _ => true
  | .wbuGAbort _ => true
  | .wbuGEnable _ _ => true
  | .symbolRead _ _ _ => true
  | .wbuRStop _ _ => true
  | .wbuREnable _ _ => true
  | .load _ => true
  | .disable _ => true
  | .bind _ => true
  | .clear _ => true
  | .queuePost sender _ _ => sender.ok
  | .qmgPost _ _ => true
  | .hostPost _ _ _ => true
  | .stalledPost _ => true
  | .producerDoorbell _ _ _ => true
  | .consumerDoorbell _ _ _ => true
  | .qmgEnable _ => true
  | .channelChosen _ => true
  | .moverBurst _ _ => true
  | .moverCompletion _ => true
  | .pause _ _ => true
  | .channelPaused _ _ => true
  | .resume _ _ => true
  | .abort _ _ _ => true
  | .bmvEnable _ _ => true
  | .memoryRead sender _ _ => sender.ok
  | .memoryWrite sender _ data => sender.ok && !data.isEmpty && decide (data.length ≤ 256)
  | .octetFlush => true
  | .goat _ => true
  | .logEntry => true
  | .memLogCi sender _ => sender.ok
  | .memRetireEntry _ _ => true
  | .memPoolRetire _ => true
  | .memClusterRetire _ => true
  | .fill => true
  | .frameReceive _ _ _ _ => true
  | .arrivalDescriptor _ => true
  | .ruleCommit => true
  | .linkChange _ _ _ _ => true
  | .launch _ => true
  | .txGated => true
  | .saInstall _ _ _ _ _ _ _ _ _ _ => true
  | .fhnEnable _ => true
  | .tmuMeasCtl _ => true
  | .ppsIn _ => true
  | .ppsInMissing => true
  | .measTimeout => true
  | .holdLimitExpiry => true
  | .acceptStep => true
  | .refclkLoss => true
  | .refclkReturn => true
  | .rtcRateWindow _ => true
  | .ppsOut => true
  | .ppsOutEnd => true
  | .tddEvent => true
  | .tddCommit => true
  | .tddTakeEffect => true
  | .cphSubmit sender _ _ => sender.ok
  | .cipherTake _ => true
  | .aesCtr _ _ => true
  | .aesGcm _ _ => true
  | .aesCmac _ _ => true
  | .nea1 _ _ => true
  | .nia1 _ _ => true
  | .nea2 _ _ => true
  | .nia2 _ _ => true
  | .nea3 _ _ => true
  | .nia3 _ _ => true
  | .cipherCompletion _ => true
  | .keyLoad sender _ _ _ => sender.ok
  | .zeroise sender _ => sender.ok
  | .enterService _ => true
  | .leanFullSwitch _ => true
  | .leaveService => true
  | .dormantEntry => true
  | .dormantWake _ _ => true
  | .enterMaintenance => true
  | .leaveMaintenance => true
  | .autoLean _ _ => true
  | .nap _ _ => true
  | .napWake _ => true
  | .dozeEntry _ => true
  | .dozeWake _ => true
  | .wakeN => true
  | .rtcAlarm => true
  | .sensorRead temps volts => decide (temps.length = 64) && decide (volts.length = 16)
  | .pmbusTelemetry _ => true
  | .avsReadback _ => true
  | .runInterval => true
  | .calibrationStep _ _ => true
  | .forcedStep _ _ => true
  | .trimRequest _ => true
  | .sessionOpen _ msg => decide (msg[1]? = some 1)
  | .sessionAuth _ msg => decide (msg[1]? = some 2)
  | .sessionClose _ msg => decide (msg[1]? = some 3)
  | .keepalive _ msg => decide (msg[1]? = some 4)
  | .get _ msg => decide (msg[1]? = some 16)
  | .set _ msg => decide (msg[1]? = some 17)
  | .command _ msg => decide (msg[1]? = some 18)
  | .describe _ msg => decide (msg[1]? = some 19)
  | .list _ msg => decide (msg[1]? = some 20)
  | .sessionTimeout => true
  | .blockExpiry => true
  | .supMbDoorbell _ => true
  | .supMbNotifyCi _ => true
  | .bar4Access _ write _ data => !write || (!data.isEmpty && decide (data.length ≤ 256))
  | .pciePerstN => true
  | .profileLoad _ => true
  | .porstNRelease _ _ _ => true
  | .bootStandby => true
  | .open _ _ _ => true
  | .chunk _ _ _ => true
  | .copy _ _ _ => true
  | .finish _ _ => true
  | .verify _ => true
  | .activate _ _ _ => true
  | .close _ => true
  | .cancel _ => true
  | .confirm _ => true
  | .reject _ => true
  | .enroll _ _ => true
  | .scheduledActivation => true
  | .windowMissed => true
  | .fallBack => true
  | .obsSnap => true
  | .traceBatch => true
  | .acknowledge _ => true
  | .forced => true
  | .supWatchdog => true
  | .fabricTimeout requester _ => requester.ok
  | .pllNoLock _ => true
  | .fatalError => true
  | .dumpFlashCopy => true
  | .dumpRelease => true
  | .restart => true
  | .porstNAssertion => true
  | .sysrstNAssertion => true
  | .sysrstNRelease => true
  | .bypass _ _ => true
  | .idcode _ => true
  | .samplePreload _ _ _ => true
  | .extest _ _ _ => true
  | .gpioSample _ => true
  | .pciePerstNRelease => true
  | .wakeNPulseEnd => true

end Sys2Proof
end

