-- ==== Sys2Proof/Machine/Gate.lean ====
section
/-!
DEFINITION. When a command reaches the device: units run while their clocks do, the fabric while VDD_CORE is on (R455, R547,
R571, R572). A command that does not reach it changes nothing (assumption log 48).
-/
namespace Sys2Proof.Machine

/-- What a meaning answers. -/
abbrev Result := Host.Outcome State Fault Refusal

/-- The fabric, the memories and Supervisor work: neither Cold nor Dormant nor a system reset. -/
def Dev.powered (d : Dev) : Bool := decide (d.pwr.mode ≠ 0) && decide (d.pwr.mode ≠ 2) && !d.pins.sysrst

/-- The units' clocks run: not in Fault Hold either. -/
def Dev.clocked (d : Dev) : Bool := d.powered && decide (d.pwr.mode ≠ 7)

/-- An effect on the device in every mode. -/
def State.always (s : State) (f : Dev → Dev) : Result := .next (s.withDev (f s.dev))

/-- An effect of units whose clocks run. -/
def State.unit (s : State) (f : Dev → Dev) : Result := .next (if s.dev.clocked then s.withDev (f s.dev) else s)

/-- An effect that needs the fabric or Supervisor. -/
def State.fabric (s : State) (f : Dev → Dev) : Result := .next (if s.dev.powered then s.withDev (f s.dev) else s)

/-- An effect of the time unit, which runs in every mode but Cold. -/
def State.timed (s : State) (f : Dev → Dev) : Result :=
  .next (if s.dev.pwr.mode ≠ 0 then s.withDev (f s.dev) else s)

/-- An effect on the device with its lasting part, in every mode. -/
def State.whole (s : State) (f : Sys → Sys) : Result := .next (s.withSys (f s.sys))

/-- An effect of Supervisor on the device with its lasting part. -/
def State.served (s : State) (f : Sys → Sys) : Result := .next (if s.dev.powered then s.withSys (f s.sys) else s)

/-- An update command: its effect, its status in `upd.answer` (R529 to R532). -/
def State.update (s : State) (f : Sys → Sys × Nat) : Result := s.served (fun y => (f y).1)

/-- A write to a unit's register window: a dozing unit wakes first (R466). -/
def State.engReg (s : State) (cls u : Nat) (f : Dev → Dev) : Result := s.unit (fun d => f (d.wakeFor (unitWin cls u)))

/-- A command that only some senders can give. -/
def checked (ok : Bool) (r : Result) : Result := if ok then r else .refused .illFormed

/-- An operation of a core. -/
def State.coreOp (s : State) (o : CoreOp) (c : Nat) (w : BitVec 32) : Result :=
  checked (names o w) (s.unit (fun d => d.coreOp c w))

/-- REGISTER_WRITE: the host's through BAR0, another agent's over the global map. -/
def State.storeBy (s : State) (ag : Agent) (a : Nat) (bs : List Byte) : Result :=
  if ag = .host then s.served (fun y => y.bar0Write a bs) else s.fabric (fun d => (d.busWrite ag a bs).1)

/-- MEMORY_READ, with its answer. -/
def State.readBy (s : State) (ag : Agent) (a n : Nat) : Result :=
  .next (if s.dev.powered then
    let r := s.dev.busRead ag a n
    { s with dev := r.1, reply := .read r.2 }
  else s)

/-- MEMORY_WRITE, with its answer. -/
def State.writeBy (s : State) (ag : Agent) (a : Nat) (bs : List Byte) : Result :=
  .next (if s.dev.powered then
    let r := s.dev.busWrite ag a bs
    { s with dev := r.1, reply := .write r.2 }
  else s)

/-- BAR4_ACCESS, with a read's answer; an access of a link that is down gets none. -/
def State.bar4 (s : State) (off : Nat) (write : Bool) (n : Nat) (bs : List Byte) : Result :=
  .next (if s.dev.powered then
    let d := s.dev.bar4Access off (if write then some bs else none) n
    let a := match (if write then none else s.dev.bar4Answer off n) with
      | some r => Reply.read r
      | none => Reply.none
    { s with dev := d, reply := a }
  else s)

end Sys2Proof.Machine
end

