-- ==== Sys2Proof/Machine/RowsAttached.lean ====
section
/-!
DEFINITION. Operations and results of the attached units (R139 to R162).
-/
namespace Sys2Proof.Machine

/-- CRC_START_ZERO (R142). -/
def execCrcStartZero (core : Fin 192) (word : BitVec 32) (s : State) : Result := s.coreOp .crcZero core word

/-- CRC_START_ONES (R142). -/
def execCrcStartOnes (core : Fin 192) (word : BitVec 32) (s : State) : Result := s.coreOp .crcOnes core word

/-- TEST (R145). -/
def execTest (core : Fin 192) (word : BitVec 32) (s : State) : Result := s.coreOp .test core word

/-- KILL (R149). -/
def execKill (core : Fin 192) (word : BitVec 32) (s : State) : Result := s.coreOp .kill core word

/-- INV (R157). -/
def execInv (core : Fin 192) (word : BitVec 32) (s : State) : Result := s.coreOp .inv core word

/-- INVH (R157). -/
def execInvh (core : Fin 192) (word : BitVec 32) (s : State) : Result := s.coreOp .invh core word

/-- DEMAP (R159). -/
def execDemap (core : Fin 192) (word : BitVec 32) (s : State) : Result := s.coreOp .demap core word

/-- TOPK_LARGEST (R161). -/
def execTopkLargest (core : Fin 192) (word : BitVec 32) (s : State) : Result := s.coreOp .topkLargest core word

/-- TOPK_SMALLEST (R161). -/
def execTopkSmallest (core : Fin 192) (word : BitVec 32) (s : State) : Result := s.coreOp .topkSmallest core word

/-- LEVEL_1_RESULT (R141): the oldest result of the inverter or the demapper; `fault` says that a check of the unit fails.
-/
def execLevel1Result (core : Fin 192) (demapper : Bool) (fault : Bool) (s : State) : Result :=
  s.unit (fun d => d.deliverL1 core (if demapper then 2 else 1) fault)

/-- LEVEL_0_JOB_END (R146): the job of the CRC unit or the sorter of a cluster; `fault` says that a check of the unit fails.
-/
def execLevel0JobEnd (cluster : Fin 24) (sorter : Bool) (fault : Bool) (s : State) : Result :=
  s.unit (fun d => d.endL0 cluster (if sorter then 3 else 0) fault)

end Sys2Proof.Machine
end

