-- ==== Sys2Proof/Machine/RowsBoot.lean ====
section
/-!
DEFINITION. Boot, update and fall-back (R519 to R537).
-/
namespace Sys2Proof.Machine

/-- PORST_N_RELEASE (R527, R571): the straps as they are sampled. -/
def execPorstNRelease (profile : Fin 4) (bootMode : Fin 8) (refsel : Bool) (s : State) : Result :=
  s.whole (fun y => y.porstRelease profile bootMode refsel)

/-- BOOT_STANDBY (R527). -/
def execBootStandby (s : State) : Result := s.whole Sys.bootStandby

/-- OPEN (R529); `flashFault` says that the flash reports an error. -/
def execOpen (session : BitVec 32) (target : BitVec 8) (flashFault : Bool) (s : State) : Result :=
  s.update (fun y => y.updOpen session.toNat target.toNat flashFault)

/-- CHUNK (R530): the BLOB of the command. -/
def execChunk (session : BitVec 32) (data : List Byte) (flashFault : Bool) (s : State) : Result :=
  s.update (fun y => y.updChunk session.toNat data flashFault)

/-- COPY (R530). -/
def execCopy (session : BitVec 32) (data : BitVec 128) (flashFault : Bool) (s : State) : Result :=
  s.update (fun y => y.updCopy session.toNat (leBytes 16 data.toNat) flashFault)

/-- FINISH (R530). -/
def execFinish (session : BitVec 32) (flashFault : Bool) (s : State) : Result :=
  s.update (fun y => y.updFinish session.toNat flashFault)

/-- VERIFY (R530). -/
def execVerify (session : BitVec 32) (s : State) : Result := s.update (fun y => y.updVerify session.toNat)

/-- ACTIVATE (R531). -/
def execActivate (session : BitVec 32) (time : BitVec 80) (flashFault : Bool) (s : State) : Result :=
  s.update (fun y => y.updActivate session.toNat (leBytes 10 time.toNat) flashFault)

/-- CLOSE (R529). -/
def execClose (session : BitVec 32) (s : State) : Result := s.update (fun y => y.updClose session.toNat)

/-- CANCEL (R532). -/
def execCancel (session : BitVec 32) (s : State) : Result := s.update (fun y => y.updCancel session.toNat)

/-- CONFIRM (R531). -/
def execConfirm (session : BitVec 32) (s : State) : Result := s.update (fun y => y.updConfirm session.toNat)

/-- REJECT (R531). -/
def execReject (session : BitVec 32) (s : State) : Result := s.update (fun y => y.updReject session.toNat)

/-- ENROLL (R524). -/
def execEnroll (session : BitVec 32) (key : List Byte) (s : State) : Result :=
  s.update (fun y => y.updEnroll session.toNat key)

/-- SCHEDULED_ACTIVATION (R532). -/
def execScheduledActivation (s : State) : Result := s.served Sys.scheduledActivation

/-- WINDOW_MISSED (R532). -/
def execWindowMissed (s : State) : Result := s.served Sys.windowMissed

/-- FALL_BACK (R531). -/
def execFallBack (s : State) : Result := s.served Sys.trialTimeout

end Sys2Proof.Machine
end

