-- ==== Sys2Proof/Machine/RowsCipher.lean ====
section
/-!
DEFINITION. Commands of the cipher engines and their key slots (R431 to R454).
-/
namespace Sys2Proof.Machine

/-- CPH_SUBMIT (R431, R432). -/
def execCphSubmit (sender : Agent) (page : Fin 64) (addr : BitVec 40) (s : State) : Result :=
  checked (sender.ok) (s.unit (fun d => d.onPage sender page (fun d => d.cphSubmit page addr.toNat)))

/-- CIPHER_TAKE (R431). -/
def execCipherTake (num : Fin 12) (s : State) : Result := s.unit (fun d => d.cphTake num)

/-- AES_CTR (R434). -/
def execAesCtr (num : Fin 12) (fault : Bool) (s : State) : Result := s.unit (fun d => d.cphRun num 1 fault)

/-- AES_GCM (R446). -/
def execAesGcm (num : Fin 12) (fault : Bool) (s : State) : Result := s.unit (fun d => d.cphRun num 2 fault)

/-- AES_CMAC (R434). -/
def execAesCmac (num : Fin 12) (fault : Bool) (s : State) : Result := s.unit (fun d => d.cphRun num 3 fault)

/-- NEA1 (R434). -/
def execNea1 (num : Fin 12) (fault : Bool) (s : State) : Result := s.unit (fun d => d.cphRun num 4 fault)

/-- NIA1 (R434). -/
def execNia1 (num : Fin 12) (fault : Bool) (s : State) : Result := s.unit (fun d => d.cphRun num 5 fault)

/-- NEA2 (R434). -/
def execNea2 (num : Fin 12) (fault : Bool) (s : State) : Result := s.unit (fun d => d.cphRun num 6 fault)

/-- NIA2 (R434). -/
def execNia2 (num : Fin 12) (fault : Bool) (s : State) : Result := s.unit (fun d => d.cphRun num 7 fault)

/-- NEA3 (R434). -/
def execNea3 (num : Fin 12) (fault : Bool) (s : State) : Result := s.unit (fun d => d.cphRun num 8 fault)

/-- NIA3 (R434). -/
def execNia3 (num : Fin 12) (fault : Bool) (s : State) : Result := s.unit (fun d => d.cphRun num 9 fault)

/-- CIPHER_COMPLETION (R449). -/
def execCipherCompletion (num : Fin 12) (s : State) : Result := s.unit (fun d => d.cphComplete num)

/-- KEY_LOAD (R441). -/
def execKeyLoad (sender : Agent) (page : Fin 64) (ktype : Fin 4) (hwctr : Bool) (s : State) : Result :=
  checked (sender.ok) (s.unit (fun d => d.onPage sender page (fun d => d.keyCommand page (1 + 4 * ktype + 16 * b2n hwctr))))

/-- ZEROISE (R443). -/
def execZeroise (sender : Agent) (page : Fin 64) (s : State) : Result :=
  checked (sender.ok) (s.unit (fun d => d.onPage sender page (fun d => d.keyCommand page 2)))

end Sys2Proof.Machine
end

