-- ==== Sys2Proof/Machine/RowsEngine.lean ====
section
/-!
DEFINITION. Handover, and the commands of beam engines, coding units and transform engines (R163 to R271, R308, R578).
-/
namespace Sys2Proof.Machine

/-- HANDOVER (R308, R578). -/
def execHandover (queue : Fin 262144) (s : State) : Result := s.unit (fun d => d.handoverOne queue)

/-- GRAM (R178). -/
def execGram (num : Fin 12) (fault : Bool) (s : State) : Result := s.unit (fun d => d.beamStep num 1 fault)

/-- CHOL (R179). -/
def execChol (num : Fin 12) (fault : Bool) (s : State) : Result := s.unit (fun d => d.beamStep num 2 fault)

/-- SOLVE (R180). -/
def execSolve (num : Fin 12) (fault : Bool) (s : State) : Result := s.unit (fun d => d.beamStep num 3 fault)

/-- APPLY (R181). -/
def execApply (num : Fin 12) (fault : Bool) (s : State) : Result := s.unit (fun d => d.beamStep num 4 fault)

/-- DETECT (R185). -/
def execDetect (num : Fin 12) (fault : Bool) (s : State) : Result := s.unit (fun d => d.beamStep num 5 fault)

/-- EQ1 (R183). -/
def execEq1 (num : Fin 12) (fault : Bool) (s : State) : Result := s.unit (fun d => d.beamStep num 6 fault)

/-- EQM (R184). -/
def execEqm (num : Fin 12) (fault : Bool) (s : State) : Result := s.unit (fun d => d.beamStep num 7 fault)

/-- BEAM_COMPLETION (R167). -/
def execBeamCompletion (num : Fin 12) (s : State) : Result := s.unit (fun d => d.beamComplete num)

/-- BEN_ABORT (R193). -/
def execBenAbort (num : Fin 12) (s : State) : Result := s.engReg 0 num (fun d => d.engAbort 0 num)

/-- BEN_ENABLE (R197). -/
def execBenEnable (num : Fin 12) (on : Bool) (s : State) : Result := s.engReg 0 num (fun d => d.engEnable 0 num on)

/-- LDPC_DECODE (R216). -/
def execLdpcDecode (num : Fin 12) (fault : Bool) (s : State) : Result := s.unit (fun d => d.decodeStep num 0 fault)

/-- TURBO_DECODE (R216). -/
def execTurboDecode (num : Fin 12) (fault : Bool) (s : State) : Result := s.unit (fun d => d.decodeStep num 1 fault)

/-- LDPC_ENCODE (R223). -/
def execLdpcEncode (num : Fin 4) (fault : Bool) (s : State) : Result := s.unit (fun d => d.encodeStep num 0 fault)

/-- TURBO_ENCODE (R223). -/
def execTurboEncode (num : Fin 4) (fault : Bool) (s : State) : Result := s.unit (fun d => d.encodeStep num 1 fault)

/-- POLAR_ENCODE (R227). -/
def execPolarEncode (fault : Bool) (s : State) : Result := s.unit (fun d => d.codecStep 0 fault)

/-- POLAR_DECODE (R227). -/
def execPolarDecode (fault : Bool) (s : State) : Result := s.unit (fun d => d.codecStep 1 fault)

/-- REED_MULLER_ENCODE (R227). -/
def execReedMullerEncode (fault : Bool) (s : State) : Result := s.unit (fun d => d.codecStep 2 fault)

/-- REED_MULLER_DECODE (R227). -/
def execReedMullerDecode (fault : Bool) (s : State) : Result := s.unit (fun d => d.codecStep 3 fault)

/-- CONVOLUTIONAL_ENCODE (R227). -/
def execConvolutionalEncode (fault : Bool) (s : State) : Result := s.unit (fun d => d.codecStep 4 fault)

/-- CONVOLUTIONAL_DECODE (R227). -/
def execConvolutionalDecode (fault : Bool) (s : State) : Result := s.unit (fun d => d.codecStep 5 fault)

/-- SMALL_BLOCK_ENCODE (R227). -/
def execSmallBlockEncode (fault : Bool) (s : State) : Result := s.unit (fun d => d.codecStep 6 fault)

/-- SMALL_BLOCK_DECODE (R227). -/
def execSmallBlockDecode (fault : Bool) (s : State) : Result := s.unit (fun d => d.codecStep 7 fault)

/-- CODING_COMPLETION (R202). -/
def execCodingCompletion (encoder : Bool) (num : Fin 12) (s : State) : Result :=
  checked (!encoder || decide (num.val < 4)) (s.unit (fun d => d.codingDone encoder num))

/-- CODEC_COMPLETION (R228). -/
def execCodecCompletion (s : State) : Result := s.unit Dev.codecComplete

/-- FEC_ABORT (R235). -/
def execFecAbort (fec : Fin 17) (s : State) : Result :=
  s.engReg (fecClass fec) (fecNum fec) (fun d => d.engAbort (fecClass fec) (fecNum fec))

/-- FEC_ENABLE (R239). -/
def execFecEnable (fec : Fin 17) (on : Bool) (s : State) : Result :=
  s.engReg (fecClass fec) (fecNum fec) (fun d => d.engEnable (fecClass fec) (fecNum fec) on)

/-- FFT (R249). -/
def execFft (num : Fin 8) (fault : Bool) (s : State) : Result := s.unit (fun d => d.xfuStep num 1 fault)

/-- IFFT (R250). -/
def execIfft (num : Fin 8) (fault : Bool) (s : State) : Result := s.unit (fun d => d.xfuStep num 2 fault)

/-- PRACH (R255). -/
def execPrach (num : Fin 8) (fault : Bool) (s : State) : Result := s.unit (fun d => d.xfuStep num 3 fault)

/-- SRS (R256). -/
def execSrs (num : Fin 8) (fault : Bool) (s : State) : Result := s.unit (fun d => d.xfuStep num 4 fault)

/-- RESAMPLE (R258). -/
def execResample (num : Fin 8) (fault : Bool) (s : State) : Result := s.unit (fun d => d.xfuStep num 5 fault)

/-- TRANSFORM_COMPLETION (R243). -/
def execTransformCompletion (num : Fin 8) (s : State) : Result := s.unit (fun d => d.xfuComplete num)

/-- XFU_ABORT (R266). -/
def execXfuAbort (num : Fin 8) (s : State) : Result := s.engReg 4 num (fun d => d.engAbort 4 num)

/-- XFU_ENABLE (R270). -/
def execXfuEnable (num : Fin 8) (on : Bool) (s : State) : Result := s.engReg 4 num (fun d => d.engEnable 4 num on)

end Sys2Proof.Machine
end

