-- ==== Sys2Proof/Machine/RowsFronthaul.lean ====
section
/-!
DEFINITION. Commands of the fronthaul ports (R369 to R400).
-/
namespace Sys2Proof.Machine

/-- FRAME_RECEIVE (R379): the frame's bytes with its FCS, the symbols the FEC corrected, and whether it could not. -/
def execFrameReceive (port : Fin 8) (raw : List Byte) (corrected : BitVec 16) (uncorrectable : Bool) (s : State) : Result :=
  s.unit (fun d => d.frameReceive port raw corrected.toNat uncorrectable)

/-- ARRIVAL_DESCRIPTOR (R382). -/
def execArrivalDescriptor (port : Fin 8) (s : State) : Result := s.unit (fun d => d.arrivalPost port)

/-- RULE_COMMIT (R380). -/
def execRuleCommit (s : State) : Result := s.unit Dev.ruleCommit

/-- LINK_CHANGE (R373): alignment, lock and remote fault as the port now has them; port 8 is the management port. -/
def execLinkChange (port : Fin 9) (align : Bool) (lock : Bool) (remote : Bool) (s : State) : Result :=
  s.unit (fun d => (d.linkChange port align lock remote).calRefresh)

/-- LAUNCH (R390). -/
def execLaunch (port : Fin 8) (s : State) : Result := s.unit (fun d => d.launch port)

/-- TX_GATED (R391). -/
def execTxGated (s : State) : Result := s.unit (fun d => d.txGates)

/-- SA_INSTALL (R393, R395). -/
def execSaInstall (port : Fin 8) (tx : Bool) (sci : BitVec 64) (window : BitVec 32) (an : Fin 4) (key : BitVec 256) (xpn
    : Bool) (ssci : BitVec 32) (salt : BitVec 96) (clear : Bool) (s : State) : Result :=
  s.unit (fun d => d.saGiven port tx sci window an key xpn ssci salt clear)

/-- FHN_ENABLE (R399). -/
def execFhnEnable (on : Bool) (s : State) : Result := s.unit (fun d => d.fhnEnable on)

end Sys2Proof.Machine
end

