-- ==== Sys2Proof/Machine/RowsMemory.lean ====
section
/-!
DEFINITION. Commands of the memory controllers, Goat and the error log (R336 to R368).
-/
namespace Sys2Proof.Machine

/-- MEMORY_READ (R342, R343): the answer stands in `reply`. -/
def execMemoryRead (sender : Agent) (addr : BitVec 40) (len : Fin 257) (s : State) : Result :=
  checked (sender.ok) (s.readBy sender addr.toNat len)

/-- MEMORY_WRITE (R349): the answer stands in `reply`. -/
def execMemoryWrite (sender : Agent) (addr : BitVec 40) (data : List Byte) (s : State) : Result :=
  checked (sender.ok && !data.isEmpty && decide (data.length ≤ 256)) (s.writeBy sender addr.toNat data)

/-- OCTET_FLUSH (R350). -/
def execOctetFlush (s : State) : Result := s.unit (fun d => d.octetFlush)

/-- GOAT (R355): the next group of on-chip memory, or of DDR5. -/
def execGoat (ddr : Bool) (s : State) : Result := s.unit (fun d => d.goatNext ddr)

/-- LOG_ENTRY (R359). -/
def execLogEntry (s : State) : Result := s.fabric Dev.logEntry

/-- MEM_LOG_CI (R357). -/
def execMemLogCi (sender : Agent) (value : BitVec 32) (s : State) : Result :=
  checked (sender.ok) (s.fabric (fun d => d.logCi sender value))

/-- MEM_RETIRE_ENTRY (R360). -/
def execMemRetireEntry (entry : Fin 256) (value : BitVec 64) (s : State) : Result :=
  s.fabric (fun d => d.retireEntry entry value)

/-- MEM_POOL_RETIRE (R360). -/
def execMemPoolRetire (value : BitVec 32) (s : State) : Result := s.fabric (fun d => d.poolRetire value.toNat)

/-- MEM_CLUSTER_RETIRE (R360). -/
def execMemClusterRetire (value : BitVec 32) (s : State) : Result := s.fabric (fun d => d.clusterRetire value.toNat)

/-- FILL (R363). -/
def execFill (s : State) : Result := s.unit Dev.ddrFill

end Sys2Proof.Machine
end

