-- ==== Sys2Proof/Machine/RowsNap.lean ====
section
/-!
DEFINITION. NAP operations, sessions, the mailbox, BAR4 and profile loads (R496 to R518).
-/
namespace Sys2Proof.Machine

/-- SESSION_OPEN (R504): a NAP message and the address it comes from. -/
def execSessionOpen (source : BitVec 64) (msg : List Byte) (s : State) : Result :=
  checked (decide (msg[1]? = some 1)) (s.whole (fun y => y.napOp 1 source.toNat msg))

/-- SESSION_AUTH (R504): a NAP message and the address it comes from. -/
def execSessionAuth (source : BitVec 64) (msg : List Byte) (s : State) : Result :=
  checked (decide (msg[1]? = some 2)) (s.whole (fun y => y.napOp 2 source.toNat msg))

/-- SESSION_CLOSE (R504): a NAP message and the address it comes from. -/
def execSessionClose (source : BitVec 64) (msg : List Byte) (s : State) : Result :=
  checked (decide (msg[1]? = some 3)) (s.whole (fun y => y.napOp 3 source.toNat msg))

/-- KEEPALIVE (R503): a NAP message and the address it comes from. -/
def execKeepalive (source : BitVec 64) (msg : List Byte) (s : State) : Result :=
  checked (decide (msg[1]? = some 4)) (s.whole (fun y => y.napOp 4 source.toNat msg))

/-- GET (R506): a NAP message and the address it comes from. -/
def execGet (source : BitVec 64) (msg : List Byte) (s : State) : Result :=
  checked (decide (msg[1]? = some 16)) (s.whole (fun y => y.napOp 16 source.toNat msg))

/-- SET (R506): a NAP message and the address it comes from. -/
def execSet (source : BitVec 64) (msg : List Byte) (s : State) : Result :=
  checked (decide (msg[1]? = some 17)) (s.whole (fun y => y.napOp 17 source.toNat msg))

/-- COMMAND (R503): a NAP message and the address it comes from. -/
def execCommand (source : BitVec 64) (msg : List Byte) (s : State) : Result :=
  checked (decide (msg[1]? = some 18)) (s.whole (fun y => y.napOp 18 source.toNat msg))

/-- DESCRIBE (R503): a NAP message and the address it comes from. -/
def execDescribe (source : BitVec 64) (msg : List Byte) (s : State) : Result :=
  checked (decide (msg[1]? = some 19)) (s.whole (fun y => y.napOp 19 source.toNat msg))

/-- LIST (R503): a NAP message and the address it comes from. -/
def execList (source : BitVec 64) (msg : List Byte) (s : State) : Result :=
  checked (decide (msg[1]? = some 20)) (s.whole (fun y => y.napOp 20 source.toNat msg))

/-- SESSION_TIMEOUT (R504). -/
def execSessionTimeout (s : State) : Result := s.fabric (fun d => d.expireSessions)

/-- BLOCK_EXPIRY (R504). -/
def execBlockExpiry (s : State) : Result := s.fabric (fun d => d.blockExpiry)

/-- SUP_MB_DOORBELL (R512). -/
def execSupMbDoorbell (value : BitVec 32) (s : State) : Result := s.whole (fun y => y.hostDoorbell value.toNat)

/-- SUP_MB_NOTIFY_CI (R513). -/
def execSupMbNotifyCi (value : BitVec 32) (s : State) : Result := s.fabric (fun d => d.hostNotifyCi value)

/-- BAR4_ACCESS (R510): the answer stands in `reply`. -/
def execBar4Access (offset : BitVec 36) (write : Bool) (len : Fin 257) (data : List Byte) (s : State) : Result :=
  checked (!write || (!data.isEmpty && decide (data.length ≤ 256))) (s.bar4 offset.toNat write len data)

/-- PCIE_PERST_N (R573). -/
def execPciePerstN (s : State) : Result := s.always Dev.perstAssert

/-- PROFILE_LOAD (R515). -/
def execProfileLoad (slot : BitVec 8) (s : State) : Result := s.whole (fun y => y.loadRow slot.toNat)

end Sys2Proof.Machine
end

