-- ==== Sys2Proof/Machine/RowsObserve.lean ====
section
/-!
DEFINITION. Observation, fatal errors, resets, the test port and pins (R538 to R577).
-/
namespace Sys2Proof.Machine

/-- OBS_SNAP (R539). -/
def execObsSnap (s : State) : Result := s.fabric Dev.obsSnap

/-- TRACE_BATCH (R542). -/
def execTraceBatch (s : State) : Result := s.unit Dev.traceBatch

/-- ACKNOWLEDGE (R544). -/
def execAcknowledge (seq : BitVec 32) (s : State) : Result := s.fabric (fun d => d.ackFaults seq.toNat)

/-- FORCED (R545). -/
def execForced (s : State) : Result := s.fabric (fun d => d.fatalEvent 0x87 12 0 0)

/-- SUP_WATCHDOG (R545). -/
def execSupWatchdog (s : State) : Result := s.fabric (fun d => d.fatalEvent 0x81 12 0 0)

/-- FABRIC_TIMEOUT (R545). -/
def execFabricTimeout (requester : Agent) (addr : BitVec 40) (s : State) : Result :=
  checked (requester.ok) (s.unit (fun d => d.fabricTimeout requester addr.toNat))

/-- PLL_NO_LOCK (R545). -/
def execPllNoLock (pll : BitVec 8) (s : State) : Result := s.fabric (fun d => d.fatalEvent 0x85 15 4 pll.toNat)

/-- FATAL_ERROR (R547). -/
def execFatalError (s : State) : Result := s.served Sys.fatalError

/-- DUMP_FLASH_COPY (R547). -/
def execDumpFlashCopy (s : State) : Result := s.served Sys.dumpCopy

/-- DUMP_RELEASE (R548). -/
def execDumpRelease (s : State) : Result := s.served Sys.dumpRelease

/-- RESTART (R550). -/
def execRestart (s : State) : Result := s.served (fun y => y.faultRestart.1)

/-- PORST_N_ASSERTION (R571). -/
def execPorstNAssertion (s : State) : Result := s.whole Sys.porstAssert

/-- SYSRST_N_ASSERTION (R572). -/
def execSysrstNAssertion (s : State) : Result := s.whole Sys.sysrstAssert

/-- SYSRST_N_RELEASE (R572). -/
def execSysrstNRelease (s : State) : Result := s.whole Sys.sysrstRelease

/-- BYPASS (R574): the level of TRST_N and the bits shifted in. -/
def execBypass (trst : Bool) (tdi : BitVec 32) (s : State) : Result := s.always (fun d => d.jtagBypass trst tdi)

/-- IDCODE (R574). -/
def execIdcode (trst : Bool) (s : State) : Result := s.always (fun d => d.jtagIdcode trst)

/-- SAMPLE_PRELOAD (R574): the levels of the balls and the cells shifted in. -/
def execSamplePreload (trst : Bool) (levels : BitVec 128) (tdi : BitVec 128) (s : State) : Result :=
  s.always (fun d => d.jtagSample trst levels tdi)

/-- EXTEST (R574). -/
def execExtest (trst : Bool) (levels : BitVec 128) (tdi : BitVec 128) (s : State) : Result :=
  s.always (fun d => d.jtagExtest trst levels tdi)

/-- GPIO_SAMPLE (R567). -/
def execGpioSample (levels : BitVec 32) (s : State) : Result := s.always (fun d => d.gpioSample levels)

/-- PCIE_PERST_N_RELEASE (R573). -/
def execPciePerstNRelease (s : State) : Result := s.always Dev.perstRelease

/-- WAKE_N_PULSE_END (R471). -/
def execWakeNPulseEnd (s : State) : Result := s.always Dev.wakePulseEnd

end Sys2Proof.Machine
end

