-- ==== Sys2Proof/Machine/RowsPower.lean ====
section
/-!
DEFINITION. Mode changes, gating, Dormant, sensing and calibration (R455 to R495).
-/
namespace Sys2Proof.Machine

/-- ENTER_SERVICE (R457). -/
def execEnterService (lean : Bool) (s : State) : Result := s.whole (fun y => y.enterServiceRow lean)

/-- LEAN_FULL_SWITCH (R459). -/
def execLeanFullSwitch (lean : Bool) (s : State) : Result := s.whole (fun y => y.switchRow lean)

/-- LEAVE_SERVICE (R457). -/
def execLeaveService (s : State) : Result := s.whole Sys.leaveServiceRow

/-- DORMANT_ENTRY (R470). -/
def execDormantEntry (s : State) : Result := s.whole Sys.dormantEntry

/-- DORMANT_WAKE (R472): whether DDR5 kept its contents, and whether a regulator fails. -/
def execDormantWake (ddrKept : Bool) (regFault : Bool) (s : State) : Result :=
  s.whole (fun y => y.dormantWake ddrKept regFault)

/-- ENTER_MAINTENANCE (R456). -/
def execEnterMaintenance (s : State) : Result := s.whole (fun y => y.maintRow)

/-- LEAVE_MAINTENANCE (R456). -/
def execLeaveMaintenance (s : State) : Result := s.whole Sys.leaveMaintRow

/-- AUTO_LEAN (R459): busy cycles and all cycles of the last 10 ms. -/
def execAutoLean (busy : BitVec 64) (all : BitVec 64) (s : State) : Result :=
  s.whole (fun y => (y.onDev (fun d => d.autoLean busy.toNat all.toNat)).goalNext)

/-- NAP (R462): a unit by its power index, and how long it has been idle. -/
def execNap (index : Fin 576) (idleNs : BitVec 32) (s : State) : Result := s.unit (fun d => d.napUnit index idleNs.toNat)

/-- NAP_WAKE (R464). -/
def execNapWake (index : Fin 576) (s : State) : Result := s.unit (fun d => d.napWake index)

/-- DOZE_ENTRY (R465). -/
def execDozeEntry (index : Fin 576) (s : State) : Result := s.unit (fun d => d.dozeEntry index)

/-- DOZE_WAKE (R466). -/
def execDozeWake (index : Fin 576) (s : State) : Result := s.unit (fun d => d.dozeWake index)

/-- WAKE_N (R471). -/
def execWakeN (s : State) : Result := s.always (fun d => d.wakeSource 1)

/-- RTC_ALARM (R471). -/
def execRtcAlarm (s : State) : Result := s.always Dev.rtcAlarm

/-- SENSOR_READ (R481): 64 readings in 1/8 °C and 16 in mV. -/
def execSensorRead (temps : List Int) (volts : List Nat) (s : State) : Result :=
  checked (decide (temps.length = 64) && decide (volts.length = 16)) (s.always (fun d => d.sensorRead temps volts))

/-- PMBUS_TELEMETRY (R476): the rails that fail. -/
def execPmbusTelemetry (bad : BitVec 8) (s : State) : Result := s.fabric (fun d => d.pmbusPoll bad.toNat)

/-- AVS_READBACK (R475). -/
def execAvsReadback (mv : BitVec 16) (s : State) : Result := s.fabric (fun d => d.avsReadback mv.toNat)

/-- RUN_INTERVAL (R484). -/
def execRunInterval (s : State) : Result := s.unit (fun d => d.calIntervals)

/-- CALIBRATION_STEP (R485): the margins of each element. -/
def execCalibrationStep (target : Fin 37) (margins : List (Nat × Nat × Nat)) (s : State) : Result :=
  s.unit (fun d => d.calStep target margins)

/-- FORCED_STEP (R487). -/
def execForcedStep (target : Fin 37) (margins : List (Nat × Nat × Nat)) (s : State) : Result :=
  s.unit (fun d => d.calForced target margins)

/-- TRIM_REQUEST (R489). -/
def execTrimRequest (mask : BitVec 32) (s : State) : Result := s.whole (fun y => y.trimRow mask.toNat)

end Sys2Proof.Machine
end

