-- ==== Sys2Proof/Machine/RowsQueue.lean ====
section
/-!
DEFINITION. Commands of the queue manager and the block movers (R301 to R335).
-/
namespace Sys2Proof.Machine

/-- LOAD (R302). -/
def execLoad (queue : Fin 262144) (s : State) : Result := s.unit (fun d => d.qLoad queue)

/-- DISABLE (R302). -/
def execDisable (queue : Fin 262144) (s : State) : Result := s.unit (fun d => d.qDisable queue)

/-- BIND (R302). -/
def execBind (queue : Fin 262144) (s : State) : Result := s.unit (fun d => d.qBind queue)

/-- CLEAR (R302). -/
def execClear (queue : Fin 262144) (s : State) : Result := s.unit (fun d => d.qClear queue)

/-- QUEUE_POST (R304): a hardware producer's post. -/
def execQueuePost (sender : Agent) (queue : Fin 262144) (desc : BitVec 256) (s : State) : Result :=
  checked (sender.ok) (s.unit (fun d => d.postHw sender queue (leBytes 32 desc.toNat)))

/-- QMG_POST (R304). -/
def execQmgPost (core : Fin 192) (data : BitVec 512) (s : State) : Result :=
  s.unit (fun d => d.corePost (.core core) (leBytes 64 data.toNat))

/-- HOST_POST (R312): a write of 32 or 64 bytes at offset 0 of the queue's page. -/
def execHostPost (queue : Fin 262144) (long : Bool) (data : BitVec 512) (s : State) : Result :=
  s.unit (fun d => d.hostPost queue long data)

/-- STALLED_POST (R305). -/
def execStalledPost (queue : Fin 262144) (s : State) : Result := s.unit (fun d => d.stalledPost queue)

/-- PRODUCER_DOORBELL (R306, R312). -/
def execProducerDoorbell (queue : Fin 262144) (byHost : Bool) (value : BitVec 32) (s : State) : Result :=
  s.unit (fun d => d.ringBell queue byHost (fun d => d.doorbellPi queue value))

/-- CONSUMER_DOORBELL (R307, R312). -/
def execConsumerDoorbell (queue : Fin 262144) (byHost : Bool) (value : BitVec 32) (s : State) : Result :=
  s.unit (fun d => d.ringBell queue byHost (fun d => d.doorbellCi queue value))

/-- QMG_ENABLE (R333). -/
def execQmgEnable (on : Bool) (s : State) : Result := s.unit (fun d => d.qmgEnable on)

/-- CHANNEL_CHOSEN (R315). -/
def execChannelChosen (num : Fin 32) (s : State) : Result := s.unit (fun d => d.chanChosen num)

/-- MOVER_BURST (R318). -/
def execMoverBurst (num : Fin 32) (fault : Bool) (s : State) : Result := s.unit (fun d => d.moverBurst num fault)

/-- MOVER_COMPLETION (R322). -/
def execMoverCompletion (num : Fin 32) (s : State) : Result := s.unit (fun d => d.moverComplete num)

/-- PAUSE (R327). -/
def execPause (num : Fin 32) (chan : Fin 16) (s : State) : Result := s.engReg 8 num (fun d => d.chanPause num chan)

/-- CHANNEL_PAUSED (R327). -/
def execChannelPaused (num : Fin 32) (chan : Fin 16) (s : State) : Result := s.unit (fun d => d.chanPaused num chan)

/-- RESUME (R326). -/
def execResume (num : Fin 32) (chan : Fin 16) (s : State) : Result := s.engReg 8 num (fun d => d.chanResume num chan)

/-- ABORT (R328); `responded` says that the job's last write response has arrived. -/
def execAbort (num : Fin 32) (chan : Fin 16) (responded : Bool) (s : State) : Result :=
  s.engReg 8 num (fun d => d.chanAbort num chan responded)

/-- BMV_ENABLE (R329). -/
def execBmvEnable (num : Fin 32) (on : Bool) (s : State) : Result := s.engReg 8 num (fun d => d.bmvEnable num on)

end Sys2Proof.Machine
end

