-- ==== Sys2Proof/Machine/RowsScalar.lean ====
section
/-!
DEFINITION. Scalar, memory and control operations of the Cetik cores, and the events that reach a core (R82 to R115).
-/
namespace Sys2Proof.Machine

/-- ALU (R89). -/
def execAlu (core : Fin 192) (word : BitVec 32) (s : State) : Result := s.coreOp .alu core word

/-- ADDI (R89). -/
def execAddi (core : Fin 192) (word : BitVec 32) (s : State) : Result := s.coreOp .addi core word

/-- ANDI (R89). -/
def execAndi (core : Fin 192) (word : BitVec 32) (s : State) : Result := s.coreOp .andi core word

/-- ORI (R89). -/
def execOri (core : Fin 192) (word : BitVec 32) (s : State) : Result := s.coreOp .ori core word

/-- XORI (R89). -/
def execXori (core : Fin 192) (word : BitVec 32) (s : State) : Result := s.coreOp .xori core word

/-- SHI (R89). -/
def execShi (core : Fin 192) (word : BitVec 32) (s : State) : Result := s.coreOp .shi core word

/-- MUL (R89). -/
def execMul (core : Fin 192) (word : BitVec 32) (s : State) : Result := s.coreOp .mul core word

/-- CMP (R89). -/
def execCmp (core : Fin 192) (word : BitVec 32) (s : State) : Result := s.coreOp .cmp core word

/-- PLOG (R89). -/
def execPlog (core : Fin 192) (word : BitVec 32) (s : State) : Result := s.coreOp .plog core word

/-- MVSP (R89). -/
def execMvsp (core : Fin 192) (word : BitVec 32) (s : State) : Result := s.coreOp .mvsp core word

/-- MVPS (R89). -/
def execMvps (core : Fin 192) (word : BitVec 32) (s : State) : Result := s.coreOp .mvps core word

/-- MOVW (R89). -/
def execMovw (core : Fin 192) (word : BitVec 32) (s : State) : Result := s.coreOp .movw core word

/-- NOP (R89). -/
def execNop (core : Fin 192) (word : BitVec 32) (s : State) : Result := s.coreOp .nop core word

/-- LOCAL_LOAD (R90). -/
def execLocalLoad (core : Fin 192) (word : BitVec 32) (s : State) : Result := s.coreOp .load core word

/-- LOCAL_LOAD_PI (R90). -/
def execLocalLoadPi (core : Fin 192) (word : BitVec 32) (s : State) : Result := s.coreOp .loadPi core word

/-- LOCAL_STORE (R90). -/
def execLocalStore (core : Fin 192) (word : BitVec 32) (s : State) : Result := s.coreOp .store core word

/-- LOCAL_STORE_PI (R90). -/
def execLocalStorePi (core : Fin 192) (word : BitVec 32) (s : State) : Result := s.coreOp .storePi core word

/-- LDGW (R90). -/
def execLdgw (core : Fin 192) (word : BitVec 32) (s : State) : Result := s.coreOp .ldgw core word

/-- LDGD (R90). -/
def execLdgd (core : Fin 192) (word : BitVec 32) (s : State) : Result := s.coreOp .ldgd core word

/-- STGW (R90). -/
def execStgw (core : Fin 192) (word : BitVec 32) (s : State) : Result := s.coreOp .stgw core word

/-- STGD (R90). -/
def execStgd (core : Fin 192) (word : BitVec 32) (s : State) : Result := s.coreOp .stgd core word

/-- AADD (R90). -/
def execAadd (core : Fin 192) (word : BitVec 32) (s : State) : Result := s.coreOp .aadd core word

/-- BR (R91). -/
def execBr (core : Fin 192) (word : BitVec 32) (s : State) : Result := s.coreOp .br core word

/-- CALL (R91). -/
def execCall (core : Fin 192) (word : BitVec 32) (s : State) : Result := s.coreOp .call core word

/-- JR (R91). -/
def execJr (core : Fin 192) (word : BitVec 32) (s : State) : Result := s.coreOp .jr core word

/-- RPT (R107). -/
def execRpt (core : Fin 192) (word : BitVec 32) (s : State) : Result := s.coreOp .rpt core word

/-- RPTR (R107). -/
def execRptr (core : Fin 192) (word : BitVec 32) (s : State) : Result := s.coreOp .rptr core word

/-- TAKE (R55). -/
def execTake (core : Fin 192) (word : BitVec 32) (s : State) : Result := s.coreOp .take core word

/-- EMIT (R58). -/
def execEmit (core : Fin 192) (word : BitVec 32) (s : State) : Result := s.coreOp .emit core word

/-- POST (R58). -/
def execPost (core : Fin 192) (word : BitVec 32) (s : State) : Result := s.coreOp .post core word

/-- MFC (R91). -/
def execMfc (core : Fin 192) (word : BitVec 32) (s : State) : Result := s.coreOp .mfc core word

/-- MTC (R91). -/
def execMtc (core : Fin 192) (word : BitVec 32) (s : State) : Result := s.coreOp .mtc core word

/-- RETI (R104). -/
def execReti (core : Fin 192) (word : BitVec 32) (s : State) : Result := s.coreOp .reti core word

/-- TRAP (R91). -/
def execTrap (core : Fin 192) (word : BitVec 32) (s : State) : Result := s.coreOp .trap core word

/-- FENCE (R91). -/
def execFence (core : Fin 192) (word : BitVec 32) (s : State) : Result := s.coreOp .fence core word

/-- FENCE_I (R91). -/
def execFenceI (core : Fin 192) (word : BitVec 32) (s : State) : Result := s.coreOp .fenceI core word

/-- IEN (R91). -/
def execIen (core : Fin 192) (word : BitVec 32) (s : State) : Result := s.coreOp .ien core word

/-- EXPOSED_RESULT (R85). -/
def execExposedResult (core : Fin 192) (s : State) : Result := s.unit (fun d => d.exposedResult core)

/-- SCOREBOARD_RESULT (R87): the response that stands at a place among those outstanding. -/
def execScoreboardResult (core : Fin 192) (index : BitVec 8) (s : State) : Result :=
  s.unit (fun d => d.scoreboardResult core index.toNat)

/-- IMPRECISE_EXCEPTION (R111): the error response that stands at a place among those outstanding. -/
def execImpreciseException (core : Fin 192) (index : BitVec 8) (s : State) : Result :=
  s.unit (fun d => d.errorResponse core index.toNat)

/-- INTERRUPT_ACCEPT (R101). -/
def execInterruptAccept (core : Fin 192) (s : State) : Result := s.unit (fun d => d.acceptInterrupt core)

/-- TIMER (R100). -/
def execTimer (core : Fin 192) (s : State) : Result := s.unit (fun d => d.timerLine core)

/-- SUPERVISOR_INTERRUPT (R100). -/
def execSupervisorInterrupt (core : Fin 192) (s : State) : Result := s.unit (fun d => d.supervisorLine core)

end Sys2Proof.Machine
end

