-- ==== Sys2Proof/Machine/RowsSmilda.lean ====
section
/-!
DEFINITION. Commands of Smilda and of the interrupts that Supervisor records (R8 to R11, R37 to R77, R545).
-/
namespace Sys2Proof.Machine

/-- REGISTER_WRITE: the host by its BAR0 offset, any other agent by its global address (R8 to R11, R512). -/
def execRegisterWrite (sender : Agent) (addr : BitVec 40) (data : List Byte) (s : State) : Result :=
  checked (sender.ok && !data.isEmpty && decide (data.length ≤ 64)) (s.storeBy sender addr.toNat data)

/-- INSTANCE_CREATE (R39). -/
def execInstanceCreate (s : State) : Result := s.unit Dev.createNext

/-- TOKEN_ACCEPT (R44 to R50): the oldest token of a source. -/
def execTokenAccept (src : TokSrc) (s : State) : Result := checked (src.ok) (s.unit (fun d => d.acceptNext src))

/-- DISPATCH_COMMIT (R52, R54). -/
def execDispatchCommit (s : State) : Result := s.unit Dev.dispatchOne

/-- COMPLETION_WORD (R60): the oldest word from an engine of a class, or from a mover (class 8). -/
def execCompletionWord (cls : Fin 9) (num : Fin 32) (s : State) : Result := s.unit (fun d => d.receiveNext cls num)

/-- TIMER_FIRE (R62). -/
def execTimerFire (inst : Fin 2048) (node : BitVec 16) (s : State) : Result := s.unit (fun d => d.fireAt inst node.toNat)

/-- SWEEP (R68, R69). -/
def execSweep (s : State) : Result := s.unit Dev.sweep

/-- SMD_CANCEL (R70). -/
def execSmdCancel (value : BitVec 32) (s : State) : Result := s.unit (fun d => d.smdCancel value.toNat)

/-- SMD_TPL_INVAL (R37). -/
def execSmdTplInval (value : BitVec 32) (s : State) : Result := s.unit (fun d => d.tplInval value.toNat)

/-- SMILDA_ENABLE (R74). -/
def execSmildaEnable (s : State) : Result := s.unit Dev.smdEnable

/-- SMILDA_DISABLE (R74). -/
def execSmildaDisable (s : State) : Result := s.unit Dev.smdDisable

/-- CLR_HWM (R74). -/
def execClrHwm (s : State) : Result := s.unit Dev.clrHwm

/-- ADD (R65). -/
def execAdd (core : BitVec 8) (pool : Fin 32) (s : State) : Result := s.unit (fun d => d.poolAdd core.toNat pool)

/-- WITHDRAW (R66). -/
def execWithdraw (core : BitVec 8) (s : State) : Result := s.unit (fun d => d.poolLeave core.toNat none)

/-- MOVE (R66). -/
def execMove (core : BitVec 8) (pool : Fin 32) (s : State) : Result := s.unit (fun d => d.poolMove core.toNat pool)

/-- UNIT_INT (R545). -/
def execUnitInt (source : Fin 148) (s : State) : Result := s.unit (fun d => d.unitInt source)

end Sys2Proof.Machine
end

