-- ==== Sys2Proof/Machine/RowsTime.lean ====
section
/-!
DEFINITION. Commands of the time unit (R401 to R430).
-/
namespace Sys2Proof.Machine

/-- TMU_MEAS_CTL (R407). -/
def execTmuMeasCtl (value : BitVec 32) (s : State) : Result := s.timed (fun d => d.measCtl value.toNat)

/-- PPS_IN (R418); `sub` quarter ns after the last REFCLK edge. -/
def execPpsIn (sub : BitVec 8) (s : State) : Result := s.timed (fun d => d.ppsEdge sub.toNat)

/-- PPS_IN_MISSING (R418). -/
def execPpsInMissing (s : State) : Result := s.timed Dev.ppsMissing

/-- MEAS_TIMEOUT (R406). -/
def execMeasTimeout (s : State) : Result := s.timed Dev.measTimeout

/-- HOLD_LIMIT_EXPIRY (R406). -/
def execHoldLimitExpiry (s : State) : Result := s.timed Dev.holdExpiry

/-- ACCEPT_STEP (R411). -/
def execAcceptStep (s : State) : Result := s.timed (fun d => d.acceptStep.1)

/-- REFCLK_LOSS (R414). -/
def execRefclkLoss (s : State) : Result := s.timed Dev.refclkLoss

/-- REFCLK_RETURN (R414). -/
def execRefclkReturn (s : State) : Result := s.timed Dev.refclkReturn

/-- RTC_RATE_WINDOW (R413): REFCLK cycles counted in the window. -/
def execRtcRateWindow (cycles : BitVec 40) (s : State) : Result := s.timed (fun d => d.rtcWindow cycles.toNat)

/-- PPS_OUT (R419). -/
def execPpsOut (s : State) : Result := s.timed Dev.ppsOut

/-- PPS_OUT_END (R419). -/
def execPpsOutEnd (s : State) : Result := s.timed Dev.ppsOutEnd

/-- TDD_EVENT (R423). -/
def execTddEvent (s : State) : Result := s.timed Dev.tddRefresh

/-- TDD_COMMIT (R424). -/
def execTddCommit (s : State) : Result := s.timed Dev.tddCommit

/-- TDD_TAKE_EFFECT (R424). -/
def execTddTakeEffect (s : State) : Result := s.timed Dev.tddEffect

end Sys2Proof.Machine
end

