-- ==== Sys2Proof/Machine/RowsVector.lean ====
section
/-!
DEFINITION. Vector and long-vector operations of the Cetik cores (R116 to R138).
-/
namespace Sys2Proof.Machine

/-- VADD (R128). -/
def execVadd (core : Fin 192) (word : BitVec 32) (s : State) : Result := s.coreOp .vadd core word

/-- VADDS (R128). -/
def execVadds (core : Fin 192) (word : BitVec 32) (s : State) : Result := s.coreOp .vadds core word

/-- VSUB (R128). -/
def execVsub (core : Fin 192) (word : BitVec 32) (s : State) : Result := s.coreOp .vsub core word

/-- VSUBS (R128). -/
def execVsubs (core : Fin 192) (word : BitVec 32) (s : State) : Result := s.coreOp .vsubs core word

/-- VLOG (R128). -/
def execVlog (core : Fin 192) (word : BitVec 32) (s : State) : Result := s.coreOp .vlog core word

/-- VSHL (R128). -/
def execVshl (core : Fin 192) (word : BitVec 32) (s : State) : Result := s.coreOp .vshl core word

/-- VSHR (R128). -/
def execVshr (core : Fin 192) (word : BitVec 32) (s : State) : Result := s.coreOp .vshr core word

/-- VSAR (R128). -/
def execVsar (core : Fin 192) (word : BitVec 32) (s : State) : Result := s.coreOp .vsar core word

/-- VSARR (R128). -/
def execVsarr (core : Fin 192) (word : BitVec 32) (s : State) : Result := s.coreOp .vsarr core word

/-- VMIN (R128). -/
def execVmin (core : Fin 192) (word : BitVec 32) (s : State) : Result := s.coreOp .vmin core word

/-- VMAX (R128). -/
def execVmax (core : Fin 192) (word : BitVec 32) (s : State) : Result := s.coreOp .vmax core word

/-- VABS (R128). -/
def execVabs (core : Fin 192) (word : BitVec 32) (s : State) : Result := s.coreOp .vabs core word

/-- VCLS (R128). -/
def execVcls (core : Fin 192) (word : BitVec 32) (s : State) : Result := s.coreOp .vcls core word

/-- VCMP (R128). -/
def execVcmp (core : Fin 192) (word : BitVec 32) (s : State) : Result := s.coreOp .vcmp core word

/-- VSEL (R128). -/
def execVsel (core : Fin 192) (word : BitVec 32) (s : State) : Result := s.coreOp .vsel core word

/-- VMULQ (R128). -/
def execVmulq (core : Fin 192) (word : BitVec 32) (s : State) : Result := s.coreOp .vmulq core word

/-- VCMUL (R123). -/
def execVcmul (core : Fin 192) (word : BitVec 32) (s : State) : Result := s.coreOp .vcmul core word

/-- VCMAG (R123). -/
def execVcmag (core : Fin 192) (word : BitVec 32) (s : State) : Result := s.coreOp .vcmag core word

/-- VMULW (R124). -/
def execVmulw (core : Fin 192) (word : BitVec 32) (s : State) : Result := s.coreOp .vmulw core word

/-- VDOT2 (R124). -/
def execVdot2 (core : Fin 192) (word : BitVec 32) (s : State) : Result := s.coreOp .vdot2 core word

/-- VDOT4 (R124). -/
def execVdot4 (core : Fin 192) (word : BitVec 32) (s : State) : Result := s.coreOp .vdot4 core word

/-- VCMAC (R125). -/
def execVcmac (core : Fin 192) (word : BitVec 32) (s : State) : Result := s.coreOp .vcmac core word

/-- VCMACB (R125). -/
def execVcmacb (core : Fin 192) (word : BitVec 32) (s : State) : Result := s.coreOp .vcmacb core word

/-- VCMACBJ (R125). -/
def execVcmacbj (core : Fin 192) (word : BitVec 32) (s : State) : Result := s.coreOp .vcmacbj core word

/-- VACRD (R128). -/
def execVacrd (core : Fin 192) (word : BitVec 32) (s : State) : Result := s.coreOp .vacrd core word

/-- VLD (R130). -/
def execVld (core : Fin 192) (word : BitVec 32) (s : State) : Result := s.coreOp .vld core word

/-- VLD_PI (R130). -/
def execVldPi (core : Fin 192) (word : BitVec 32) (s : State) : Result := s.coreOp .vldPi core word

/-- VST (R130). -/
def execVst (core : Fin 192) (word : BitVec 32) (s : State) : Result := s.coreOp .vst core word

/-- VST_PI (R130). -/
def execVstPi (core : Fin 192) (word : BitVec 32) (s : State) : Result := s.coreOp .vstPi core word

/-- VLDG (R130). -/
def execVldg (core : Fin 192) (word : BitVec 32) (s : State) : Result := s.coreOp .vldg core word

/-- VSTG (R130). -/
def execVstg (core : Fin 192) (word : BitVec 32) (s : State) : Result := s.coreOp .vstg core word

/-- VGATH (R131). -/
def execVgath (core : Fin 192) (word : BitVec 32) (s : State) : Result := s.coreOp .vgath core word

/-- VSCAT (R131). -/
def execVscat (core : Fin 192) (word : BitVec 32) (s : State) : Result := s.coreOp .vscat core word

/-- VACSV (R130). -/
def execVacsv (core : Fin 192) (word : BitVec 32) (s : State) : Result := s.coreOp .vacsv core word

/-- VACLD (R130). -/
def execVacld (core : Fin 192) (word : BitVec 32) (s : State) : Result := s.coreOp .vacld core word

/-- VBCAST (R130). -/
def execVbcast (core : Fin 192) (word : BitVec 32) (s : State) : Result := s.coreOp .vbcast core word

/-- VEXT (R130). -/
def execVext (core : Fin 192) (word : BitVec 32) (s : State) : Result := s.coreOp .vext core word

/-- VINS (R130). -/
def execVins (core : Fin 192) (word : BitVec 32) (s : State) : Result := s.coreOp .vins core word

/-- VPERM (R130). -/
def execVperm (core : Fin 192) (word : BitVec 32) (s : State) : Result := s.coreOp .vperm core word

/-- VSPLIT (R130). -/
def execVsplit (core : Fin 192) (word : BitVec 32) (s : State) : Result := s.coreOp .vsplit core word

/-- VSLIDE (R130). -/
def execVslide (core : Fin 192) (word : BitVec 32) (s : State) : Result := s.coreOp .vslide core word

/-- LV (R135). -/
def execLv (core : Fin 192) (word : BitVec 32) (s : State) : Result := s.coreOp .lv core word

end Sys2Proof.Machine
end

