-- ==== Sys2Proof/Machine/RowsWake.lean ====
section
/-!
DEFINITION. Commands of the wake and burst unit (R272 to R300).
-/
namespace Sys2Proof.Machine

/-- FRAME (R279). -/
def execFrame (gen : Fin 4) (ctx : Fin 12) (fault : Bool) (s : State) : Result := s.unit (fun d => d.genStep gen ctx 1 fault)

/-- FRAME_AND_CW_TAIL (R276). -/
def execFrameAndCwTail (gen : Fin 4) (ctx : Fin 12) (fault : Bool) (s : State) : Result :=
  s.unit (fun d => d.genStep gen ctx 2 fault)

/-- CW_ONLY (R276). -/
def execCwOnly (gen : Fin 4) (ctx : Fin 12) (fault : Bool) (s : State) : Result := s.unit (fun d => d.genStep gen ctx 3 fault)

/-- GENERATOR_COMPLETION (R282). -/
def execGeneratorCompletion (gen : Fin 4) (s : State) : Result := s.unit (fun d => d.genComplete gen)

/-- WBU_G_ABORT (R295). -/
def execWbuGAbort (gen : Fin 4) (s : State) : Result := s.engReg 5 gen (fun d => d.wbgAbort gen)

/-- WBU_G_ENABLE (R300). -/
def execWbuGEnable (gen : Fin 4) (on : Bool) (s : State) : Result := s.engReg 5 gen (fun d => d.wbgEnable gen on)

/-- SYMBOL_READ (R285). -/
def execSymbolRead (recv : Fin 4) (ctx : Fin 12) (fault : Bool) (s : State) : Result :=
  s.unit (fun d => d.symbolRead recv ctx fault)

/-- WBU_R_STOP (R290). -/
def execWbuRStop (recv : Fin 4) (value : BitVec 32) (s : State) : Result :=
  s.engReg 9 recv (fun d => d.wbrStop recv value.toNat)

/-- WBU_R_ENABLE (R300). -/
def execWbuREnable (recv : Fin 4) (on : Bool) (s : State) : Result := s.engReg 9 recv (fun d => d.wbrEnable recv on)

end Sys2Proof.Machine
end

