-- ==== Sys2Proof/Machine/Dispatch.lean ====
section
/-!
DEFINITION. The meaning of every command, one arm for each.
-/
namespace Sys2Proof.Machine

def exec (i : Instr) (s : State) : Host.Outcome State Fault Refusal :=
  match i with
  | .registerWrite sender addr data => Sys2Proof.Machine.execRegisterWrite sender addr data s
  | .instanceCreate => Sys2Proof.Machine.execInstanceCreate s
  | .tokenAccept src => Sys2Proof.Machine.execTokenAccept src s
  | .dispatchCommit => Sys2Proof.Machine.execDispatchCommit s
  | .completionWord cls num => Sys2Proof.Machine.execCompletionWord cls num s
  | .timerFire inst node => Sys2Proof.Machine.execTimerFire inst node s
  | .sweep => Sys2Proof.Machine.execSweep s
  | .smdCancel value => Sys2Proof.Machine.execSmdCancel value s
  | .smdTplInval value => Sys2Proof.Machine.execSmdTplInval value s
  | .smildaEnable => Sys2Proof.Machine.execSmildaEnable s
  | .smildaDisable => Sys2Proof.Machine.execSmildaDisable s
  | .clrHwm => Sys2Proof.Machine.execClrHwm s
  | .add core pool => Sys2Proof.Machine.execAdd core pool s
  | .withdraw core => Sys2Proof.Machine.execWithdraw core s
  | .move core pool => Sys2Proof.Machine.execMove core pool s
  | .unitInt source => Sys2Proof.Machine.execUnitInt source s
  | .alu core word => Sys2Proof.Machine.execAlu core word s
  | .addi core word => Sys2Proof.Machine.execAddi core word s
  | .andi core word => Sys2Proof.Machine.execAndi core word s
  | .ori core word => Sys2Proof.Machine.execOri core word s
  | .xori core word => Sys2Proof.Machine.execXori core word s
  | .shi core word => Sys2Proof.Machine.execShi core word s
  | .mul core word => Sys2Proof.Machine.execMul core word s
  | .cmp core word => Sys2Proof.Machine.execCmp core word s
  | .plog core word => Sys2Proof.Machine.execPlog core word s
  | .mvsp core word => Sys2Proof.Machine.execMvsp core word s
  | .mvps core word => Sys2Proof.Machine.execMvps core word s
  | .movw core word => Sys2Proof.Machine.execMovw core word s
  | .nop core word => Sys2Proof.Machine.execNop core word s
  | .localLoad core word => Sys2Proof.Machine.execLocalLoad core word s
  | .localLoadPi core word => Sys2Proof.Machine.execLocalLoadPi core word s
  | .localStore core word => Sys2Proof.Machine.execLocalStore core word s
  | .localStorePi core word => Sys2Proof.Machine.execLocalStorePi core word s
  | .ldgw core word => Sys2Proof.Machine.execLdgw core word s
  | .ldgd core word => Sys2Proof.Machine.execLdgd core word s
  | .stgw core word => Sys2Proof.Machine.execStgw core word s
  | .stgd core word => Sys2Proof.Machine.execStgd core word s
  | .aadd core word => Sys2Proof.Machine.execAadd core word s
  | .br core word => Sys2Proof.Machine.execBr core word s
  | .call core word => Sys2Proof.Machine.execCall core word s
  | .jr core word => Sys2Proof.Machine.execJr core word s
  | .rpt core word => Sys2Proof.Machine.execRpt core word s
  | .rptr core word => Sys2Proof.Machine.execRptr core word s
  | .take core word => Sys2Proof.Machine.execTake core word s
  | .emit core word => Sys2Proof.Machine.execEmit core word s
  | .post core word => Sys2Proof.Machine.execPost core word s
  | .mfc core word => Sys2Proof.Machine.execMfc core word s
  | .mtc core word => Sys2Proof.Machine.execMtc core word s
  | .reti core word => Sys2Proof.Machine.execReti core word s
  | .trap core word => Sys2Proof.Machine.execTrap core word s
  | .fence core word => Sys2Proof.Machine.execFence core word s
  | .fenceI core word => Sys2Proof.Machine.execFenceI core word s
  | .ien core word => Sys2Proof.Machine.execIen core word s
  | .exposedResult core => Sys2Proof.Machine.execExposedResult core s
  | .scoreboardResult core index => Sys2Proof.Machine.execScoreboardResult core index s
  | .impreciseException core index => Sys2Proof.Machine.execImpreciseException core index s
  | .interruptAccept core => Sys2Proof.Machine.execInterruptAccept core s
  | .timer core => Sys2Proof.Machine.execTimer core s
  | .supervisorInterrupt core => Sys2Proof.Machine.execSupervisorInterrupt core s
  | .vadd core word => Sys2Proof.Machine.execVadd core word s
  | .vadds core word => Sys2Proof.Machine.execVadds core word s
  | .vsub core word => Sys2Proof.Machine.execVsub core word s
  | .vsubs core word => Sys2Proof.Machine.execVsubs core word s
  | .vlog core word => Sys2Proof.Machine.execVlog core word s
  | .vshl core word => Sys2Proof.Machine.execVshl core word s
  | .vshr core word => Sys2Proof.Machine.execVshr core word s
  | .vsar core word => Sys2Proof.Machine.execVsar core word s
  | .vsarr core word => Sys2Proof.Machine.execVsarr core word s
  | .vmin core word => Sys2Proof.Machine.execVmin core word s
  | .vmax core word => Sys2Proof.Machine.execVmax core word s
  | .vabs core word => Sys2Proof.Machine.execVabs core word s
  | .vcls core word => Sys2Proof.Machine.execVcls core word s
  | .vcmp core word => Sys2Proof.Machine.execVcmp core word s
  | .vsel core word => Sys2Proof.Machine.execVsel core word s
  | .vmulq core word => Sys2Proof.Machine.execVmulq core word s
  | .vcmul core word => Sys2Proof.Machine.execVcmul core word s
  | .vcmag core word => Sys2Proof.Machine.execVcmag core word s
  | .vmulw core word => Sys2Proof.Machine.execVmulw core word s
  | .vdot2 core word => Sys2Proof.Machine.execVdot2 core word s
  | .vdot4 core word => Sys2Proof.Machine.execVdot4 core word s
  | .vcmac core word => Sys2Proof.Machine.execVcmac core word s
  | .vcmacb core word => Sys2Proof.Machine.execVcmacb core word s
  | .vcmacbj core word => Sys2Proof.Machine.execVcmacbj core word s
  | .vacrd core word => Sys2Proof.Machine.execVacrd core word s
  | .vld core word => Sys2Proof.Machine.execVld core word s
  | .vldPi core word => Sys2Proof.Machine.execVldPi core word s
  | .vst core word => Sys2Proof.Machine.execVst core word s
  | .vstPi core word => Sys2Proof.Machine.execVstPi core word s
  | .vldg core word => Sys2Proof.Machine.execVldg core word s
  | .vstg core word => Sys2Proof.Machine.execVstg core word s
  | .vgath core word => Sys2Proof.Machine.execVgath core word s
  | .vscat core word => Sys2Proof.Machine.execVscat core word s
  | .vacsv core word => Sys2Proof.Machine.execVacsv core word s
  | .vacld core word => Sys2Proof.Machine.execVacld core word s
  | .vbcast core word => Sys2Proof.Machine.execVbcast core word s
  | .vext core word => Sys2Proof.Machine.execVext core word s
  | .vins core word => Sys2Proof.Machine.execVins core word s
  | .vperm core word => Sys2Proof.Machine.execVperm core word s
  | .vsplit core word => Sys2Proof.Machine.execVsplit core word s
  | .vslide core word => Sys2Proof.Machine.execVslide core word s
  | .lv core word => Sys2Proof.Machine.execLv core word s
  | .crcStartZero core word => Sys2Proof.Machine.execCrcStartZero core word s
  | .crcStartOnes core word => Sys2Proof.Machine.execCrcStartOnes core word s
  | .test core word => Sys2Proof.Machine.execTest core word s
  | .kill core word => Sys2Proof.Machine.execKill core word s
  | .inv core word => Sys2Proof.Machine.execInv core word s
  | .invh core word => Sys2Proof.Machine.execInvh core word s
  | .demap core word => Sys2Proof.Machine.execDemap core word s
  | .topkLargest core word => Sys2Proof.Machine.execTopkLargest core word s
  | .topkSmallest core word => Sys2Proof.Machine.execTopkSmallest core word s
  | .level1Result core demapper fault => Sys2Proof.Machine.execLevel1Result core demapper fault s
  | .level0JobEnd cluster sorter fault => Sys2Proof.Machine.execLevel0JobEnd cluster sorter fault s
  | .handover queue => Sys2Proof.Machine.execHandover queue s
  | .gram num fault => Sys2Proof.Machine.execGram num fault s
  | .chol num fault => Sys2Proof.Machine.execChol num fault s
  | .solve num fault => Sys2Proof.Machine.execSolve num fault s
  | .apply num fault => Sys2Proof.Machine.execApply num fault s
  | .detect num fault => Sys2Proof.Machine.execDetect num fault s
  | .eq1 num fault => Sys2Proof.Machine.execEq1 num fault s
  | .eqm num fault => Sys2Proof.Machine.execEqm num fault s
  | .beamCompletion num => Sys2Proof.Machine.execBeamCompletion num s
  | .benAbort num => Sys2Proof.Machine.execBenAbort num s
  | .benEnable num on => Sys2Proof.Machine.execBenEnable num on s
  | .ldpcDecode num fault => Sys2Proof.Machine.execLdpcDecode num fault s
  | .turboDecode num fault => Sys2Proof.Machine.execTurboDecode num fault s
  | .ldpcEncode num fault => Sys2Proof.Machine.execLdpcEncode num fault s
  | .turboEncode num fault => Sys2Proof.Machine.execTurboEncode num fault s
  | .polarEncode fault => Sys2Proof.Machine.execPolarEncode fault s
  | .polarDecode fault => Sys2Proof.Machine.execPolarDecode fault s
  | .reedMullerEncode fault => Sys2Proof.Machine.execReedMullerEncode fault s
  | .reedMullerDecode fault => Sys2Proof.Machine.execReedMullerDecode fault s
  | .convolutionalEncode fault => Sys2Proof.Machine.execConvolutionalEncode fault s
  | .convolutionalDecode fault => Sys2Proof.Machine.execConvolutionalDecode fault s
  | .smallBlockEncode fault => Sys2Proof.Machine.execSmallBlockEncode fault s
  | .smallBlockDecode fault => Sys2Proof.Machine.execSmallBlockDecode fault s
  | .codingCompletion encoder num => Sys2Proof.Machine.execCodingCompletion encoder num s
  | .codecCompletion => Sys2Proof.Machine.execCodecCompletion s
  | .fecAbort fec => Sys2Proof.Machine.execFecAbort fec s
  | .fecEnable fec on => Sys2Proof.Machine.execFecEnable fec on s
  | .fft num fault => Sys2Proof.Machine.execFft num fault s
  | .ifft num fault => Sys2Proof.Machine.execIfft num fault s
  | .prach num fault => Sys2Proof.Machine.execPrach num fault s
  | .srs num fault => Sys2Proof.Machine.execSrs num fault s
  | .resample num fault => Sys2Proof.Machine.execResample num fault s
  | .transformCompletion num => Sys2Proof.Machine.execTransformCompletion num s
  | .xfuAbort num => Sys2Proof.Machine.execXfuAbort num s
  | .xfuEnable num on => Sys2Proof.Machine.execXfuEnable num on s
  | .frame gen ctx fault => Sys2Proof.Machine.execFrame gen ctx fault s
  | .frameAndCwTail gen ctx fault => Sys2Proof.Machine.execFrameAndCwTail gen ctx fault s
  | .cwOnly gen ctx fault => Sys2Proof.Machine.execCwOnly gen ctx fault s
  | .generatorCompletion gen => Sys2Proof.Machine.execGeneratorCompletion gen s
  | .wbuGAbort gen => Sys2Proof.Machine.execWbuGAbort gen s
  | .wbuGEnable gen on => Sys2Proof.Machine.execWbuGEnable gen on s
  | .symbolRead recv ctx fault => Sys2Proof.Machine.execSymbolRead recv ctx fault s
  | .wbuRStop recv value => Sys2Proof.Machine.execWbuRStop recv value s
  | .wbuREnable recv on => Sys2Proof.Machine.execWbuREnable recv on s
  | .load queue => Sys2Proof.Machine.execLoad queue s
  | .disable queue => Sys2Proof.Machine.execDisable queue s
  | .bind queue => Sys2Proof.Machine.execBind queue s
  | .clear queue => Sys2Proof.Machine.execClear queue s
  | .queuePost sender queue desc => Sys2Proof.Machine.execQueuePost sender queue desc s
  | .qmgPost core data => Sys2Proof.Machine.execQmgPost core data s
  | .hostPost queue long data => Sys2Proof.Machine.execHostPost queue long data s
  | .stalledPost queue => Sys2Proof.Machine.execStalledPost queue s
  | .producerDoorbell queue byHost value => Sys2Proof.Machine.execProducerDoorbell queue byHost value s
  | .consumerDoorbell queue byHost value => Sys2Proof.Machine.execConsumerDoorbell queue byHost value s
  | .qmgEnable on => Sys2Proof.Machine.execQmgEnable on s
  | .channelChosen num => Sys2Proof.Machine.execChannelChosen num s
  | .moverBurst num fault => Sys2Proof.Machine.execMoverBurst num fault s
  | .moverCompletion num => Sys2Proof.Machine.execMoverCompletion num s
  | .pause num chan => Sys2Proof.Machine.execPause num chan s
  | .channelPaused num chan => Sys2Proof.Machine.execChannelPaused num chan s
  | .resume num chan => Sys2Proof.Machine.execResume num chan s
  | .abort num chan responded => Sys2Proof.Machine.execAbort num chan responded s
  | .bmvEnable num on => Sys2Proof.Machine.execBmvEnable num on s
  | .memoryRead sender addr len => Sys2Proof.Machine.execMemoryRead sender addr len s
  | .memoryWrite sender addr data => Sys2Proof.Machine.execMemoryWrite sender addr data s
  | .octetFlush => Sys2Proof.Machine.execOctetFlush s
  | .goat ddr => Sys2Proof.Machine.execGoat ddr s
  | .logEntry => Sys2Proof.Machine.execLogEntry s
  | .memLogCi sender value => Sys2Proof.Machine.execMemLogCi sender value s
  | .memRetireEntry entry value => Sys2Proof.Machine.execMemRetireEntry entry value s
  | .memPoolRetire value => Sys2Proof.Machine.execMemPoolRetire value s
  | .memClusterRetire value => Sys2Proof.Machine.execMemClusterRetire value s
  | .fill => Sys2Proof.Machine.execFill s
  | .frameReceive port raw corrected uncorrectable => Sys2Proof.Machine.execFrameReceive port raw corrected uncorrectable s
  | .arrivalDescriptor port => Sys2Proof.Machine.execArrivalDescriptor port s
  | .ruleCommit => Sys2Proof.Machine.execRuleCommit s
  | .linkChange port align lock remote => Sys2Proof.Machine.execLinkChange port align lock remote s
  | .launch port => Sys2Proof.Machine.execLaunch port s
  | .txGated => Sys2Proof.Machine.execTxGated s
  | .saInstall port tx sci window an key xpn ssci salt clear => Sys2Proof.Machine.execSaInstall port tx sci window an key xpn ssci salt clear s
  | .fhnEnable on => Sys2Proof.Machine.execFhnEnable on s
  | .tmuMeasCtl value => Sys2Proof.Machine.execTmuMeasCtl value s
  | .ppsIn sub => Sys2Proof.Machine.execPpsIn sub s
  | .ppsInMissing => Sys2Proof.Machine.execPpsInMissing s
  | .measTimeout => Sys2Proof.Machine.execMeasTimeout s
  | .holdLimitExpiry => Sys2Proof.Machine.execHoldLimitExpiry s
  | .acceptStep => Sys2Proof.Machine.execAcceptStep s
  | .refclkLoss => Sys2Proof.Machine.execRefclkLoss s
  | .refclkReturn => Sys2Proof.Machine.execRefclkReturn s
  | .rtcRateWindow cycles => Sys2Proof.Machine.execRtcRateWindow cycles s
  | .ppsOut => Sys2Proof.Machine.execPpsOut s
  | .ppsOutEnd => Sys2Proof.Machine.execPpsOutEnd s
  | .tddEvent => Sys2Proof.Machine.execTddEvent s
  | .tddCommit => Sys2Proof.Machine.execTddCommit s
  | .tddTakeEffect => Sys2Proof.Machine.execTddTakeEffect s
  | .cphSubmit sender page addr => Sys2Proof.Machine.execCphSubmit sender page addr s
  | .cipherTake num => Sys2Proof.Machine.execCipherTake num s
  | .aesCtr num fault => Sys2Proof.Machine.execAesCtr num fault s
  | .aesGcm num fault => Sys2Proof.Machine.execAesGcm num fault s
  | .aesCmac num fault => Sys2Proof.Machine.execAesCmac num fault s
  | .nea1 num fault => Sys2Proof.Machine.execNea1 num fault s
  | .nia1 num fault => Sys2Proof.Machine.execNia1 num fault s
  | .nea2 num fault => Sys2Proof.Machine.execNea2 num fault s
  | .nia2 num fault => Sys2Proof.Machine.execNia2 num fault s
  | .nea3 num fault => Sys2Proof.Machine.execNea3 num fault s
  | .nia3 num fault => Sys2Proof.Machine.execNia3 num fault s
  | .cipherCompletion num => Sys2Proof.Machine.execCipherCompletion num s
  | .keyLoad sender page ktype hwctr => Sys2Proof.Machine.execKeyLoad sender page ktype hwctr s
  | .zeroise sender page => Sys2Proof.Machine.execZeroise sender page s
  | .enterService lean => Sys2Proof.Machine.execEnterService lean s
  | .leanFullSwitch lean => Sys2Proof.Machine.execLeanFullSwitch lean s
  | .leaveService => Sys2Proof.Machine.execLeaveService s
  | .dormantEntry => Sys2Proof.Machine.execDormantEntry s
  | .dormantWake ddrKept regFault => Sys2Proof.Machine.execDormantWake ddrKept regFault s
  | .enterMaintenance => Sys2Proof.Machine.execEnterMaintenance s
  | .leaveMaintenance => Sys2Proof.Machine.execLeaveMaintenance s
  | .autoLean busy all => Sys2Proof.Machine.execAutoLean busy all s
  | .nap index idleNs => Sys2Proof.Machine.execNap index idleNs s
  | .napWake index => Sys2Proof.Machine.execNapWake index s
  | .dozeEntry index => Sys2Proof.Machine.execDozeEntry index s
  | .dozeWake index => Sys2Proof.Machine.execDozeWake index s
  | .wakeN => Sys2Proof.Machine.execWakeN s
  | .rtcAlarm => Sys2Proof.Machine.execRtcAlarm s
  | .sensorRead temps volts => Sys2Proof.Machine.execSensorRead temps volts s
  | .pmbusTelemetry bad => Sys2Proof.Machine.execPmbusTelemetry bad s
  | .avsReadback mv => Sys2Proof.Machine.execAvsReadback mv s
  | .runInterval => Sys2Proof.Machine.execRunInterval s
  | .calibrationStep target margins => Sys2Proof.Machine.execCalibrationStep target margins s
  | .forcedStep target margins => Sys2Proof.Machine.execForcedStep target margins s
  | .trimRequest mask => Sys2Proof.Machine.execTrimRequest mask s
  | .sessionOpen source msg => Sys2Proof.Machine.execSessionOpen source msg s
  | .sessionAuth source msg => Sys2Proof.Machine.execSessionAuth source msg s
  | .sessionClose source msg => Sys2Proof.Machine.execSessionClose source msg s
  | .keepalive source msg => Sys2Proof.Machine.execKeepalive source msg s
  | .get source msg => Sys2Proof.Machine.execGet source msg s
  | .set source msg => Sys2Proof.Machine.execSet source msg s
  | .command source msg => Sys2Proof.Machine.execCommand source msg s
  | .describe source msg => Sys2Proof.Machine.execDescribe source msg s
  | .list source msg => Sys2Proof.Machine.execList source msg s
  | .sessionTimeout => Sys2Proof.Machine.execSessionTimeout s
  | .blockExpiry => Sys2Proof.Machine.execBlockExpiry s
  | .supMbDoorbell value => Sys2Proof.Machine.execSupMbDoorbell value s
  | .supMbNotifyCi value => Sys2Proof.Machine.execSupMbNotifyCi value s
  | .bar4Access offset write len data => Sys2Proof.Machine.execBar4Access offset write len data s
  | .pciePerstN => Sys2Proof.Machine.execPciePerstN s
  | .profileLoad slot => Sys2Proof.Machine.execProfileLoad slot s
  | .porstNRelease profile bootMode refsel => Sys2Proof.Machine.execPorstNRelease profile bootMode refsel s
  | .bootStandby => Sys2Proof.Machine.execBootStandby s
  | .open session target flashFault => Sys2Proof.Machine.execOpen session target flashFault s
  | .chunk session data flashFault => Sys2Proof.Machine.execChunk session data flashFault s
  | .copy session data flashFault => Sys2Proof.Machine.execCopy session data flashFault s
  | .finish session flashFault => Sys2Proof.Machine.execFinish session flashFault s
  | .verify session => Sys2Proof.Machine.execVerify session s
  | .activate session time flashFault => Sys2Proof.Machine.execActivate session time flashFault s
  | .close session => Sys2Proof.Machine.execClose session s
  | .cancel session => Sys2Proof.Machine.execCancel session s
  | .confirm session => Sys2Proof.Machine.execConfirm session s
  | .reject session => Sys2Proof.Machine.execReject session s
  | .enroll session key => Sys2Proof.Machine.execEnroll session key s
  | .scheduledActivation => Sys2Proof.Machine.execScheduledActivation s
  | .windowMissed => Sys2Proof.Machine.execWindowMissed s
  | .fallBack => Sys2Proof.Machine.execFallBack s
  | .obsSnap => Sys2Proof.Machine.execObsSnap s
  | .traceBatch => Sys2Proof.Machine.execTraceBatch s
  | .acknowledge seq => Sys2Proof.Machine.execAcknowledge seq s
  | .forced => Sys2Proof.Machine.execForced s
  | .supWatchdog => Sys2Proof.Machine.execSupWatchdog s
  | .fabricTimeout requester addr => Sys2Proof.Machine.execFabricTimeout requester addr s
  | .pllNoLock pll => Sys2Proof.Machine.execPllNoLock pll s
  | .fatalError => Sys2Proof.Machine.execFatalError s
  | .dumpFlashCopy => Sys2Proof.Machine.execDumpFlashCopy s
  | .dumpRelease => Sys2Proof.Machine.execDumpRelease s
  | .restart => Sys2Proof.Machine.execRestart s
  | .porstNAssertion => Sys2Proof.Machine.execPorstNAssertion s
  | .sysrstNAssertion => Sys2Proof.Machine.execSysrstNAssertion s
  | .sysrstNRelease => Sys2Proof.Machine.execSysrstNRelease s
  | .bypass trst tdi => Sys2Proof.Machine.execBypass trst tdi s
  | .idcode trst => Sys2Proof.Machine.execIdcode trst s
  | .samplePreload trst levels tdi => Sys2Proof.Machine.execSamplePreload trst levels tdi s
  | .extest trst levels tdi => Sys2Proof.Machine.execExtest trst levels tdi s
  | .gpioSample levels => Sys2Proof.Machine.execGpioSample levels s
  | .pciePerstNRelease => Sys2Proof.Machine.execPciePerstNRelease s
  | .wakeNPulseEnd => Sys2Proof.Machine.execWakeNPulseEnd s

end Sys2Proof.Machine
end

