-- ==== Sys2Proof/Safety.lean ====
section
/-!
DEFINITION. The words in which claims are stated: what flash and OTP may do, and when a core is ready for an operation.
-/
namespace Sys2Proof
open Machine

/-- The core operations among the commands, with their core and word. -/
def Instr.coreOp : Instr → Option (CoreOp × Fin 192 × BitVec 32)
  | .alu c w => some (.alu, c, w)
  | .addi c w => some (.addi, c, w)
  | .andi c w => some (.andi, c, w)
  | .ori c w => some (.ori, c, w)
  | .xori c w => some (.xori, c, w)
  | .shi c w => some (.shi, c, w)
  | .mul c w => some (.mul, c, w)
  | .cmp c w => some (.cmp, c, w)
  | .plog c w => some (.plog, c, w)
  | .mvsp c w => some (.mvsp, c, w)
  | .mvps c w => some (.mvps, c, w)
  | .movw c w => some (.movw, c, w)
  | .nop c w => some (.nop, c, w)
  | .localLoad c w => some (.load, c, w)
  | .localLoadPi c w => some (.loadPi, c, w)
  | .localStore c w => some (.store, c, w)
  | .localStorePi c w => some (.storePi, c, w)
  | .ldgw c w => some (.ldgw, c, w)
  | .ldgd c w => some (.ldgd, c, w)
  | .stgw c w => some (.stgw, c, w)
  | .stgd c w => some (.stgd, c, w)
  | .aadd c w => some (.aadd, c, w)
  | .br c w => some (.br, c, w)
  | .call c w => some (.call, c, w)
  | .jr c w => some (.jr, c, w)
  | .rpt c w => some (.rpt, c, w)
  | .rptr c w => some (.rptr, c, w)
  | .take c w => some (.take, c, w)
  | .emit c w => some (.emit, c, w)
  | .post c w => some (.post, c, w)
  | .mfc c w => some (.mfc, c, w)
  | .mtc c w => some (.mtc, c, w)
  | .reti c w => some (.reti, c, w)
  | .trap c w => some (.trap, c, w)
  | .fence c w => some (.fence, c, w)
  | .fenceI c w => some (.fenceI, c, w)
  | .ien c w => some (.ien, c, w)
  | .vadd c w => some (.vadd, c, w)
  | .vadds c w => some (.vadds, c, w)
  | .vsub c w => some (.vsub, c, w)
  | .vsubs c w => some (.vsubs, c, w)
  | .vlog c w => some (.vlog, c, w)
  | .vshl c w => some (.vshl, c, w)
  | .vshr c w => some (.vshr, c, w)
  | .vsar c w => some (.vsar, c, w)
  | .vsarr c w => some (.vsarr, c, w)
  | .vmin c w => some (.vmin, c, w)
  | .vmax c w => some (.vmax, c, w)
  | .vabs c w => some (.vabs, c, w)
  | .vcls c w => some (.vcls, c, w)
  | .vcmp c w => some (.vcmp, c, w)
  | .vsel c w => some (.vsel, c, w)
  | .vmulq c w => some (.vmulq, c, w)
  | .vcmul c w => some (.vcmul, c, w)
  | .vcmag c w => some (.vcmag, c, w)
  | .vmulw c w => some (.vmulw, c, w)
  | .vdot2 c w => some (.vdot2, c, w)
  | .vdot4 c w => some (.vdot4, c, w)
  | .vcmac c w => some (.vcmac, c, w)
  | .vcmacb c w => some (.vcmacb, c, w)
  | .vcmacbj c w => some (.vcmacbj, c, w)
  | .vacrd c w => some (.vacrd, c, w)
  | .vld c w => some (.vld, c, w)
  | .vldPi c w => some (.vldPi, c, w)
  | .vst c w => some (.vst, c, w)
  | .vstPi c w => some (.vstPi, c, w)
  | .vldg c w => some (.vldg, c, w)
  | .vstg c w => some (.vstg, c, w)
  | .vgath c w => some (.vgath, c, w)
  | .vscat c w => some (.vscat, c, w)
  | .vacsv c w => some (.vacsv, c, w)
  | .vacld c w => some (.vacld, c, w)
  | .vbcast c w => some (.vbcast, c, w)
  | .vext c w => some (.vext, c, w)
  | .vins c w => some (.vins, c, w)
  | .vperm c w => some (.vperm, c, w)
  | .vsplit c w => some (.vsplit, c, w)
  | .vslide c w => some (.vslide, c, w)
  | .lv c w => some (.lv, c, w)
  | .crcStartZero c w => some (.crcZero, c, w)
  | .crcStartOnes c w => some (.crcOnes, c, w)
  | .test c w => some (.test, c, w)
  | .kill c w => some (.kill, c, w)
  | .inv c w => some (.inv, c, w)
  | .invh c w => some (.invh, c, w)
  | .demap c w => some (.demap, c, w)
  | .topkLargest c w => some (.topkLargest, c, w)
  | .topkSmallest c w => some (.topkSmallest, c, w)
  | _ => none

namespace Machine

/-- What holds of flash and OTP: four OTP entries and minima, seven slot states in every copy of the boot control block, and a
VALID OTP entry holds a hash (R520, R523 to R525). -/
def Vault.sound (v : Vault) : Prop :=
  v.otp.length = 4 ∧ v.svn.length = 4 ∧ (∀ e : OtpEntry, e ∈ v.otp → e.valid = true → e.hash.isSome = true)
    ∧ (∀ b : Bcb, v.bcb0 = some b ∨ v.bcb1 = some b → b.slots.length = 7)

/-- What flash and OTP only gain: programmed OTP entries stay, minima never fall, and neither do the sequence number of the
governing boot control block nor the count of challenges (R504, R521, R523, R525). -/
def Vault.keeps (v w : Vault) : Prop :=
  (∀ (n : Nat) (e : OtpEntry), v.otp[n]? = some e → e.valid = true → w.otp[n]? = some e)
    ∧ (∀ n : Nat, v.svn.getD n 0 ≤ w.svn.getD n 0) ∧ v.bcb.seq ≤ w.bcb.seq ∧ v.chal ≤ w.chal

/-! ### A core that is ready for an operation -/

/-- Core `c` can issue and stands at a bundle boundary: no repeat or long vector is under way, nothing is in flight or
outstanding, no interrupt is due, and its program memory holds no damage where the pc points. -/
structure Calm (d : Dev) (c : Nat) : Prop where
  core     : c < 192
  runs     : d.coreRuns c = true
  bundle   : (d.core c).bundle = []
  inflight : (d.core c).inflight = []
  outst    : (d.core c).outst = []
  errs     : (d.core c).errs = []
  impPend  : (d.core c).impPend = none
  rptNext  : (d.core c).rptNext = none
  lv       : (d.core c).lv = false
  line     : (d.core c).mayAccept = true → d.dueLine c = none
  cluster  : bit (d.regN (memBase + 0x54)) (c / 8) = false
  aligned  : (d.core c).pc.toNat % 4 = 0
  fetch    : d.mem.lineQuiet ((lmBase c + 0x40000 + (d.core c).pc.toNat) / 64) = true

/-- `w` is a legal word of operation `o` that ends its bundle, and core `c` of a device whose clocks run is ready for it. -/
structure Ready1 (s : State) (c : Nat) (w : BitVec 32) (o : CoreOp) : Prop where
  clocked : s.dev.clocked = true
  calm    : Calm s.dev c
  op      : opOf w.toNat = some o
  last    : opEnd w.toNat = true
  legal   : fieldsOk w.toNat = true

/-- The operation executes: it is not predicated off (R82, R127). -/
def Ready1.Runs (s : State) (c : Nat) (w : BitVec 32) : Prop := (s.dev.core c).runs w.toNat = true

/-- The core with an operation as its bundle. -/
def Core.withOp (k : Core) (w : BitVec 32) : Core := { k with bundle := [w] }

/-- A core one bundle of one operation on: the next pc and cycle, and these register writes, each of its latency, on their
way (R85). -/
def Core.issued (k : Core) (wrs : List (Nat × RegWr)) : Core :=
  { k with
    pc := k.pc + 4, cycle := (k.cycle + 1) % 2 ^ 64,
    inflight := wrs.map (fun x => { due := x.1 - 1, wr := x.2, fg := !k.bank }) }

/-- The machine after core `c` has become `k`, with nothing else changed. -/
def State.coreTo (s : State) (c : Nat) (k : Core) : State := s.withDev (s.dev.setCore c k)

end Machine

end Sys2Proof
end

