-- ==== Sys2Proof/Certificates/Slice0/Obligations.lean ====
section
/-!
DEFINITION. The statements for the provers, with the tables and words in which they are stated.
-/
open Sys2Proof Sys2Proof.Machine

/-! ## The whole machine -/

/-- A step runs the command at the front of the queue with the rest of the queue. -/
def Obligations.StepFront : Prop :=
  ∀ (c : Instr) (rest : List Instr) (s : State),
    Sys2Proof.Machine.step { s with pending := c :: rest } = Sys2Proof.Machine.exec c { s with pending := rest }

namespace Sys2Proof.Machine

/-- Number of positions below `n` that meet a test. -/
def countBelow (n : Nat) (p : Nat → Bool) : Nat := ((List.range n).filter p).length

/-- R89's ALU table by SUB, in integers. -/
def aluTable (sub : Nat) (a b : BitVec 32) : Int :=
  let n := b.toNat % 32
  match sub with
  | 0 => a.toInt + b.toInt
  | 1 => a.toInt - b.toInt
  | 2 => (a &&& b).toNat
  | 3 => (a ||| b).toNat
  | 4 => (a ^^^ b).toNat
  | 5 => a.toNat * 2 ^ n
  | 6 => a.toNat / 2 ^ n
  | 7 => a.toInt / 2 ^ n
  | 8 => min a.toInt b.toInt
  | 9 => max a.toInt b.toInt
  | 10 => min a.toNat b.toNat
  | 11 => max a.toNat b.toNat
  | 12 => countBelow 32 (fun i => decide (a.toNat < 2 ^ i))
  | _ => countBelow 32 (fun i => a.getLsbD i)

/-- R89's SHI, MUL and CMP tables. -/
def shiTable (kind n : Nat) (a : BitVec 32) : Int :=
  match kind with
  | 0 => a.toNat * 2 ^ n
  | 1 => a.toNat / 2 ^ n
  | _ => a.toInt / 2 ^ n
def mulTable (sub : Nat) (a b : BitVec 32) : Int :=
  match sub with
  | 0 => a.toInt * b.toInt
  | 1 => a.toInt * b.toInt / 2 ^ 32
  | _ => a.toNat * b.toNat / 2 ^ 32
def cmpTable (cond : Nat) (a b : BitVec 32) : Prop :=
  match cond with
  | 0 => a.toInt = b.toInt
  | 1 => a.toInt ≠ b.toInt
  | 2 => a.toInt < b.toInt
  | 3 => a.toInt ≥ b.toInt
  | 4 => a.toNat < b.toNat
  | _ => a.toNat ≥ b.toNat

/-- A write of scalar register `n` in the bank of `k`. -/
def Core.putS (k : Core) (n : Nat) (x : Int) : RegWr := .s (k.bank && decide (8 ≤ n)) n (BitVec.ofInt 32 x)

/-- The machine after core `c` has issued one operation, with its register writes and their latencies. -/
def State.issues (s : State) (c : Nat) (wrs : List (Nat × RegWr)) : State := s.coreTo c ((s.dev.core c).issued wrs)

/-- The same for one scalar result. -/
def State.scalarTo (s : State) (c lat n : Nat) (x : Int) : State := s.issues c [(lat, (s.dev.core c).putS n x)]

end Sys2Proof.Machine

/-- The scalar operations of R89 that execute: the destination's value, its latency, and nothing else but the pc and the
cycle count changes. -/
def Obligations.ScalarArithmetic : Prop :=
  ∀ (s : State) (c : Fin 192) (w : BitVec 32), Ready1.Runs s c w →
    let k := s.dev.core c
    let n := w.toNat
    let a := k.s (opA n)
    let b := k.s (opB n)
    let d := opD n
    (Ready1 s c w .alu → exec (.alu c w) s = .next (s.scalarTo c 1 d (aluTable (opSub n) a b)))
    ∧ (Ready1 s c w .addi → exec (.addi c w) s = .next (s.scalarTo c 1 d (a.toInt + opImm9 n)))
    ∧ (Ready1 s c w .andi → exec (.andi c w) s = .next (s.scalarTo c 1 d (a &&& BitVec.ofInt 32 (opImm9 n)).toNat))
    ∧ (Ready1 s c w .ori → exec (.ori c w) s = .next (s.scalarTo c 1 d (a.toNat ||| n % 512 : Nat)))
    ∧ (Ready1 s c w .xori → exec (.xori c w) s = .next (s.scalarTo c 1 d (a.toNat ^^^ n % 512 : Nat)))
    ∧ (Ready1 s c w .shi → exec (.shi c w) s = .next (s.scalarTo c 1 d (shiTable (fld n 6 5) (n % 32) a)))
    ∧ (Ready1 s c w .mul → exec (.mul c w) s = .next (s.scalarTo c 2 d (mulTable (opSub n) a b)))
    ∧ (Ready1 s c w .movw → exec (.movw c w) s = .next (s.scalarTo c 1 (fld n 22 18)
        (if bit n 17 then 65536 * (n % 65536) + (k.s (fld n 22 18)).toNat % 65536 else n % 65536 : Nat)))
    ∧ (Ready1 s c w .nop → exec (.nop c w) s = .next (s.issues c []))

/-- The operations of R89 on predicates: all 64 bits of PD, or a pair of scalars from one predicate. -/
def Obligations.PredicateOperations : Prop :=
  ∀ (s : State) (c : Fin 192) (w : BitVec 32), Ready1.Runs s c w →
    let k := s.dev.core c
    let n := w.toNat
    let goto := fun v : BitVec 64 => s.issues c [(1, .p (k.bank && decide (opPD n < 4)) (opPD n) (BitVec.allOnes 64) v)]
    (Ready1 s c w .cmp → ∀ r : Bool, (cmpTable (opSub n) (k.s (opA n)) (k.s (opB n)) ↔ r = true) →
        exec (.cmp c w) s = .next (goto (if r then BitVec.allOnes 64 else 0)))
    ∧ (Ready1 s c w .plog → exec (.plog c w) s = .next (goto (
        let x := k.p (fld n 13 11)
        let y := k.p (fld n 8 6)
        match opSub n with
        | 0 => x &&& y
        | 1 => x ||| y
        | 2 => x ^^^ y
        | 3 => x &&& ~~~y
        | _ => ~~~x)))
    ∧ (Ready1 s c w .mvsp → exec (.mvsp c w) s = .next (goto (k.s (opA n + 1) ++ k.s (opA n))))
    ∧ (Ready1 s c w .mvps →
        let x := k.p (fld n 13 11)
        exec (.mvps c w) s = .next (s.issues c
          [(1, k.putS (opD n) (x.toNat % 2 ^ 32 : Nat)), (1, k.putS (opD n + 1) (x.toNat / 2 ^ 32 : Nat))]))

/-- A predicated scalar or control operation whose predicate bit is 0 only passes. -/
def Obligations.PredicatedOffDoesNothing : Prop :=
  ∀ (s : State) (i : Instr) (o : CoreOp) (c : Fin 192) (w : BitVec 32), i.coreOp = some (o, c, w) →
    Ready1 s c w o → opUnit w.toNat < 2 → opPen w.toNat = true → o ≠ .movw →
    (o = .reti → (s.dev.core c).bank = true) →
    ((s.dev.core c).p (opPreg w.toNat)).getLsbD 0 = false → exec i s = .next (s.issues c [])

namespace Sys2Proof.Machine

/-- No damage is stored in the lines that hold `n` bytes from `p` on. -/
def MemState.quietAt (m : MemState) (p n : Nat) : Prop := ∀ x : Nat, p ≤ x → x < p + n → m.lineQuiet (x / 64) = true

/-- Every byte after a store of `bs` at `p`: the stored ones there, the old ones elsewhere. -/
def MemState.StoredAt (m m' : MemState) (p : Nat) (bs : List Byte) : Prop :=
  ∀ x : Nat, m'.byte x = if p ≤ x ∧ x < p + bs.length then bs.getD (x - p) 0 else m.byte x

/-- Only core `c`, memory contents and the count of partial writes differ. -/
def Dev.OnlyStore (d d' : Dev) (c : Nat) : Prop :=
  d' = { d with cores := d'.cores, mem := d'.mem, regs := d'.regs } ∧ (∀ j : Nat, j ≠ c → d'.core j = d.core j)
    ∧ (∀ a : Nat, a ≠ memCnt 9 → a ≠ memCnt 9 + 4 → d'.reg a = d.reg a)

/-- What a scalar local load of R90 writes: `v` is the little-endian value of its bytes. -/
def loadTable (k : Core) (code d v : Nat) : List RegWr :=
  match (code - 0x10) % 6 with
  | 0 => [k.putS d (toSigned 8 v)]
  | 1 => [k.putS d v]
  | 2 => [k.putS d (toSigned 16 v)]
  | 3 => [k.putS d v]
  | 4 => [k.putS d v]
  | _ => [k.putS d (v % 2 ^ 32 : Nat), k.putS (d + 1) (v / 2 ^ 32 : Nat)]

/-- Sizes of the scalar local loads and stores of R90. -/
def loadSize (code : Nat) : Nat := [1, 1, 2, 2, 4, 8].getD ((code - 0x10) % 6) 0
def storeSize (code : Nat) : Nat := [1, 2, 4, 8].getD ((code - 0x1C) % 4) 0

/-- The local address of SRCA with its scaled offset, or of SRCA alone. -/
def Core.localAt (k : Core) (w size : Nat) (pi : Bool) : Nat :=
  if pi then (k.s (opA w)).toNat else (((k.s (opA w)).toNat + opImm9 w * (size : Nat)) % (2 ^ 32 : Nat)).toNat

/-- Scalar local loads. -/
def LocalLoadsRule : Prop :=
  ∀ (s : State) (c : Fin 192) (w : BitVec 32), Ready1.Runs s c w →
    let k := s.dev.core c
    let n := w.toNat
    let size := loadSize (opCode n)
    let go := fun pi : Bool =>
      let a := k.localAt n size pi
      a % size = 0 → a + size ≤ 0x40000 → s.dev.mem.quietAt (lmBase c + a) size →
      let loaded := (loadTable k (opCode n) (opD n) (leNat (s.dev.mem.bytes (lmBase c + a) size))).map (fun x => ((6 : Nat), x))
      exec (if pi then .localLoadPi c w else .localLoad c w) s =
        .next (s.issues c (loaded ++
          if pi then [((1 : Nat), k.putS (opA n) ((k.s (opA n)).toNat + opImm9 n * (size : Nat)))] else []))
    (Ready1 s c w .load → go false) ∧ (Ready1 s c w .loadPi → go true)

/-- Scalar local stores. -/
def LocalStoresRule : Prop :=
  ∀ (s : State) (c : Fin 192) (w : BitVec 32), Ready1.Runs s c w →
    let k := s.dev.core c
    let n := w.toNat
    let size := storeSize (opCode n)
    let bs := leBytes size ((k.s (opD n)).toNat + if size = 8 then 2 ^ 32 * (k.s (opD n + 1)).toNat else 0)
    let go := fun pi : Bool =>
      let a := k.localAt n size pi
      a % size = 0 → a + size ≤ 0x40000 → s.dev.mem.quietAt (lmBase c + a) size →
      ∃ d' : Dev, exec (if pi then .localStorePi c w else .localStore c w) s = .next (s.withDev d')
        ∧ s.dev.mem.StoredAt d'.mem (lmBase c + a) bs ∧ s.dev.OnlyStore d' c
        ∧ d'.core c = k.issued (if pi then [(1, k.putS (opA n) ((k.s (opA n)).toNat + opImm9 n * (size : Nat)))] else [])
    (Ready1 s c w .store → go false) ∧ (Ready1 s c w .storePi → go true)

end Sys2Proof.Machine

/-- Local loads and stores take and give the bytes of the data alias. -/
def Obligations.LocalMemoryOperations : Prop := LocalLoadsRule ∧ LocalStoresRule

namespace Sys2Proof.Machine

/-- The 64-bit address of a global scalar access: the pair plus its scaled offset. -/
def Core.globalAt (k : Core) (w size : Nat) : Nat :=
  (((k.s (opA w)).toNat + 2 ^ 32 * (k.s (opA w + 1)).toNat + opImm9 w * (size : Nat)) % (2 ^ 64 : Nat)).toNat

/-- The device while the operation of core `c` issues: the word is the core's bundle, and the pc stands at it or past it. -/
def Dev.issuing (d : Dev) (c : Nat) (w : BitVec 32) (past : Bool) : Dev :=
  let k := (d.core c).withOp w
  d.setCore c (if past then { k with pc := k.pc + 4 } else k)

/-- A response is outstanding for scalar registers of `k`, with the writes it brings. -/
def Core.owes (k : Core) (regs : List Nat) (wrs : List RegWr) (atomic : Bool) : Core :=
  { k.issued [] with outst :=
    [{ regs := regs.map (fun n => .s (k.bank && decide (8 ≤ n)) n), wrs := wrs, atomic := atomic, bank := k.bank,
       eopc := k.pc.toNat }] }

/-- Global scalar accesses that are answered without error. -/
def GlobalAccessesRule : Prop :=
  ∀ (s : State) (c : Fin 192) (w : BitVec 32), Ready1.Runs s c w →
    let k := s.dev.core c
    let n := w.toNat
    let d := opD n
    let d0 := s.dev.issuing c w false
    let d1 := s.dev.issuing c w true
    let fine := fun (a size : Nat) (rd wr : Bool) => a % size = 0 ∧ a < 2 ^ 40 ∧ k.permits a rd wr = true
    (∀ (d2 : Dev) (bs : List Byte), Ready1 s c w .ldgw → fine (k.globalAt n 4) 4 true false →
        d0.busRead (.core c) (k.globalAt n 4) 4 = (d2, .ok bs) → d2.core c = d0.core c →
        exec (.ldgw c w) s = .next (s.withDev (d2.setCore c (k.owes [d] [k.putS d (leNat bs)] false))))
    ∧ (∀ (d2 : Dev) (bs : List Byte), Ready1 s c w .ldgd → fine (k.globalAt n 8) 8 true false →
        d0.busRead (.core c) (k.globalAt n 8) 8 = (d2, .ok bs) → d2.core c = d0.core c →
        exec (.ldgd c w) s = .next (s.withDev (d2.setCore c (k.owes [d, d + 1]
          [k.putS d (leNat bs % 2 ^ 32 : Nat), k.putS (d + 1) (leNat bs / 2 ^ 32 : Nat)] false))))
    ∧ (∀ d2 : Dev, Ready1 s c w .stgw → fine (k.globalAt n 4) 4 false true →
        d1.busWrite (.core c) (k.globalAt n 4) (leBytes 4 (k.s d).toNat) = (d2, .ok) → d2.core c = d1.core c →
        exec (.stgw c w) s = .next (s.withDev (d2.setCore c (k.issued []))))
    ∧ (∀ d2 : Dev, Ready1 s c w .stgd → fine (k.globalAt n 8) 8 false true →
        d1.busWrite (.core c) (k.globalAt n 8) (leBytes 8 ((k.s d).toNat + 2 ^ 32 * (k.s (d + 1)).toNat)) = (d2, .ok) →
        d2.core c = d1.core c → exec (.stgd c w) s = .next (s.withDev (d2.setCore c (k.issued []))))
    ∧ (∀ (d2 d3 : Dev) (bs : List Byte), Ready1 s c w .aadd → fine (k.globalAt n 4) 4 true true →
        atomicPlace (k.globalAt n 4) = true → d1.busRead (.core c) (k.globalAt n 4) 4 = (d2, .ok bs) →
        d2.busWrite (.core c) (k.globalAt n 4) (leBytes 4 ((leNat bs + (k.s d).toNat) % 2 ^ 32)) = (d3, .ok) →
        d3.core c = d1.core c →
        exec (.aadd c w) s = .next (s.withDev (d3.setCore c (k.owes [d] [k.putS d (leNat bs)] true))))

/-- Branches that are taken. -/
def TakenBranchesRule : Prop :=
  ∀ (s : State) (c : Fin 192) (w : BitVec 32), Ready1.Runs s c w →
    let k := s.dev.core c
    let n := w.toNat
    let pc := k.pc.toNat
    let near := (((pc : Int) + 4 * toSigned 19 n) % (65536 : Nat)).toNat
    let goto := fun (target : Nat) (wrs : List (Nat × RegWr)) =>
      s.withDev ((s.dev.trace 5 c (pc + 65536 * target)).setCore c
        { k.issued wrs with pc := BitVec.ofNat 16 target, cycle := (k.cycle + 3) % 2 ^ 64 })
    (Ready1 s c w .br → exec (.br c w) s = .next (goto near []))
    ∧ (Ready1 s c w .call → exec (.call c w) s = .next (goto near [(1, k.putS 31 ((pc : Nat) + 4 : Nat))]))
    ∧ (Ready1 s c w .jr → (k.s (opA n)).toNat % 4 = 0 →
        exec (.jr c w) s = .next (goto ((k.s (opA n)).toNat % 65536) []))

/-- RPT and RPTR arm a repeat; the RPT bundle's own cycle is counted when the repeat begins (the model's convention). -/
def RepeatsAreArmedRule : Prop :=
  ∀ (s : State) (c : Fin 192) (w : BitVec 32), Ready1.Runs s c w →
    let k := s.dev.core c
    let armed := fun n : Nat => s.coreTo c { k with pc := k.pc + 4, rptNext := some (n, some k.pc.toNat) }
    (Ready1 s c w .rpt → exec (.rpt c w) s = .next (armed (w.toNat % 4096 + 1)))
    ∧ (Ready1 s c w .rptr → (k.s (opA w.toNat)).toNat ≤ 4096 → exec (.rptr c w) s = .next (armed (k.s (opA w.toNat)).toNat))
    ∧ (Ready1 s c w .rptr → 4096 < (k.s (opA w.toNat)).toNat → k.bank = false →
        ∃ d' : Dev, exec (.rptr c w) s = .next (s.withDev d') ∧ ((d'.core c).cr 0x1C).toNat % 256 = 1
          ∧ ((d'.core c).cr 0x14).toNat = k.pc.toNat ∧ (d'.core c).bank = true)

end Sys2Proof.Machine

/-- BR, CALL and JR set the pc, and RPT and RPTR arm a repeat of the next bundle. -/
def Obligations.BranchesAndRepeats : Prop := TakenBranchesRule ∧ RepeatsAreArmedRule

namespace Sys2Proof.Machine

/-- Writes of control registers by MTC, and IEN. -/
def ControlRegisterWritesRule : Prop :=
  ∀ (s : State) (c : Fin 192) (w : BitVec 32), Ready1.Runs s c w →
    let k := s.dev.core c
    let o := 4 * opCR w.toNat
    let v := k.s (opA w.toNat)
    let sets := fun x : BitVec 32 => exec (.mtc c w) s = .next (s.coreTo c ((k.setCr o x).issued []))
    (Ready1 s c w .mtc →
      (o ∈ [0xC, 0x10, 0x14] → sets (v &&& 0xFFFC))
      ∧ (o ∈ [0x18, 0x38] → sets (v &&& 0xF))
      ∧ (o = 0x2C → sets (v &&& 0xFFF))
      ∧ (o = 0x34 → sets ((k.cr 0x34) &&& 0xF &&& ~~~(v &&& 0xF)))
      ∧ (o = 0x4 → sets (((k.cr 0x4) &&& 2) ||| (v &&& 1)))
      ∧ (o = 0x50 → sets v)
      ∧ (o = 0x54 → exec (.mtc c w) s = .next (s.coreTo c { (k.setCr o v).issued [] with tcmpArmed := true }))
      ∧ ((k.cr 0x8).getLsbD 0 = false → (o = 0x8 → sets ((k.cr 0x8) ||| (v &&& 1)))
          ∧ (0x60 ≤ o ∧ o < 0x80 → sets v)))
    ∧ (Ready1 s c w .ien → exec (.ien c w) s
        = .next (s.coreTo c ((k.setCr 0x4 (((k.cr 0x4) &&& 2) ||| (w &&& 1))).issued [])))

/-- Reads of control registers, and the fences of a core with nothing outstanding. -/
def ControlRegisterReadsRule : Prop :=
  ∀ (s : State) (c : Fin 192) (w : BitVec 32), Ready1.Runs s c w →
    let k := s.dev.core c
    let o := 4 * opCR w.toNat
    let d := opD w.toNat
    let reads := fun x : Int => exec (.mfc c w) s = .next (s.scalarTo c 1 d x)
    (Ready1 s c w .mfc →
      (o = 0 → reads (c.val + 256 * (c.val / 8) : Nat))
      ∧ (o = 0x4 → reads (((k.cr 0x4).toNat % 4 + (if k.held.isSome then 4 else 0) : Nat)))
      ∧ (o ∈ [0x8, 0xC, 0x10, 0x14, 0x18, 0x1C, 0x20, 0x24, 0x28, 0x2C, 0x30, 0x38, 0x50, 0x54, 0x80, 0x84, 0x90, 0x94, 0x98]
          → reads (k.cr o).toNat)
      ∧ (0x60 ≤ o → o < 0x80 → reads (k.cr o).toNat)
      ∧ (o = 0x44 → reads k.cycleHi.toNat)
      ∧ (o = 0x4C → reads k.dtimeHi.toNat)
      ∧ (o = 0x40 → exec (.mfc c w) s = .next (s.coreTo c
          { k.issued [(1, k.putS d (k.cycle % 2 ^ 32 : Nat))] with cycleHi := BitVec.ofNat 32 (k.cycle / 2 ^ 32) }))
      ∧ (o = 0x48 → exec (.mfc c w) s = .next (s.coreTo c
          { k.owes [d] [k.putS d (s.dev.now % 2 ^ 32 : Nat)] false with dtimeHi := BitVec.ofNat 32 (s.dev.now / 2 ^ 32) })))
    ∧ (Ready1 s c w .fence → exec (.fence c w) s = .next (s.issues c []))
    ∧ (Ready1 s c w .fenceI → exec (.fenceI c w) s = .next (s.issues c []))

end Sys2Proof.Machine

/-- MTC and MFC write and read the control registers as their table says. -/
def Obligations.ControlRegisters : Prop := ControlRegisterWritesRule ∧ ControlRegisterReadsRule

/-- EMIT and POST. -/
def Obligations.TokensAreBuffered : Prop :=
  ∀ (s : State) (c : Fin 192) (w : BitVec 32), Ready1.Runs s c w →
    let k := s.dev.core c
    let n := w.toNat
    let pair := fun r : Nat => (k.s r).toNat + 2 ^ 32 * (k.s (r + 1)).toNat
    let emit := BufTok.emit (n % 4) (pair (opA n))
    let post := BufTok.post (pair (opA n)) (pair (opB n))
    let holds := fun h : HeldNode => s.coreTo c { k.issued [] with held := some h }
    (∀ h : HeldNode, k.held = some h → h.buf.length < 16 →
      (Ready1 s c w .emit → exec (.emit c w) s = .next (holds { h with buf := h.buf ++ [emit] }))
      ∧ (Ready1 s c w .post → exec (.post c w) s = .next (holds { h with buf := h.buf ++ [post] })))
    ∧ (∀ h : HeldNode, k.held = some h → 16 ≤ h.buf.length →
      (Ready1 s c w .emit → exec (.emit c w) s = .next (holds { h with excess := true }))
      ∧ (Ready1 s c w .post → exec (.post c w) s = .next (holds { h with excess := true })))
    ∧ (k.held = none → Ready1 s c w .emit → exec (.emit c w) s = .next (s.issues c []))
    ∧ (k.held = none → Ready1 s c w .post → exec (.post c w) s
        = .next (s.withDev ((s.dev.setCore c (k.issued [])).sendToken ⟨.core c, pair (opA n), pair (opB n)⟩)))

namespace Sys2Proof.Machine

/-- The rounding of R122: the exact value shifted right by `s`, by the mode CTK_VCTL.RND. -/
def roundTable (rnd : Nat) (x : Int) (s : Nat) : Int :=
  let h : Int := 2 ^ (s - 1)
  if s = 0 then x
  else match rnd with
    | 0 => x / 2 ^ s
    | 1 => (x + h) / 2 ^ s
    | _ => if x % 2 ^ s = h then (x / 2 ^ s + 1) / 2 * 2 else (x + h) / 2 ^ s

/-- How a V0 operation fills its destination: bits of a part, parts of a lane, lanes, and whether it saturates. -/
structure VecShape where
  bits  : Nat
  parts : Nat
  lanes : Nat
  sat   : Bool

/-- The shape of each V0 operation that writes a vector register (R118, R124, R127, R128). -/
def v0Shape (o : CoreOp) (t : Nat) : VecShape :=
  let typed := fun sat : Bool =>
    match t with
    | 0 => VecShape.mk 8 1 64 sat
    | 1 => VecShape.mk 16 1 32 sat
    | 2 => VecShape.mk 32 1 16 sat
    | 3 => VecShape.mk 16 2 16 sat
    | _ => VecShape.mk 32 2 8 sat
  match o with
  | .vadds => typed true
  | .vsubs => typed true
  | .vabs => typed true
  | .vmulq => typed true
  | .vlog => .mk 32 1 16 false
  | .vcmul => .mk 16 2 16 true
  | .vcmag => .mk 32 1 16 true
  | .vmulw => .mk 32 1 16 false
  | .vdot2 => .mk 32 1 16 true
  | .vdot4 => .mk 32 1 16 true
  | .vacrd => if t = 0 then .mk 16 2 16 true else .mk 32 2 8 true
  | _ => typed false

/-- The exact value of part `p` of lane `i`, before it wraps or saturates (R122 to R124, R128). -/
def v0Exact (k : Core) (n : Nat) (o : CoreOp) (i p : Nat) : Int :=
  let t := opSub n
  let va := k.v (opA n)
  let vb := k.v (opB n)
  let vd := k.v (opD n)
  let b := (v0Shape o t).bits
  let j := i * (v0Shape o t).parts + p
  let x := laneS b va j
  let y := laneS b vb j
  let count := opB n
  let part := fun q : Int × Int => if p = 0 then q.1 else q.2
  let ci := fun (v : BitVec 512) (e : Nat) => (laneS 16 v (2 * e), laneS 16 v (2 * e + 1))
  match o with
  | .vadd => x + y
  | .vadds => x + y
  | .vsub => x - y
  | .vsubs => x - y
  | .vlog =>
    let u := laneN 32 va i
    let w := laneN 32 vb i
    (match t with | 0 => u &&& w | 1 => u ||| w | 2 => u ^^^ w | _ => u &&& (2 ^ 32 - 1 - w) : Nat)
  | .vshl => x * 2 ^ count
  | .vshr => (laneN b va j / 2 ^ count : Nat)
  | .vsar => x / 2 ^ count
  | .vsarr => roundTable k.rnd x (min count (b - 1))
  | .vmin => min x y
  | .vmax => max x y
  | .vabs => if x < 0 then -x else x
  | .vcls => (countBelow (b - 1) (fun m => (List.range (m + 1)).all (fun q =>
      (laneN b va j).testBit (b - 2 - q) == (laneN b va j).testBit (b - 1))) : Nat)
  | .vmulq => roundTable k.rnd (x * y) 15
  | .vcmul =>
    let a := ci va i
    let c := ci vb i
    let s : Int := if t = 1 then -1 else 1
    roundTable k.rnd (part (a.1 * c.1 - s * a.2 * c.2, s * a.1 * c.2 + a.2 * c.1)) 15
  | .vcmag => (ci va i).1 * (ci va i).1 + (ci va i).2 * (ci va i).2
  | .vmulw => laneS 16 va (i + 16 * t) * laneS 16 vb (i + 16 * t)
  | .vdot2 =>
    laneS 16 va (2 * i) * laneS 16 vb (2 * i) + laneS 16 va (2 * i + 1) * laneS 16 vb (2 * i + 1)
      + (if t = 1 then laneS 32 vd i else 0)
  | .vdot4 =>
    laneS 8 va (4 * i) * laneS 8 vb (4 * i) + laneS 8 va (4 * i + 1) * laneS 8 vb (4 * i + 1)
      + laneS 8 va (4 * i + 2) * laneS 8 vb (4 * i + 2) + laneS 8 va (4 * i + 3) * laneS 8 vb (4 * i + 3)
      + (if t = 1 then laneS 32 vd i else 0)
  | _ => roundTable k.rnd (laneS 48 (k.a (fld n 13 11)) (2 * (if t = 2 then i + 8 else i) + p)) (fld n 9 5)

/-- Clamping to `b` signed bits. -/
def clamp (b : Nat) (x : Int) : Int := max (-(2 ^ (b - 1))) (min x (2 ^ (b - 1) - 1))

/-- The writes of a vector result: the enabled lanes of register `d` take the exact values, wrapped or saturated; SAT is set
when an enabled lane was clamped; disabled lanes are not written (R121, R122, R127). -/
def VecResult (k : Core) (n : Nat) (sh : VecShape) (exact : Nat → Nat → Int) (d : Nat) (wrs : List (Nat × RegWr)) : Prop :=
  ∃ (mask val : BitVec 512) (flag : Bool),
    wrs = [(4, .v d mask val)] ++ (if flag then [(4, .vsat 1)] else [])
    ∧ (∀ i p : Nat, i < sh.lanes → p < sh.parts →
        laneN sh.bits mask (i * sh.parts + p) = (if k.lane n i then 2 ^ sh.bits - 1 else 0)
        ∧ (k.lane n i = true → laneN sh.bits val (i * sh.parts + p)
            = (((if sh.sat then clamp sh.bits (exact i p) else exact i p) % (2 ^ sh.bits : Nat))).toNat))
    ∧ (flag = true ↔ sh.sat = true ∧ ∃ i p : Nat, i < sh.lanes ∧ p < sh.parts ∧ k.lane n i = true
        ∧ clamp sh.bits (exact i p) ≠ exact i p)

end Sys2Proof.Machine

/-- V0 operations with a vector destination. -/
def Obligations.VectorArithmetic : Prop :=
  ∀ (s : State) (i : Instr) (o : CoreOp) (c : Fin 192) (w : BitVec 32), i.coreOp = some (o, c, w) → Ready1 s c w o →
    o ∈ [CoreOp.vadd, .vadds, .vsub, .vsubs, .vlog, .vshl, .vshr, .vsar, .vsarr, .vmin, .vmax, .vabs, .vcls, .vmulq, .vcmul,
      .vcmag, .vmulw, .vdot2, .vdot4, .vacrd] →
    let k := s.dev.core c
    ∃ wrs : List (Nat × RegWr), exec i s = .next (s.issues c wrs)
      ∧ VecResult k w.toNat (v0Shape o (opSub w.toNat)) (v0Exact k w.toNat o) (opD w.toNat) wrs

/-- VCMP and VSEL. -/
def Obligations.VectorCompareAndSelect : Prop :=
  ∀ (s : State) (c : Fin 192) (w : BitVec 32),
    let k := s.dev.core c
    let n := w.toNat
    let b := [8, 16, 32].getD (opSub n) 0
    let lanes := 512 / b
    (Ready1 s c w .vcmp → ∃ mask val : BitVec 64,
      exec (.vcmp c w) s = .next (s.issues c [(4, .p (k.bank && decide (opPD n < 4)) (opPD n) mask val)])
      ∧ ∀ i : Nat, i < 64 → mask.getLsbD i = (decide (lanes ≤ i) || k.lane n i)
        ∧ val.getLsbD i = (decide (i < lanes) &&
            let x := laneS b (k.v (opA n)) i
            let y := laneS b (k.v (opB n)) i
            match fld n 15 14 with
            | 0 => decide (x = y)
            | 1 => decide (x ≠ y)
            | 2 => decide (x < y)
            | _ => decide (x ≥ y)))
    ∧ (Ready1 s c w .vsel → ∃ val : BitVec 512,
      exec (.vsel c w) s = .next (s.issues c [(4, .v (opD n) (BitVec.allOnes 512) val)])
      ∧ ∀ i : Nat, i < lanes → laneN b val i = if k.lane n i then laneN b (k.v (opA n)) i else laneN b (k.v (opB n)) i)

/-- The accumulating operations of V0. -/
def Obligations.AccumulatorsAdd : Prop :=
  ∀ (s : State) (i : Instr) (o : CoreOp) (c : Fin 192) (w : BitVec 32), i.coreOp = some (o, c, w) → Ready1 s c w o →
    o ∈ [CoreOp.vcmac, .vcmacb, .vcmacbj] →
    let k := s.dev.core c
    let n := w.toNat
    let v := opSub n
    let old := fun e p : Nat => laneS 48 (k.a (opPD n)) (2 * e + p)
    let prod := fun (e p : Nat) =>
      let f := if o = .vcmac then e else v
      let sg : Int := if (if o = .vcmac then decide (v % 2 = 1) else decide (o = .vcmacbj)) then -1 else 1
      let ar := laneS 16 (k.v (opA n)) (2 * e)
      let ai := laneS 16 (k.v (opA n)) (2 * e + 1)
      let br := laneS 16 (k.v (opB n)) (2 * f)
      let bi := laneS 16 (k.v (opB n)) (2 * f + 1)
      if p = 0 then ar * br - sg * (ai * bi) else sg * (ar * bi) + ai * br
    let exact := fun (e p : Nat) =>
      if o ≠ .vcmac ∨ v < 2 then old e p + prod e p
      else if v < 4 then old e p - prod e p
      else if v < 6 then prod e p
      else 0
    ∃ (mask val : BitVec 1536) (flag : Bool),
      exec i s = .next (s.coreTo c { k.issued [] with inflight :=
        [{ due := 3, wr := .a (opPD n) mask val, acc := true, fg := !k.bank }]
          ++ (if flag then [{ due := 3, wr := .vsat 2, acc := true, fg := !k.bank }] else []) })
      ∧ (∀ e p : Nat, e < 16 → p < 2 →
          laneN 48 mask (2 * e + p) = (if k.lane n e then 2 ^ 48 - 1 else 0)
          ∧ (k.lane n e = true → laneN 48 val (2 * e + p) = (exact e p % (2 ^ 48 : Nat)).toNat))
      ∧ (flag = true ↔ ∃ e p : Nat, e < 16 ∧ p < 2 ∧ k.lane n e = true ∧ (exact e p < -(2 ^ 47) ∨ 2 ^ 47 ≤ exact e p))

/-- VBCAST, VEXT, VINS, VPERM, VSPLIT and VSLIDE. -/
def Obligations.VectorPermutes : Prop :=
  ∀ (s : State) (i : Instr) (o : CoreOp) (c : Fin 192) (w : BitVec 32), i.coreOp = some (o, c, w) → Ready1 s c w o →
    let k := s.dev.core c
    let n := w.toNat
    let t := opSub n
    let va := k.v (opA n)
    let vb := k.v (opB n)
    let a := fun r : Nat => (k.s r).toNat
    let lane := fun j : Nat =>
      match o with
      | .vbcast =>
        match t with
        | 0 => a (opA n)
        | 1 => a (opA n) % 2 ^ 16 + 2 ^ 16 * (a (opA n) % 2 ^ 16)
        | 2 => a (opA n) % 2 ^ 8 * (1 + 2 ^ 8 + 2 ^ 16 + 2 ^ 24)
        | _ => a (opA n + j % 2)
      | .vins => if j = t then a (opA n) else laneN 32 (k.v (opD n)) j
      | .vperm => laneN 32 va (laneN 32 vb j % 16)
      | .vsplit =>
        if t = 2 then laneN 16 va j + 2 ^ 16 * laneN 16 vb j
        else
          let src := fun h : Nat => if h < 16 then laneN 16 va (2 * h + t) else laneN 16 vb (2 * (h - 16) + t)
          src (2 * j) + 2 ^ 16 * src (2 * j + 1)
      | _ => if j + t < 16 then laneN 32 va (j + t) else laneN 32 vb (j + t - 16)
    (o ∈ [CoreOp.vbcast, .vins, .vperm, .vsplit, .vslide] → ∃ mask val : BitVec 512,
      exec i s = .next (s.issues c [(4, .v (opD n) mask val)])
      ∧ ∀ j : Nat, j < 16 → laneN 32 mask j = (if k.lane n j then 2 ^ 32 - 1 else 0)
        ∧ (k.lane n j = true → laneN 32 val j = lane j))
    ∧ (o = .vext → Ready1.Runs s c w → exec i s = .next (s.scalarTo c 4 (opD n) (laneN 32 va t : Nat)))

namespace Sys2Proof.Machine

/-- The local address of a vector access: SA plus 64 times IMM9, or SA alone. -/
def Core.vecLocal (k : Core) (n : Nat) (pi : Bool) : Nat := k.localAt n 64 pi

end Sys2Proof.Machine

/-- Contiguous local vector accesses. -/
def Obligations.VectorLoadsAndStores : Prop :=
  ∀ (s : State) (c : Fin 192) (w : BitVec 32),
    let k := s.dev.core c
    let n := w.toNat
    let base := fun pi : Bool =>
      if pi then [((1 : Nat), k.putS (opA n) ((k.s (opA n)).toNat + opImm9 n * 64))] else []
    let fine := fun (pi : Bool) (size : Nat) =>
      k.vecLocal n pi % 64 = 0 ∧ k.vecLocal n pi + size ≤ 0x40000 ∧ s.dev.mem.quietAt (lmBase c + k.vecLocal n pi) size
    let byte := fun (pi : Bool) (x : Nat) => s.dev.mem.byte (lmBase c + k.vecLocal n pi + x)
    let loads := fun (pi : Bool) => ∃ mask val : BitVec 512,
      exec (if pi then .vldPi c w else .vld c w) s = .next (s.issues c ([(6, .v (opD n) mask val)] ++ base pi))
      ∧ ∀ x : Nat, x < 64 → laneN 8 mask x = (if k.lane n (x / 4) then 255 else 0)
        ∧ (k.lane n (x / 4) = true → laneN 8 val x = (byte pi x).toNat)
    let stores := fun (pi : Bool) => ∃ d' : Dev,
      exec (if pi then .vstPi c w else .vst c w) s = .next (s.withDev d')
      ∧ (∀ x : Nat, d'.mem.byte x =
          let p := lmBase c + k.vecLocal n pi
          if p ≤ x ∧ x < p + 64 ∧ k.lane n ((x - p) / 4) = true then BitVec.ofNat 8 (laneN 8 (k.v (opD n)) (x - p))
          else s.dev.mem.byte x)
      ∧ s.dev.OnlyStore d' c ∧ d'.core c = k.issued (base pi)
    (Ready1 s c w .vld → fine false 64 → loads false) ∧ (Ready1 s c w .vldPi → fine true 64 → loads true)
    ∧ (Ready1 s c w .vst → fine false 64 → stores false) ∧ (Ready1 s c w .vstPi → fine true 64 → stores true)
    ∧ (Ready1 s c w .vacld → fine false 192 → ∃ val : BitVec 1536,
        exec (.vacld c w) s = .next (s.issues c [(6, .a (opPD n) (BitVec.allOnes 1536) val)])
        ∧ ∀ x : Nat, x < 192 → laneN 8 val x = (byte false x).toNat)
    ∧ (Ready1 s c w .vacsv → fine false 192 → ∃ d' : Dev, exec (.vacsv c w) s = .next (s.withDev d')
        ∧ s.dev.mem.StoredAt d'.mem (lmBase c + k.vecLocal n false)
            ((List.range 192).map (fun x => BitVec.ofNat 8 (laneN 8 (k.a (opPD n)) x)))
        ∧ s.dev.OnlyStore d' c ∧ d'.core c = k.issued [])

namespace Sys2Proof.Machine

/-- Global vector accesses that are answered without error; VSTG with all lanes enabled. -/
def VectorGlobalAccessesRule : Prop :=
  ∀ (s : State) (c : Fin 192) (w : BitVec 32),
    let k := s.dev.core c
    let n := w.toNat
    let a := k.globalAt n 64
    let d0 := s.dev.issuing c w false
    let d1 := s.dev.issuing c w true
    (∀ (d2 : Dev) (bs : List (BitVec 8)), Ready1 s c w .vldg → a % 64 = 0 → a < 2 ^ 40 → k.permits a true false = true →
        d0.busRead (.core c) a 64 = (d2, .ok bs) → d2.core c = d0.core c →
        ∃ mask val : BitVec 512,
          exec (.vldg c w) s = .next (s.withDev (d2.setCore c { k.issued [] with outst :=
            [{ regs := [.v (opD n)], wrs := [.v (opD n) mask val], bank := k.bank, eopc := k.pc.toNat }] }))
          ∧ ∀ j : Nat, j < 16 → laneN 32 mask j = (if k.lane n j then 2 ^ 32 - 1 else 0)
            ∧ (k.lane n j = true → laneN 32 val j = (leNat bs / 2 ^ (32 * j)) % 2 ^ 32))
    ∧ (∀ d2 : Dev, Ready1 s c w .vstg → a % 64 = 0 → a < 2 ^ 40 → k.permits a false true = true →
        (∀ j : Nat, j < 16 → k.lane n j = true) →
        d1.busWrite (.core c) a (leBytes 64 (k.v (opD n)).toNat) = (d2, .ok) → d2.core c = d1.core c →
        exec (.vstg c w) s = .next (s.withDev (d2.setCore c (k.issued []))))

end Sys2Proof.Machine

/-- Global accesses of scalars and vectors go over the bus and owe their results. -/
def Obligations.GlobalMemoryOperations : Prop := GlobalAccessesRule ∧ VectorGlobalAccessesRule

namespace Sys2Proof.Machine

/-- The address of element `e` of a gather or scatter of `size`-byte elements (R131). -/
def Core.elemAt (k : Core) (n size e : Nat) : Int := ((k.s (opA n)).toNat : Int) + size * laneS 32 (k.v (opB n)) e

/-- Element `e` takes part: at or above VRI and enabled (R132). -/
def Core.takesPart (k : Core) (n e : Nat) : Bool := decide (k.vri.toNat ≤ e) && k.lane n e

end Sys2Proof.Machine

/-- Gathers and scatters without a fault. -/
def Obligations.GathersAndScatters : Prop :=
  ∀ (s : State) (c : Fin 192) (w : BitVec 32),
    let k := s.dev.core c
    let n := w.toNat
    let size := if opSub n = 0 then 4 else 8
    let count := 64 / size
    let part := fun e : Nat => decide (e < count) && k.takesPart n e
    let place := fun e : Nat => lmBase c + (k.elemAt n size e).toNat
    (∀ e : Nat, part e = true → k.elemAt n size e % size = 0 ∧ 0 ≤ k.elemAt n size e ∧ k.elemAt n size e + size ≤ 0x40000
      ∧ s.dev.mem.quietAt (place e) size) →
    (Ready1 s c w .vgath → ∃ (cost : Nat) (mask val : BitVec 512),
      exec (.vgath c w) s = .next (s.coreTo c
        { k.issued [(6, .v (opD n) mask val)] with vri := 0, cycle := (k.cycle + 1 + cost) % 2 ^ 64 })
      ∧ cost < 16 ∧ ∀ e : Nat, e < count →
        laneN (8 * size) mask e = (if part e then 2 ^ (8 * size) - 1 else 0)
        ∧ (part e = true → laneN (8 * size) val e = leNat (s.dev.mem.bytes (place e) size)))
    ∧ (Ready1 s c w .vscat → ∃ (cost : Nat) (d' : Dev), exec (.vscat c w) s = .next (s.withDev d')
      ∧ cost < 16 ∧ s.dev.OnlyStore d' c
      ∧ d'.core c = { k.issued [] with vri := 0, cycle := (k.cycle + 1 + cost) % 2 ^ 64 }
      ∧ (∀ x : Nat, (∀ e : Nat, part e = true → x < place e ∨ place e + size ≤ x) → d'.mem.byte x = s.dev.mem.byte x)
      ∧ (∀ e x : Nat, part e = true → x < size →
          (∀ f : Nat, e < f → part f = true → place e + x < place f ∨ place f + size ≤ place e + x) →
          d'.mem.byte (place e + x) = BitVec.ofNat 8 (laneN 8 (k.v (opD n)) (e * size + x))))

namespace Sys2Proof.Machine

/-- Parts of the ci16 element at an address. -/
def MemState.ci16 (m : MemState) (a p : Nat) : Int := toSigned 16 (leNat (m.bytes (a + 2 * p) 2))

/-- The exact value of part `p` of an LV result, before saturation (R134); `b` is element e of B, or the constant. -/
def lvTable (rnd sub : Nat) (a b : Nat → Int) (p : Nat) : Int :=
  let s : Int := if sub = 4 then -1 else 1
  match sub with
  | 0 => a p
  | 1 => a p + b p
  | 2 => a p - b p
  | _ => roundTable rnd (if p = 0 then a 0 * b 0 - s * (a 1 * b 1) else s * (a 0 * b 1) + a 1 * b 0) 15

/-- One issue of LV (memory results; the accumulating form has its own statement). -/
def LongVectorGroupRule : Prop :=
  ∀ (s : State) (c : Fin 192) (w : BitVec 32), Ready1 s c w .lv →
    let k := s.dev.core c
    let n := w.toNat
    let sub := opSub n
    let v := k.vri.toNat
    let len := (k.cr 0x98).toNat
    let m := s.dev.mem
    let at' := fun (r e : Nat) => (k.s r).toNat + 4 * e
    let two := decide (sub ≠ 0 ∧ sub ≠ 5)
    let arrays := [opA n, opD n] ++ (if two then [opB n] else [])
    let a := fun e p : Nat => m.ci16 (lmBase c + at' (opA n) e) p
    let b := fun e p : Nat => if two then m.ci16 (lmBase c + at' (opB n) e) p else toSigned 16 ((k.s (opB n)).toNat / 2 ^ (16 * p))
    let exact := fun e p : Nat => lvTable k.rnd sub (a e) (b e) p
    let out := fun e p : Nat => ((if sub = 0 then exact e p else clamp 16 (exact e p)) % (2 ^ 16 : Nat)).toNat
    sub < 6 → len ≤ 4096 → lvOverlap k n = false →
    (∀ r : Nat, r ∈ arrays → (k.s r).toNat % 4 = 0 ∧ (len ≤ v ∨ at' r len ≤ 0x40000) ∧ m.quietAt (lmBase c + (k.s r).toNat) (4 * len)) →
    (len ≤ v → exec (.lv c w) s = .next (s.coreTo c { k.issued [] with vri := 0 }))
    ∧ (v < len → len ≤ v + 16 → ∃ d' : Dev, exec (.lv c w) s = .next (s.withDev d') ∧ s.dev.OnlyStore d' c
        ∧ (∀ e p q : Nat, v ≤ e → e < len → p < 2 → q < 2 →
            d'.mem.byte (lmBase c + at' (opD n) e + 2 * p + q) = BitVec.ofNat 8 (out e p / 256 ^ q))
        ∧ (∀ x : Nat, x < lmBase c + at' (opD n) v ∨ lmBase c + at' (opD n) len ≤ x → d'.mem.byte x = m.byte x)
        ∧ ∃ flag : Bool, (flag = true ↔ sub ≠ 0 ∧ ∃ e p : Nat, v ≤ e ∧ e < len ∧ p < 2 ∧ clamp 16 (exact e p) ≠ exact e p)
          ∧ d'.core c = { (if flag then k.setCr 0x94 (k.cr 0x94 ||| 1) else k).issued [] with
              vri := 0, cycle := (k.cycle + 6) % 2 ^ 64 })
    ∧ (v + 16 < len → ∃ d' : Dev, exec (.lv c w) s = .next (s.withDev d') ∧ s.dev.OnlyStore d' c ∧ d'.mem = m
        ∧ (d'.core c).vri.toNat = v + 16 ∧ (d'.core c).pc = k.pc ∧ (d'.core c).lv = true ∧ (d'.core c).bundle = [w]
        ∧ (d'.core c).cycle = (k.cycle + 1) % 2 ^ 64)

/-- The last issue of LVDOTJ. -/
def LongVectorAccumulatesRule : Prop :=
  ∀ (s : State) (c : Fin 192) (w : BitVec 32), Ready1 s c w .lv →
    let k := s.dev.core c
    let n := w.toNat
    let v := k.vri.toNat
    let len := (k.cr 0x98).toNat
    let m := s.dev.mem
    let x := fun (r e p : Nat) => m.ci16 (lmBase c + (k.s r).toNat + 4 * e) p
    let exact := fun e p : Nat =>
      let a := x (opA n) e
      let b := x (opB n) e
      laneS 48 (k.a (fld n 16 14)) (2 * (e % 16) + p) + (if p = 0 then a 0 * b 0 + a 1 * b 1 else a 1 * b 0 - a 0 * b 1)
    opSub n = 6 → len ≤ 4096 → v < len → len ≤ v + 16 →
    (∀ r : Nat, r ∈ [opA n, opB n] → (k.s r).toNat % 4 = 0 ∧ (k.s r).toNat + 4 * len ≤ 0x40000 ∧ m.quietAt (lmBase c + (k.s r).toNat) (4 * len)) →
    ∃ (acc : BitVec 1536) (flag : Bool),
      exec (.lv c w) s = .next (s.coreTo c { (if flag then k.setCr 0x94 (k.cr 0x94 ||| 2) else k).issued [] with
        vri := 0, cycle := (k.cycle + 6) % 2 ^ 64, aregs := Tab.put (fun _ => 0) k.aregs (fld n 16 14) acc })
      ∧ (∀ e p : Nat, v ≤ e → e < len → p < 2 → laneN 48 acc (2 * (e % 16) + p) = (exact e p % (2 ^ 48 : Nat)).toNat)
      ∧ (∀ l p : Nat, l < 16 → p < 2 → (∀ e : Nat, v ≤ e → e < len → e % 16 ≠ l) →
          laneN 48 acc (2 * l + p) = laneN 48 (k.a (fld n 16 14)) (2 * l + p))
      ∧ (flag = true ↔ ∃ e p : Nat, v ≤ e ∧ e < len ∧ p < 2 ∧ (exact e p < -(2 ^ 47) ∨ 2 ^ 47 ≤ exact e p))

end Sys2Proof.Machine

/-- LV works on its group of elements, in memory or in its accumulator, and ends after the last. -/
def Obligations.LongVectors : Prop := LongVectorGroupRule ∧ LongVectorAccumulatesRule

namespace Sys2Proof.Machine

/-- The status register of a Level-0 unit, and the counts of accepted, refused and squashed operations (R162). -/
def Core.accepts (k : Core) (status : Nat) : Core := (k.setCr status 0).setCr 0x110 (k.cr 0x110 + 1)

/-- A whole predicate written with latency 1. -/
def Core.putP (k : Core) (n : Nat) (b : Bool) : Nat × RegWr :=
  (1, .p (k.bank && decide (n < 4)) n (BitVec.allOnes 64) (if b then BitVec.allOnes 64 else 0))

end Sys2Proof.Machine

/-- Starts and TEST of the Level-0 units. -/
def Obligations.LevelZeroStarts : Prop :=
  ∀ (s : State) (i : Instr) (o : CoreOp) (c : Fin 192) (w : BitVec 32), i.coreOp = some (o, c, w) → Ready1 s c w o →
    Ready1.Runs s c w →
    let k := s.dev.core c
    let n := w.toNat
    let g := s.dev.attached (c / 8)
    let a := (k.s (opA n)).toNat
    let b := (k.s (opB n)).toNat
    let dst := (k.s (opB n + 1)).toNat
    let crcJob : CrcJob := {
      core := c
      poly := opSub n % 8
      ones := decide (o = .crcOnes)
      src := a
      nbits := b
      dst := dst
      bank := k.bank
      eopc := k.pc.toNat }
    let sortJob := fun count kk : Nat => ({
      core := c
      largest := decide (o = .topkLargest)
      src := a
      count := count
      k := kk
      dst := dst
      bank := k.bank
      eopc := k.pc.toNat } : SortJob)
    let busy := s.withDev ((s.dev.coreCount c 2 1).setCore c
      (((s.dev.coreCount c 2 1).core c).issued [k.putP (cxPD n) true]))
    let takes := fun (x : Attached) (status : Nat) =>
      s.withDev ((s.dev.setAttached (c / 8) x).setCore c ((k.accepts status).issued [k.putP (cxPD n) false]))
    (o = .crcZero ∨ o = .crcOnes → 1 ≤ b → b ≤ 65536 → a + (b + 7) / 8 ≤ 0x40000 → dst + 4 ≤ 0x40000 → dst % 4 = 0 →
      (g.crc.isSome = true → exec i s = .next busy)
      ∧ (g.crc = none → exec i s = .next (takes { g with crc := some crcJob } 0x100)))
    ∧ (o = .topkLargest ∨ o = .topkSmallest →
      let count := b % 8192
      let kk := b / 65536 % 128
      b = count + 65536 * kk → 1 ≤ count → count ≤ 4096 → 1 ≤ kk → kk ≤ 64 → a % 8 = 0 → dst % 8 = 0 →
      a + 8 * count ≤ 0x40000 → dst + 8 * kk ≤ 0x40000 → (a + 8 * count ≤ dst ∨ dst + 8 * kk ≤ a) →
      (g.sort.isSome = true → exec i s = .next busy)
      ∧ (g.sort = none → exec i s = .next (takes { g with sort := some (sortJob count kk) } 0x104)))
    ∧ (o = .test → exec i s = .next (s.issues c [k.putP (cxPD n)
        (if opCode n = 0x30 then decide (g.crc.map (fun j => j.core) = some c.val)
         else decide (g.sort.map (fun j => j.core) = some c.val))]))

/-- KILL. -/
def Obligations.KillSquashesOwnWork : Prop :=
  ∀ (s : State) (c : Fin 192) (w : BitVec 32), Ready1 s c w .kill → Ready1.Runs s c w →
    let code := opCode w.toNat
    let g := s.dev.attached (c / 8)
    let after := fun (d : Dev) => exec (.kill c w) s = .next (s.withDev (d.setCore c ((d.core c).issued [])))
    let ends := fun (x y : Attached) (status : Nat) =>
      let d := s.dev.used
      let e := (d.setAttached (c / 8) x).setCore c ((d.core c).setCr status 5)
      after (e.coreCount c 3 1) ∨ after (d.setAttached (c / 8) y)
    (code = 0x31 ∨ code = 0x32 → exec (.kill c w) s = .next (s.issues c []))
    ∧ (code = 0x30 → (∀ j : CrcJob, g.crc = some j → j.core ≠ c.val) → exec (.kill c w) s = .next (s.issues c []))
    ∧ (code = 0x33 → (∀ j : SortJob, g.sort = some j → j.core ≠ c.val) → exec (.kill c w) s = .next (s.issues c []))
    ∧ (∀ j : CrcJob, code = 0x30 → g.crc = some j → j.core = c.val →
        ends { g with crc := none } { g with crc := some { j with late := true } } 0x100)
    ∧ (∀ j : SortJob, code = 0x33 → g.sort = some j → j.core = c.val →
        ends { g with sort := none } { g with sort := some { j with late := true } } 0x104)

namespace Sys2Proof.Machine

/-- The 4 × 4 matrix of ci16 Q15 values that INV reads, and the Hermitian one of INVH: lanes 4r + c with c ≤ r, real
diagonal (R156). -/
def invMatrix (hermitian : Bool) (v : BitVec 512) (r c : Nat) : Rat × Rat :=
  let q := fun e p : Nat => (laneS 16 v (2 * e + p) : Rat) / 32768
  if !hermitian then (q (4 * r + c) 0, q (4 * r + c) 1)
  else if c < r then (q (4 * r + c) 0, q (4 * r + c) 1)
  else if c = r then (q (4 * r + c) 0, 0)
  else (q (4 * c + r) 0, -q (4 * c + r) 1)

/-- A Level-1 operation of `unit` is issued and owes these registers and writes; its wait for a slot is free. -/
def LevelOneIssued (s : State) (c : Nat) (unit : Nat) (regs : List PhysReg) (wrs : List RegWr) (d' : Dev) : Prop :=
  let k := s.dev.core c
  d' = { s.dev with cores := d'.cores, fresh := d'.fresh } ∧ (∀ j : Nat, j ≠ c → d'.core j = s.dev.core j)
    ∧ ∃ cycle : Nat, d'.core c = { (k.setCr 0x110 (k.cr 0x110 + 1)).issued [] with
        cycle := cycle
        outst := [{ regs := regs, wrs := wrs, cx := true, unit := unit, bank := k.bank, eopc := k.pc.toNat }] }

end Sys2Proof.Machine

/-- The Level-1 operations. -/
def Obligations.LevelOneOperations : Prop :=
  ∀ (s : State) (i : Instr) (o : CoreOp) (c : Fin 192) (w : BitVec 32), i.coreOp = some (o, c, w) → Ready1 s c w o →
    Ready1.Runs s c w →
    let k := s.dev.core c
    let n := w.toNat
    let m := demapBits (opSub n)
    (o = .inv ∨ o = .invh → ∃ (d' : Dev) (v : BitVec 512) (e : BitVec 32), exec i s = .next (s.withDev d')
      ∧ LevelOneIssued s c 1 [.v (opD n), .s (k.bank && decide (8 ≤ opB n)) (opB n)]
          [.v (opD n) (BitVec.allOnes 512) v, .s (k.bank && decide (8 ≤ opB n)) (opB n) e] d'
      ∧ ((∀ r q : Nat, r < 4 → q < 4 → invMatrix (decide (o = .invh)) (k.v (opA n)) r q = (0, 0)) → v = 0 ∧ e = 256))
    ∧ (o = .demap → ∃ (d' : Dev) (lo hi : BitVec 512), exec i s = .next (s.withDev d')
      ∧ LevelOneIssued s c 2 (.v (opD n) :: if 6 ≤ m then [.v (opD n + 1)] else [])
          (.v (opD n) (BitVec.allOnes 512) lo :: if 6 ≤ m then [.v (opD n + 1) (BitVec.allOnes 512) hi] else []) d'
      ∧ ∀ x : Nat, x < 128 → (x < 64 ∨ 6 ≤ m) → laneN 8 (if x < 64 then lo else hi) (x % 64) =
          if x < 16 * m then
            let y := (laneS 16 (k.v (opA n)) (2 * (x / m)), laneS 16 (k.v (opA n)) (2 * (x / m) + 1))
            let pts := cxPoints (opSub n) (x / m)
            ((clamp 8 (roundTable 1 ((minDist pts y (x % m) true - minDist pts y (x % m) false)
              * (laneN 16 (k.v (opB n)) (2 * (x / m)) : Nat)) 24)) % (2 ^ 8 : Nat)).toNat
          else 0)

/-- Results of the attached units. -/
def Obligations.AttachedResultsArrive : Prop :=
  (∀ (s : State) (c : Fin 192) (demapper : Bool) (o : Outst) (rest : List Outst),
    let k := s.dev.core c
    s.dev.clocked = true → k.bundle = [] → k.inflight = [] → k.outst = o :: rest → o.cx = true →
    o.unit = (if demapper then 2 else 1) →
    exec (.level1Result c demapper false) s = .next (s.coreTo c (o.wrs.foldl Core.writeReg { k with outst := rest })))
  ∧ (∀ (s : State) (g : Fin 24) (j : CrcJob),
    let k := s.dev.core j.core
    let n := (j.nbits + 7) / 8
    s.dev.clocked = true → (s.dev.attached g).crc = some j → j.gone = false → j.core < 192 → j.core / 8 = g.val →
    bit (s.dev.regN (memBase + 0x54)) (j.core / 8) = false → k.bundle = [] →
    1 ≤ j.nbits → j.src + n ≤ 0x40000 → j.dst + 4 ≤ 0x40000 → j.dst % 4 = 0 →
    s.dev.mem.quietAt (lmBase j.core + j.src) n → s.dev.mem.quietAt (lmBase j.core + j.dst) 4 →
    ∃ d' : Dev, exec (.level0JobEnd g false false) s = .next (s.withDev d')
      ∧ s.dev.mem.StoredAt d'.mem (lmBase j.core + j.dst)
          (leBytes 4 (crcOf (cxCrc j.poly).1 (cxCrc j.poly).2 j.ones (s.dev.mem.bytes (lmBase j.core + j.src) n) j.nbits))
      ∧ (d'.attached g).crc = none ∧ (d'.attached g).sort = (s.dev.attached g).sort
      ∧ d'.core j.core = k.setCr 0x100 (if j.late then 9 else 1)
      ∧ d' = { s.dev with cores := d'.cores, cx := d'.cx, mem := d'.mem, regs := d'.regs })
  ∧ (∀ (s : State) (g : Fin 24) (j : SortJob),
    let k := s.dev.core j.core
    s.dev.clocked = true → (s.dev.attached g).sort = some j → j.gone = false → j.core < 192 → j.core / 8 = g.val →
    bit (s.dev.regN (memBase + 0x54)) (j.core / 8) = false → k.bundle = [] →
    1 ≤ j.count → 1 ≤ j.k → j.src % 8 = 0 → j.dst % 8 = 0 → j.src + 8 * j.count ≤ 0x40000 → j.dst + 8 * j.k ≤ 0x40000 →
    s.dev.mem.quietAt (lmBase j.core + j.src) (8 * j.count) → s.dev.mem.quietAt (lmBase j.core + j.dst) (8 * j.k) →
    ∃ d' : Dev, exec (.level0JobEnd g true false) s = .next (s.withDev d')
      ∧ s.dev.mem.StoredAt d'.mem (lmBase j.core + j.dst) (sortResult j (s.dev.mem.bytes (lmBase j.core + j.src) (8 * j.count)))
      ∧ (d'.attached g).sort = none ∧ (d'.attached g).crc = (s.dev.attached g).crc
      ∧ d'.core j.core = k.setCr 0x104 (if j.late then 9 else 1)
      ∧ d' = { s.dev with cores := d'.cores, cx := d'.cx, mem := d'.mem, regs := d'.regs })

namespace Sys2Proof.Machine

/-- The shadow switch of R103: what is saved, where the core goes, and what it keeps. -/
def Core.Switched (k k' : Core) (ret left vec : Nat) : Prop :=
  k'.pc = (k.cr vec).setWidth 16 ∧ (k'.cr 0x14).toNat = ret ∧ (k'.cr 0x18).toNat = k.status
    ∧ (k'.cr 0x2C).toNat = k.vri.toNat ∧ k'.vri = 0 ∧ (k'.cr 0x30).toNat = left ∧ k'.cr 0x4 = 2
    ∧ k'.sregs = k.sregs ∧ k'.pregs = k.pregs ∧ k'.vregs = k.vregs ∧ k'.aregs = k.aregs ∧ k'.held = k.held
    ∧ k'.bundle = [] ∧ k'.rptNext = none ∧ k'.take = none ∧ k'.cycle = (k.cycle + 1) % 2 ^ 64

/-- The exception record of R112 and R116, and the count of exceptions. -/
def Core.Recorded (k k' : Core) (cause flags info addr eopc : Nat) : Prop :=
  (k'.cr 0x1C).toNat = cause + 256 * flags + 65536 * info ∧ (k'.cr 0x20).toNat = addr % 2 ^ 32
    ∧ (k'.cr 0x24).toNat = addr / 2 ^ 32 % 256 ∧ (k'.cr 0x28).toNat = eopc ∧ k'.cr 0x80 = k.cr 0x80 + 1

/-- Only core `c`, the trace and the observation counts differ. -/
def Dev.OnlyCoreObs (d d' : Dev) (c : Nat) : Prop :=
  d' = { d with cores := d'.cores, obs := d'.obs, regs := d'.regs } ∧ (∀ j : Nat, j ≠ c → d'.core j = d.core j)
    ∧ (d.tracing = false → d'.regs = d.regs)

end Sys2Proof.Machine

/-- TRAP and RETI. -/
def Obligations.TrapSwitchesBanks : Prop :=
  ∀ (s : State) (c : Fin 192) (w : BitVec 32), Ready1.Runs s c w →
    let k := s.dev.core c
    (Ready1 s c w .trap → k.bank = false → ∃ d' : Dev, exec (.trap c w) s = .next (s.withDev d') ∧ s.dev.OnlyCoreObs d' c
      ∧ k.Switched (d'.core c) ((k.pc.toNat + 4) % 2 ^ 32) 0 0x10 ∧ k.Recorded (d'.core c) 4 0 (w.toNat % 256) 0 k.pc.toNat)
    ∧ (Ready1 s c w .reti → k.bank = true →
      let left := (k.cr 0x30).toNat
      exec (.reti c w) s = .next (s.coreTo c { (k.setCr 0x4 ((k.cr 0x18) &&& 1)).setCr 0x30 0 with
        pc := (k.cr 0x14).setWidth 16, vri := (k.cr 0x2C).setWidth 12, cycle := (k.cycle + 2) % 2 ^ 64,
        rptNext := if left = 0 then none else some (left, none) }))

/-- Interrupt lines and their acceptance; a core whose power state is Active, in a cluster that is. -/
def Obligations.InterruptsAreAccepted : Prop :=
  ∀ (s : State) (c : Fin 192), s.dev.clocked = true →
    let k := s.dev.core c
    (k.released = true → k.mayAccept = true → k.bundle = [] → k.inflight = [] → k.rptNext = none → k.lv = false →
      s.dev.power (pwrCluster (c / 8)) = .active → s.dev.power (pwrCore c) = .active →
      s.dev.ipend c &&& (k.cr 0x38).toNat ≠ 0 → k.pc.toNat % 4 = 0 →
      ∃ d' : Dev, exec (.interruptAccept c) s = .next (s.withDev d') ∧ s.dev.OnlyCoreObs d' c
        ∧ k.Switched (d'.core c) (if k.take.isSome then (k.pc - 4).toNat else k.pc.toNat) 0 0xC
        ∧ (d'.core c).cr 0x84 = k.cr 0x84 + 1
        ∧ ∀ o : Nat, o ∈ [0x1C, 0x20, 0x24, 0x28, 0x80] → (d'.core c).cr o = k.cr o)
    ∧ (k.tcmpArmed = true → (k.cr 0x50).toNat + 2 ^ 32 * (k.cr 0x54).toNat ≤ s.dev.now →
      exec (.timer c) s = .next (s.coreTo c { k.setCr 0x34 (k.cr 0x34 ||| 1) with tcmpArmed := false }))
    ∧ (k.tcmpArmed = false ∨ s.dev.now < (k.cr 0x50).toNat + 2 ^ 32 * (k.cr 0x54).toNat →
      exec (.timer c) s = .next s)
    ∧ exec (.supervisorInterrupt c) s = .next (s.coreTo c (k.setCr 0x34 (k.cr 0x34 ||| 8)))

/-- Results and error responses that reach a core. -/
def Obligations.ResultsLand : Prop :=
  ∀ (s : State) (c : Fin 192), s.dev.clocked = true →
    let k := s.dev.core c
    ((∀ f : InFlight, f ∈ k.inflight → f.lv = false) → (∀ (f : InFlight) (a : Nat) (bs : List (BitVec 8)), f ∈ k.inflight → f.wr ≠ .mem a bs) →
      exec (.exposedResult c) s = .next (s.coreTo c
        (((k.inflight.filter (fun f => decide (f.due = 0))).map (fun f => f.wr)).foldl Core.writeReg
          { k with inflight := k.inflight.filter (fun f => decide (f.due ≠ 0)) })))
    ∧ (∀ (i : BitVec 8) (o : Outst), k.bundle = [] → k.inflight = [] →
      (k.outst.filter (fun o => !o.cx && o.err.isNone))[i.toNat]? = some o →
      exec (.scoreboardResult c i) s = .next (s.coreTo c (o.wrs.foldl Core.writeReg { k with outst := k.outst.erase o })))
    ∧ (∀ (i : BitVec 8) (e : ImpErr), k.bundle = [] → k.inflight = [] → k.errs[i.toNat]? = some e → k.bank = false →
      k.impPend = none → k.impMulti = false → k.rptNext = none → k.stopped = false → k.take = none → k.lv = false → k.pc.toNat % 4 = 0 →
      e.info < 4096 → e.cause < 256 → e.eopc < 2 ^ 32 →
      ∃ d' : Dev, exec (.impreciseException c i) s = .next (s.withDev d') ∧ s.dev.OnlyCoreObs d' c
        ∧ k.Switched (d'.core c) k.pc.toNat 0 0x10 ∧ k.Recorded (d'.core c) e.cause 1 e.info e.addr e.eopc
        ∧ (d'.core c).errs = k.errs.eraseIdx i.toNat ∧ (d'.core c).outst = k.outst)

/-- TAKE. -/
def Obligations.TakeCompletesAndWaits : Prop :=
  ∀ (s : State) (c : Fin 192) (w : BitVec 32), Ready1 s c w .take → Ready1.Runs s c w →
    s.dev.crcBusy c = false → s.dev.sortBusy c = false → (s.dev.member c).pending = none →
    let k := s.dev.core c
    let n := w.toNat
    let status := (k.s (opA n)).toNat % 256
    let dst := PhysReg.s (k.bank && decide (8 ≤ opD n)) (opD n)
    (k.held = none → exec (.take c w) s = .next (s.withDev
      { s.dev.setCore c { k.issued [] with take := some ⟨dst, s.dev.smd.order⟩ } with
          smd := { s.dev.smd with order := s.dev.smd.order + 1 } }))
    ∧ (∀ h : HeldNode, k.held = some h → h.excess = false → (s.dev.slot h.inst).phase = .live → (s.dev.slot h.inst).gen = h.gen →
      ∃ d' : Dev, exec (.take c w) s = .next (s.withDev d')
        ∧ (d'.core c).held = none ∧ (d'.core c).take.map (fun t => t.dst) = some dst ∧ (d'.core c).pc = k.pc + 4
        ∧ (d'.core c).sregs = k.sregs
        ∧ (status = 0 → h.nrec.isEnd = false → h.nrec.auto = 0 →
            d'.smd.slots = s.dev.smd.slots
            ∧ d'.smd.tokens = s.dev.smd.tokens ++ h.buf.filterMap (fun b =>
                match b with
                | .post t v => some ⟨.core c, t, v⟩
                | .emit e v =>
                  match h.nrec.edges[e]? with
                  | some x => if x.valid then some ⟨.core c, tagOf h.inst h.gen x.dest x.slot, v⟩ else none
                  | none => none))
        ∧ (status ≠ 0 → (d'.slot h.inst).phase ≠ .live ∧ d'.smd.tokens = s.dev.smd.tokens))

/-! ## Smilda -/

namespace Sys2Proof.Machine

/-- The command completes: the next state is this one with device `d`. -/
def State.goes (s : State) (i : Instr) (d : Dev) : Prop := exec i s = .next (s.withDev d)

/-- Interrupt bit 2 of Smilda when a pool without members holds a ready node (R67). -/
def Dev.poolEmptyReady (d : Dev) (p : Nat) : Dev :=
  if d.poolCores p = [] ∧ 0 < d.readyOf (.pool p) then d.setReg (smdBase + 0x10) (d.reg (smdBase + 0x10) ||| 4) else d

/-- ADD, WITHDRAW and MOVE. -/
def PoolMembershipRule : Prop :=
  ∀ (s : State) (c : BitVec 8) (p : Fin 32), s.dev.clocked = true →
    let m := s.dev.member c.toNat
    let retired := bit (s.dev.regN (memBase + 0x54)) (c.toNat / 8)
    let answer := fun r : Bool => ({ s.dev with smd := { s.dev.smd with poolRefused := r } } : Dev)
    let put := fun x : Member => ({ s.dev with smd := { s.dev.smd with
      members := Tab.put (fun _ => {}) s.dev.smd.members c.toNat x, poolRefused := false } } : Dev)
    let blocked := (s.dev.core c.toNat).take.isSome
    (192 ≤ c.toNat ∨ m.pool.isSome = true ∨ retired = true → s.goes (.add c p) (answer true))
    ∧ (retired = true → s.goes (.move c p) (answer true))
    ∧ (c.toNat < 192 → m.pool = none → retired = false → s.goes (.add c p) (put { pool := some p.val, pending := none }))
    ∧ (192 ≤ c.toNat → s.goes (.withdraw c) (answer true) ∧ s.goes (.move c p) (answer true))
    ∧ (c.toNat < 192 → m.pool = none → s.goes (.withdraw c) (answer false)
        ∧ (retired = false → s.goes (.move c p) (put { pool := some p.val, pending := none })))
    ∧ (∀ q : Nat, c.toNat < 192 → m.pool = some q → blocked = true →
        s.goes (.withdraw c) ((put {}).poolEmptyReady q)
        ∧ (retired = false → s.goes (.move c p) ((put { pool := some p.val, pending := none }).poolEmptyReady q)))
    ∧ (∀ q : Nat, c.toNat < 192 → m.pool = some q → blocked = false →
        s.goes (.withdraw c) (put { m with pending := some none })
        ∧ (retired = false → s.goes (.move c p) (put { m with pending := some (some p.val) })))

/-- Control of Smilda, and unit interrupts. -/
def SmildaControlRule : Prop :=
  ∀ (s : State), s.dev.clocked = true →
    let d := s.dev
    (bit (d.regN (smdBase + 4)) 0 = false →
      (d.smdConfigOk = true → s.goes .smildaEnable
        { d with regs := Tab.put regReset d.regs (smdBase + 4) 1, smd := { d.smd with cfgErr := false } })
      ∧ (d.smdConfigOk = false → s.goes .smildaEnable { d with smd := { d.smd with cfgErr := true } }))
    ∧ s.goes .clrHwm (((d.setRegN (smdBase + 0x804) d.smd.store.length).setRegN (smdBase + 0x80C) d.smd.spill.length).setRegN
        (smdBase + 0x814) (d.smd.slots.filter (fun e => decide (e.2.phase ≠ .free))).length)
    ∧ (∀ v : BitVec 32,
        let t := v.toNat % 4096
        ((∃ (i : Nat) (x : Slot), (i, x) ∈ d.smd.slots ∧ x.phase ≠ .free ∧ x.template = t) →
          s.goes (.smdTplInval v) { d with smd := { d.smd with tplBusy := true } })
        ∧ ((∀ (i : Nat) (x : Slot), (i, x) ∈ d.smd.slots → x.phase = .free ∨ x.template ≠ t) →
          s.goes (.smdTplInval v) { d with smd := { d.smd with
            tplBusy := false, cache := d.smd.cache.filter (fun c => decide (c.template ≠ t)) } }))
    ∧ (∀ (n : Fin 148) (base cls num : Nat), intSources[n.val]? = some (base, cls, num) →
        let st := d.reg (base + 0x10)
        (st &&& d.reg (base + 0x14) = 0 → s.goes (.unitInt n) d)
        ∧ (st &&& d.reg (base + 0x14) ≠ 0 → s.goes (.unitInt n) ((d.setReg (base + 0x10) 0).fault 4 0 cls num st.toNat)))

end Sys2Proof.Machine

/-- Pool commands, enables, invalidation and unit interrupts act as the registers of Smilda say. -/
def Obligations.SmildaRegisterCommands : Prop := PoolMembershipRule ∧ SmildaControlRule

/-- SMD_CANCEL, SWEEP and SMILDA_DISABLE. -/
def Obligations.InstancesEnd : Prop :=
  ∀ (s : State), s.dev.clocked = true →
    let gone := fun (d' : Dev) (i g : Nat) =>
      (d'.slot i).phase ≠ .live ∧ (∀ r : Ready, r ∈ d'.smd.ready → r.inst = i → r.gen ≠ g)
        ∧ (∀ e : MEntry, e ∈ d'.smd.store → e.inst = i → e.gen ≠ g)
        ∧ (∀ e : SpillEntry, e ∈ d'.smd.spill → e.ent.inst = i → e.ent.gen ≠ g)
        ∧ (∀ t : Timer, t ∈ d'.smd.timers → t.inst = i → t.gen ≠ g)
    (∀ v : BitVec 32,
      let i := v.toNat % 2048
      let g := v.toNat / 65536 % 256
      ((s.dev.slot i).phase = .live → (s.dev.slot i).gen = g → ∃ d' : Dev, s.goes (.smdCancel v) d' ∧ gone d' i g
        ∧ ∀ j : Nat, j ≠ i → d'.slot j = s.dev.slot j)
      ∧ ((s.dev.slot i).phase ≠ .live ∨ (s.dev.slot i).gen ≠ g → s.goes (.smdCancel v) s.dev))
    ∧ (∃ d' : Dev, s.goes .sweep d' ∧ ∀ (i : Nat) (x : Slot), (i, x) ∈ s.dev.smd.slots → (s.dev.slot i).phase = .live →
        (s.dev.slot i).deadline ≤ s.dev.now → (s.dev.slot i).deadline ≠ 2 ^ 64 - 1 → gone d' i (s.dev.slot i).gen)
    ∧ (∃ d' : Dev, s.goes .smildaDisable d' ∧ d'.reg (smdBase + 4) = 0
        ∧ ∀ (i : Nat) (x : Slot), (i, x) ∈ s.dev.smd.slots → (s.dev.slot i).phase = .live → gone d' i (s.dev.slot i).gen)

namespace Sys2Proof.Machine

/-- Tokens with value `v` on the valid edges of a record, in order (R60, R62). -/
def edgeTokens (src : TokSrc) (i g : Nat) (r : NodeRec) (v : Nat) : List InTok :=
  (r.edges.filter (fun e => e.valid)).map (fun e => ⟨src, i + 65536 * g + 2 ^ 32 * e.dest + 2 ^ 42 * e.slot, v⟩)

end Sys2Proof.Machine

/-- TIMER_FIRE and COMPLETION_WORD. -/
def Obligations.TimersAndCompletionsSend : Prop :=
  ∀ (s : State), s.dev.clocked = true →
    let m := s.dev.smd
    (∀ (i : Fin 2048) (n : BitVec 16) (t : Timer), m.timers.find? (fun t => decide (t.inst = i.val ∧ t.node = n.toNat)) = some t →
      let due := t.fire ≤ (s.dev.now : Int)
        ∧ ((s.dev.slot i).deadline = 2 ^ 64 - 1 ∨ t.fire < ((s.dev.slot i).deadline : Int))
      (due → s.goes (.timerFire i n) { s.dev with smd := { m with
        timers := m.timers.filter (fun x => decide (x ≠ t))
        tokens := m.tokens ++ edgeTokens .smilda i t.gen t.nrec ((t.fire % (2 ^ 64 : Nat)).toNat) } })
      ∧ (¬ due → s.goes (.timerFire i n) s.dev))
    ∧ (∀ (cls : Fin 9) (num : Fin 32) (before after : List Cpl) (w : Cpl), m.cpls = before ++ w :: after →
        w.cls = cls.val → w.unit = num.val → (∀ x : Cpl, x ∈ before → x.cls ≠ cls.val ∨ x.unit ≠ num.val) → w.status ≤ 1 →
        let mine := fun j : Job => decide (j.cls = cls.val ∧ j.unit = num.val ∧ j.stage = w.stage)
        ∀ j : Job, m.jobs.find? mine = some j → (s.dev.slot j.inst).phase = .live → (s.dev.slot j.inst).gen = j.gen →
          j.nrec.isEnd = false →
          s.goes (.completionWord cls num) { s.dev with smd := { m with
            cpls := before ++ after
            jobs := m.jobs.filter (fun j => !mine j)
            tokens := m.tokens ++ edgeTokens (if cls.val = 8 then .mover num else .engine cls num) j.inst j.gen j.nrec w.word } })
    ∧ (∀ (cls : Fin 9) (num : Fin 32), (∀ x : Cpl, x ∈ m.cpls → x.cls ≠ cls.val ∨ x.unit ≠ num.val) →
        s.goes (.completionWord cls num) s.dev)

namespace Sys2Proof.Machine

/-- The tag's instance, generation, node and operand (R43). -/
def tagParts (t : Nat) : Nat × Nat × Nat × Nat := (t % 2048, t / 65536 % 256, t / 2 ^ 32 % 1024, t / 2 ^ 42 % 8)

end Sys2Proof.Machine

/-- TOKEN_ACCEPT of a source other than the token queues. -/
def Obligations.TokensMatch : Prop :=
  ∀ (s : State) (src : TokSrc) (before after : List InTok) (t : InTok), s.dev.clocked = true → src.ok = true →
    (∀ k : Nat, src ≠ .tokenQueue k) → s.dev.smd.tokens = before ++ t :: after → t.src = src →
    (∀ x : InTok, x ∈ before → x.src ≠ src) →
    let entered := fun (d : Dev) (i n : Nat) (r : NodeRec) (vals : List Nat) =>
      let level := match (d.slot i).promo with | .none => r.prio | .t1 => r.prio - 1 | .t2 => 0
      let target := if r.kind = 0 then Target.pool r.target else if r.kind = 1 then .cls r.target else .mover r.target
      let d' := d.makeReady i n r vals
      s.goes (.tokenAccept src) d'
        ∧ d'.smd.ready = d.smd.ready ++ [⟨i, (d.slot i).gen, n, target, level, d.smd.order, d.smd.order, vals, r⟩]
    let d := ({ s.dev with smd := { s.dev.smd with tokens := before ++ after } } : Dev).bump (smdBase + 0x900)
    let i := (tagParts t.tag).1
    let g := (tagParts t.tag).2.1
    let n := (tagParts t.tag).2.2.1
    let k := (tagParts t.tag).2.2.2
    let x := s.dev.slot i
    let count := fun (d : Dev) (j : Nat) => d.bump (smdBase + 0x900 + 8 * j)
    (x.phase ≠ .live ∨ x.gen ≠ g → s.goes (.tokenAccept src) (count d 6))
    ∧ (x.phase = .live → x.gen = g → x.lastNode < n → s.goes (.tokenAccept src) (count d 8))
    ∧ (∀ r : NodeRec, x.phase = .live → x.gen = g → n ≤ x.lastNode → s.dev.cachedNode x.template n = some r → r.kind < 3 →
        (r.nops ≤ k → s.goes (.tokenAccept src) (count d 8))
        ∧ (k < r.nops → r.nops = 1 → entered d i n r [t.val])
        ∧ (∀ e : MEntry, k < r.nops → r.nops ≠ 1 → s.dev.smd.store.find? (fun e => e.isKey i g n) = some e →
            (e.mask.testBit k = true →
              s.goes (.tokenAccept src) ((count d 7).setSlot i { x with errDup := true }))
            ∧ (e.mask.testBit k = false →
              let e' := { e with mask := e.mask ||| 2 ^ k, vals := Tab.put (fun _ => 0) e.vals k t.val }
              (e'.mask ≠ 2 ^ r.nops - 1 → s.goes (.tokenAccept src) { d with smd := { d.smd with
                store := d.smd.store.map (fun y => if y.isKey i g n then e' else y) } })
              ∧ (e'.mask = 2 ^ r.nops - 1 → entered (d.releaseEntry e') i n r
                  ((List.range r.nops).map (fun j => Tab.get (fun _ => 0) e'.vals j))))))

/-- DISPATCH_COMMIT. -/
def Obligations.DispatchCommits : Prop :=
  ∀ (s : State), s.dev.clocked = true →
    let d := s.dev
    let eligible := fun r : Ready => r ∈ d.smd.ready ∧ d.now < (d.slot r.inst).deadline ∧ (d.receiver r.target).isSome = true
    (d.nextReady = none ↔ ∀ r : Ready, r ∈ d.smd.ready → ¬ eligible r)
    ∧ (d.nextReady = none → s.goes .dispatchCommit d)
    ∧ (∀ r : Ready, d.nextReady = some r → eligible r ∧ (∀ x : Ready, eligible x → x.before r = false)
      ∧ (∀ c : Nat, d.receiver r.target = some (.core c) → c < 192 → ∀ (b : Bool) (n : Nat),
          (d.core c).take.map (fun t => t.dst) = some (.s b n) →
          d.mem.quietAt (lmBase c + 0x3FF80) 128 → bit (d.regN (memBase + 0x54)) (c / 8) = false → ∃ d' : Dev, s.goes .dispatchCommit d'
            ∧ d'.mem.bytes (lmBase c + 0x3FF80) 128 = dispatchRecord (d.slot r.inst) r d.now
            ∧ d'.core c = { (d.core c).writeReg (.s b n (BitVec.ofNat 32 (r.nrec.param32 % 65536))) with
                take := none, held := some { inst := r.inst, gen := r.gen, node := r.node, nrec := r.nrec } }
            ∧ d'.smd = { d.smd with ready := d.smd.ready.filter (fun x => decide (x.entered ≠ r.entered)) })
      ∧ (∀ cls u : Nat, d.receiver r.target = some (.engine cls u) → s.goes .dispatchCommit (d.commitEngine r cls u))
      ∧ (∀ m k : Nat, d.receiver r.target = some (.chan m k) → s.goes .dispatchCommit (d.commitMover r m k)))

/-- INSTANCE_CREATE. -/
def Obligations.InstancesBegin : Prop :=
  ∀ (s : State), s.dev.clocked = true → bit (s.dev.regN (smdBase + 4)) 0 = true →
    let taken := s.dev.takeEntry (s.dev.regN (smdBase + 0x40))
    let d := taken.1
    (taken.2 = none → s.goes .instanceCreate d)
    ∧ (∀ (n : Nat) (bs : List Byte), taken.2 = some (n, bs) →
      let f := fun a k : Nat => leNat ((bs.drop a).take k)
      let notify := f 4 4 % 2 ^ 18
      let margin := fun (x : Dev) => if f 16 8 = 2 ^ 64 - 1 then 0x7FFFFFFF else (clamp 32 ((f 16 8 : Int) - x.now) % (2 ^ 32 : Nat)).toNat
      let refuse := fun (x : Dev) (status : Nat) =>
        x.postHw .smilda notify (recordBytes 0 status 0 0 (f 24 8) x.now (margin x) 0)
      let free := (List.range 2048).find? (fun i => decide ((d.slot i).phase = .free))
      let entry := d.busRead .smilda (d.reg64 (smdBase + 0x20) + 16 * (f 0 2 % 4096)) 16
      let e := fun (es : List Byte) (a k : Nat) => leNat es / 2 ^ a % 2 ^ k
      (free = none → s.goes .instanceCreate (refuse (d.bump (smdBase + 0x900 + 8 * 15)) 0x10))
      ∧ (free ≠ none → (∀ es : List Byte, entry.2 ≠ .ok es) → s.goes .instanceCreate (refuse entry.1 0x11))
      ∧ (∀ es : List Byte, free ≠ none → entry.2 = .ok es →
          (e es 50 1 = 0 ∨ e es 51 13 ≠ 0 ∨ e es 96 32 ≠ 0 → s.goes .instanceCreate (refuse entry.1 0x11))
          ∧ (e es 50 1 = 1 → e es 51 13 = 0 → e es 96 32 = 0 → f 16 8 ≤ entry.1.now →
              s.goes .instanceCreate (refuse entry.1 0x12))
          ∧ (∀ i : Nat, free = some i → e es 50 1 = 1 → e es 51 13 = 0 → e es 96 32 = 0 → entry.1.now < f 16 8 →
              let x : Slot := {
                phase := .live
                gen := (entry.1.slot i).gen
                template := f 0 2 % 4096
                lastNode := e es 40 10
                nodeBase := e es 0 40
                t1us := e es 64 16
                t2us := e es 80 16
                notify := notify
                anchor := f 8 8
                deadline := f 16 8
                user := f 24 8 }
              let d1 := entry.1.setSlot i x
              let d2 := d1.setRegN (smdBase + 0x814) (max (d1.regN (smdBase + 0x814)) d1.liveCount)
              s.goes .instanceCreate ((d2.postHw .smilda notify
                (recordBytes (i + 65536 * x.gen) 1 0 0 (f 24 8) d2.now (margin d2) 0)).armAll i))))

/-! ## Queues and movers -/

/-- Queue commands, whatever ENABLE reads (assumption log 10), and QMG_ENABLE. -/
def Obligations.QueueCommands : Prop :=
  ∀ (s : State) (n : Fin 262144), s.dev.clocked = true →
    let d := s.dev
    let q := d.queue n
    let replies := fun (d : Dev) (r : Nat) => ({ d with q := { d.q with result := r } } : Dev)
    let read := d.memRead .queueMgr (d.reg64 (qmgBase + 0x20) + 32 * n) 32
    (d.nq ≤ n → q.enabled = false → ∀ i : Instr, i ∈ [Instr.load n, .disable n, .bind n, .clear n] → s.goes i (replies d 4))
    ∧ (n < d.nq →
      s.goes (.disable n) (replies (d.setQueue n { q with enabled := false, marked := [] }) 0)
      ∧ s.goes (.clear n) (replies (d.setQueue n { q with dropped := false, dbErr := false }) 0)
      ∧ (q.enabled = false → s.goes (.bind n) (replies d 4))
      ∧ (q.enabled = true → q.ckind ≠ 4 → s.goes (.bind n) (replies d 2))
      ∧ (q.enabled = true → q.ckind = 4 →
          s.goes (.bind n) (replies (d.setQueue n { q with tag := BitVec.ofNat 64 (d.reg64 (qmgBase + 0x38)) }) 0))
      ∧ (q.enabled = true → s.goes (.load n) (replies d 1))
      ∧ (q.enabled = false → (∀ bs : List Byte, read.2 ≠ .ok bs) → s.goes (.load n) (replies read.1 2))
      ∧ (∀ bs : List Byte, q.enabled = false → read.2 = .ok bs → read.1.parseEntry bs = none → s.goes (.load n) (replies read.1 2))
      ∧ (∀ (bs : List Byte) (x : Queue), q.enabled = false → read.2 = .ok bs → read.1.parseEntry bs = some x →
          (x.ckind = 1 ∧ (∃ (m : Nat) (y : Queue), (m, y) ∈ read.1.q.queues ∧ y.enabled = true ∧ y.ckind = 1 ∧ y.target = x.target) →
            s.goes (.load n) (replies read.1 3))
          ∧ ((x.ckind = 1 → ∀ (m : Nat) (y : Queue), (m, y) ∈ read.1.q.queues → y.enabled = false ∨ y.ckind ≠ 1 ∨ y.target ≠ x.target) →
            s.goes (.load n) (replies ((read.1.setQueue n x).qTouch n false) 0))))
    ∧ (let base := d.reg64 (qmgBase + 0x20)
      let log := d.regN (qmgBase + 0x28)
      let r := fun a => (d.locate .queueMgr a).1
      (4 ≤ log → log ≤ 18 → base % (32 * d.nq) = 0 → r base = r (base + 32 * d.nq - 1) → r base = .pool ∨ r base = .ddr →
        s.goes (.qmgEnable true) { d.setRegN (qmgBase + 4) 1 with q := { d.q with cfgErr := false } })
      ∧ (log < 4 ∨ 18 < log ∨ base % (32 * d.nq) ≠ 0 → s.goes (.qmgEnable true) { d.setRegN (qmgBase + 4) 0 with q := { d.q with cfgErr := true } })
      ∧ ∃ d' : Dev, s.goes (.qmgEnable false) d' ∧ d'.reg (qmgBase + 4) = 0
          ∧ ∀ (m : Nat) (x : Queue), (m, x) ∈ d.q.queues → (d'.queue m).enabled = false)

/-- Posts and held posts. -/
def Obligations.PostsFillSlots : Prop :=
  ∀ (s : State) (ag : Agent) (c : Fin 192) (n : Fin 262144) (desc : BitVec 256) (long : Bool) (data : BitVec 512),
    s.dev.clocked = true → ag.ok = true →
    let d := s.dev.qTouch n true
    let q := s.dev.queue n
    let f := fun a k : Nat => data.toNat / 2 ^ (8 * a) % 2 ^ (8 * k)
    let count := fun (d : Dev) (j : Nat) => d.bump (qmgBase + 0x800 + 8 * j)
    let plain := q.enabled = true ∧ q.post = true ∧ q.ckind ≠ 4 ∧ (q.ckind = 2 → q.armed = false)
    let full := 2 ^ q.log2n ≤ q.occ
    let placed := fun (i : Instr) (d : Dev) (v : Nat) =>
      let w := d.memWrite .queueMgr (q.ring + 32 * (q.pi.toNat % 2 ^ q.log2n)) (leBytes 32 v)
      w.2 = .ok → s.goes i (count (w.1.setQueue n { q with pi := q.pi + 1 }) 0)
    let dropped := fun (d : Dev) => count ((d.setQueue n { q with dropped := true }).setBits (qmgBase + 0x10) 1) 1
    let inPost := f 32 4 = n.val ∧ f 36 28 = 0
    let hostMay := s.dev.hostLinked = true ∧ n.val < s.dev.nq ∧ q.hostok = true
    (plain → ¬ full → (∀ h : HeldPost, h ∈ s.dev.q.held → h.queue ≠ n.val ∨ h.agent ≠ ag) →
        placed (.queuePost ag n desc) d desc.toNat)
    ∧ (plain → full → q.stall = true → s.goes (.queuePost ag n desc)
        { d with q := { d.q with held := d.q.held ++ [⟨ag, n.val, leBytes 32 desc.toNat, none, d.time.raw⟩] } })
    ∧ (plain → full → q.stall = false → (∀ h : HeldPost, h ∈ s.dev.q.held → h.queue ≠ n.val ∨ h.agent ≠ ag) →
        s.goes (.queuePost ag n desc) (dropped d))
    ∧ (q.enabled = false → s.goes (.queuePost ag n desc) (count s.dev 8) ∧ (inPost → s.goes (.qmgPost c data) (count s.dev 8)))
    ∧ (plain → inPost → ¬ full → placed (.qmgPost c data) d (f 0 32))
    ∧ (plain → inPost → full → s.goes (.qmgPost c data) (dropped d))
    ∧ (plain → hostMay → ¬ full → placed (.hostPost n long data) d (f 0 32))
    ∧ (plain → hostMay → full → s.goes (.hostPost n long data) (dropped d))
    ∧ (s.dev.hostLinked = false → s.goes (.hostPost n long data) s.dev)
    ∧ ((∀ h : HeldPost, h ∈ s.dev.q.held → h.queue ≠ n.val) → s.goes (.stalledPost n) s.dev)
    ∧ (∀ (h : HeldPost) (before after : List HeldPost), s.dev.q.held = before ++ h :: after → h.queue = n.val →
        (∀ x : HeldPost, x ∈ before → x.queue ≠ n.val) → plain → h.job = none → (∀ p : Nat, h.agent ≠ .fronthaul p) →
        h.desc.length = 32 →
        (full → q.stall = true → s.goes (.stalledPost n) s.dev)
        ∧ (¬ full →
          let d1 := s.dev.bumpBy (qmgBase + 0x810) (s.dev.nsSince h.since)
          placed (.stalledPost n) { d1 with q := { d1.q with held := before ++ after } } (leNat h.desc)))

/-- Doorbells and HANDOVER. -/
def Obligations.DoorbellsAndHandover : Prop :=
  ∀ (s : State) (n : Fin 262144) (byHost : Bool) (v : BitVec 32), s.dev.clocked = true →
    let d := s.dev.qTouch n true
    let q := s.dev.queue n
    let count := fun (d : Dev) (j : Nat) => d.bump (qmgBase + 0x800 + 8 * j)
    let error := count ((d.setQueue n { q with dbErr := true }).setBits (qmgBase + 0x10) 2) 6
    let may := byHost = false ∨ (s.dev.hostLinked = true ∧ n.val < s.dev.nq ∧ q.enabled = true ∧ q.hostok = true)
    let room := (v - q.pi).toNat ≤ 2 ^ q.log2n - q.occ
    (may → q.enabled = false → s.goes (.producerDoorbell n byHost v) (count s.dev 8) ∧ s.goes (.consumerDoorbell n byHost v) (count s.dev 8))
    ∧ (may → q.enabled = true → q.post = false → room → q.ckind ≠ 4 → (q.ckind = 2 → q.armed = false) →
        s.goes (.producerDoorbell n byHost v) (d.setQueue n { q with pi := v }))
    ∧ (may → q.enabled = true → q.post = true ∨ ¬ room → s.goes (.producerDoorbell n byHost v) error)
    ∧ (may → q.enabled = true → q.ckind < 2 → (v - q.ci).toNat ≤ q.occ →
        s.goes (.consumerDoorbell n byHost v) (d.setQueue n { q with ci := v, armed := true }))
    ∧ (may → q.enabled = true → q.ckind = 3 ∨ q.occ < (v - q.ci).toNat → s.goes (.consumerDoorbell n byHost v) error)
    ∧ (byHost = true → s.dev.hostLinked = true → n.val < s.dev.nq → q.enabled = true → q.hostok = false →
        s.goes (.producerDoorbell n byHost v) (count s.dev 11) ∧ s.goes (.consumerDoorbell n byHost v) (count s.dev 11))
    ∧ (byHost = true → s.dev.hostLinked = false →
        s.goes (.producerDoorbell n byHost v) s.dev ∧ s.goes (.consumerDoorbell n byHost v) s.dev)
    ∧ ((∀ t : Taker, t ∈ takers → s.dev.takesFrom n t = false) → s.goes (.handover n) s.dev)
    ∧ (∀ (before after : List Taker) (t : Taker), takers = before ++ t :: after → s.dev.takesFrom n t = true →
        (∀ x : Taker, x ∈ before → s.dev.takesFrom n x = false) →
        let taken := s.dev.takeEntry n
        (taken.2 = none → s.goes (.handover n) taken.1)
        ∧ (∀ (i : Nat) (e : List Byte), taken.2 = some (i, e) → ∃ d' : Dev, s.goes (.handover n) d' ∧ d' = taken.1.giveTo t e
            ∧ (∀ k : Nat, t = .launch k → d' = taken.1.setHead k (some e))
            ∧ (∀ cls u : Nat, t = .engine cls u → cls < 5 → (taken.1.eng cls u).run = none → (d'.eng cls u).run.isSome = true)))

/-- Commands of mover channels. -/
def Obligations.ChannelCommands : Prop :=
  ∀ (s : State) (m : Fin 32) (k : Fin 16) (on r : Bool), s.dev.clocked = true →
    let d := s.dev.wakeFor (bmvBase m)
    let c := d.chan m k
    let count := fun (d : Dev) (j : Nat) => d.bump (bmvBase m + 0x400 + 8 * j)
    let issued := (parseMv (d.chanBytes m k)).total ≤ c.pos
    (c.st = .ready → s.goes (.pause m k) (count (d.setChan m k { c with st := .paused }) 4))
    ∧ (c.st = .running → c.ending = none → ¬ issued → s.goes (.pause m k) (count (d.setChan m k { c with st := .pausing }) 4))
    ∧ (c.st = .running → c.ending = none → issued → s.goes (.pause m k) (count (d.setChan m k { c with pauseLate := true }) 5))
    ∧ (c.st = .idle ∨ c.st = .paused ∨ c.st = .pausing → s.goes (.pause m k) d)
    ∧ (c.st = .paused → s.goes (.resume m k) (d.setChan m k { c with st := .ready }))
    ∧ (c.st ≠ .paused → s.goes (.resume m k) d)
    ∧ (c.st = .idle → s.goes (.abort m k r) d)
    ∧ (c.st = .ready ∨ c.st = .paused → c.ending = none → ∃ d' : Dev, s.goes (.abort m k r) d'
        ∧ (d'.chan m k).st = .idle ∧ d'.regN (bmvBase m + 0x100 + 0x20 * k + 0x14) = 0x21)
    ∧ (c.st = .running ∨ c.st = .pausing → c.ending = none → issued → r = true →
        s.goes (.abort m k r) (d.setChan m k { c with abortLate := true }))
    ∧ (c.st = .running ∨ c.st = .pausing → c.ending = none → ¬ issued ∨ r = false →
        s.goes (.abort m k r) (d.setChan m k { c with ending := some (0x21, none) }))
    ∧ (let c := s.dev.chan m k
      (c.st = .pausing → c.ending = none → s.goes (.channelPaused m k)
        ((s.dev.setChan m k { c with st := .paused }).bumpBy (bmvBase m + 0x440) (s.dev.nsSince c.start)))
      ∧ (c.st ≠ .pausing → s.goes (.channelPaused m k) s.dev))
    ∧ s.goes (.bmvEnable m on) (d.setReg (bmvBase m + 4) (if on then 1 else 0))

/-- Choice, bursts and completion of a mover. -/
def Obligations.MoverRuns : Prop :=
  ∀ (s : State) (m : Fin 32), s.dev.clocked = true →
    let d := s.dev
    let prio := fun k : Nat => d.regN (bmvBase m + 0x100 + 0x20 * k + 4) % 4
    let free := bit (d.regN (bmvBase m + 4)) 0 = true ∧ d.power (pwrEng 8 m) = .active ∧ ∀ k : Nat, k < 16 → (d.chan m k).holds = false
    (free → (∀ k : Nat, k < 16 → (d.chan m k).st ≠ .ready) → s.goes (.channelChosen m) d)
    ∧ (free → (∃ k : Nat, k < 16 ∧ (d.chan m k).st = .ready) → ∃ k : Nat, k < 16 ∧ (d.chan m k).st = .ready
        ∧ (∀ j : Nat, j < 16 → (d.chan m j).st = .ready → prio k ≤ prio j)
        ∧ (let c := d.chan m k
          let fails := c.pos = 0 ∧ c.ending = none ∧ d.chanOk m k = false
          ∃ d' : Dev, s.goes (.channelChosen m) d' ∧ d' = { d with movers := d'.movers } ∧ (d'.mover m).last = k
            ∧ (fails → d'.chan m k = { c with st := .running, start := d.time.raw, ending := some (0x10, none) })
            ∧ (¬ fails → d'.chan m k = { c with st := .running, start := d.time.raw })
            ∧ ∀ (u j : Nat), u ≠ m.val ∨ j ≠ k → d'.chan u j = d.chan u j))
    ∧ (∀ k : Nat, d.moverCur m = some k →
      let c := d.chan m k
      let md := parseMv (d.chanBytes m k)
      let n := md.burstLen c.pos
      let got := d.readRuns m (segRuns md.segs c.pos n)
      let c0 := if c.pos = 0 then { c with crc := crcInit md.sel } else c
      (c.st = .running → c.ending = none → c.pos < md.total → n ≤ 256
        ∧ (∀ bs cov : List Byte, got.2 = ⟨bs, cov, none⟩ →
          let d1 := got.1.bumpBy (bmvBase m + 0x408) n
          let c1 := { c0.feed md cov with pos := c.pos + n }
          let w := d1.busWrite (.mover m) (ringAddr md.dst md.dlog c.pos) bs
          (md.op = 1 → w.2 = .ok → s.goes (.moverBurst m false) (w.1.setChan m k c1))
          ∧ (md.op ≠ 1 → s.goes (.moverBurst m false) (d1.setChan m k c1)))
        ∧ s.goes (.moverBurst m true) (d.setChan m k { c with ending := some (0x15, none) }))
      ∧ (c.st = .running → c.ending = none → md.total ≤ c.pos → s.goes (.moverBurst m false) d
        ∧ (md.store = false →
          let pass := (c.result md).2
          let status := if md.check = true ∧ pass = false then 1 else 0
          ∃ d' : Dev, s.goes (.moverCompletion m) d' ∧ (d'.chan m k).st = .idle
            ∧ d'.regN (bmvBase m + 0x100 + 0x20 * k + 0x14) = status
            ∧ (c.smilda = true → d'.smd.cpls = d.smd.cpls ++ [⟨8, m, k,
                mvWord (if md.sel = 0 then 0 else (c.result md).1) status (decide (md.sel ≠ 0)) pass c.abortLate c.pauseLate c.pos, status⟩]))))

/-! ## Registers and memory -/

/-- Plain register writes. -/
def Obligations.RegisterWrites : Prop :=
  ∀ (s : State) (ag : Agent) (a : BitVec 40) (v : BitVec 32), s.dev.powered = true → ag.ok = true →
    let d := s.dev.wakeFor a.toNat
    let i : Instr := .registerWrite ag a (leBytes 4 v.toNat)
    (ag ≠ .host → a.toNat % 4 = 0 → ∀ p : RegPlace, regPlace a.toNat = some p →
      p.win.base ∈ [benBase 0, decBase 0, encBase 0, codecBase, xfuBase 0] → p.off ≠ 4 → p.off ≠ 0x20 →
      (p.row.acc = .rw → s.goes i (d.setReg a.toNat (v &&& p.mask)))
      ∧ (p.row.acc = .w1c → s.goes i (d.setReg a.toNat (d.reg a.toNat &&& ~~~(v &&& p.mask))))
      ∧ (p.row.acc ≠ .rw → p.row.acc ≠ .w1c → s.goes i d))
    ∧ (ag ≠ .host → a.toNat % 4 = 0 → inWindow a.toNat = true → regPlace a.toNat = none → touchesPost a.toNat 4 = false →
        (d.pageRefuses ag a.toNat = false) → s.goes i d)
    ∧ (ag = .host → s.dev.hostLinked = false → exec i s = .next s)

namespace Sys2Proof.Machine

/-- Accesses to Pool, and to a hole. -/
def MemoryAccessesRule : Prop :=
  ∀ (s : State) (ag : Agent) (a : BitVec 40) (n : Fin 257) (bs : List Byte), s.dev.powered = true → ag.ok = true →
    1 ≤ bs.length → bs.length ≤ 256 → 1 ≤ n.val →
    let d := s.dev
    let here := fun len : Nat => poolBase ≤ a.toNat ∧ a.toNat + len ≤ poolBase + 0x8000000
      ∧ (∀ x : Nat, a.toNat ≤ x → x < a.toNat + len → bit (d.regN (memBase + 0x50)) ((x - poolBase) / 0x800000) = false)
      ∧ d.mem.quietAt a.toNat len
    (here n → exec (.memoryRead ag a n) s = .next { s with reply := .read (.ok (d.mem.bytes a.toNat n)) })
    ∧ (here bs.length → ∃ d' : Dev, exec (.memoryWrite ag a bs) s = .next { s with dev := d', reply := .write .ok }
        ∧ d.mem.StoredAt d'.mem a.toNat bs
        ∧ d' = { d with mem := d'.mem, regs := d'.regs }
        ∧ (∀ x : Nat, x ≠ memCnt 9 → x ≠ memCnt 9 + 4 → d'.reg x = d.reg x))
    ∧ (poolBase + 0x8000000 ≤ a.toNat → a.toNat + 256 ≤ ddrBase → inWindow a.toNat = false →
        (∀ x : Nat, a.toNat ≤ x → x < a.toNat + 256 → inWindow x = false) → d.wakeFor a.toNat = d →
        exec (.memoryRead ag a n) s = .next { s with reply := .read (.decode a.toNat) }
        ∧ exec (.memoryWrite ag a bs) s = .next { s with reply := .write (.decode a.toNat) })

/-- The combining buffer of DDR5. -/
def BufferedWritesAreReadRule : Prop :=
  ∀ (s : State) (ag : Agent) (a : BitVec 40) (bs : List Byte), s.dev.powered = true → ag.ok = true → bs.length = 64 →
    let d := s.dev
    (a.toNat % 64 = 0 → ddrBase ≤ a.toNat → a.toNat + 64 ≤ ddrBase + d.visible → d.mem.filled = true →
      d.pageRetired a.toNat = false → inWindow a.toNat = false → d.wakeFor a.toNat = d →
      ∃ d' : Dev, exec (.memoryWrite ag a bs) s = .next { s with dev := d', reply := .write .ok }
        ∧ (d'.readDdr ag (a.toNat / 64)).2 = .ok bs)
    ∧ ((∀ e : CombEntry, e ∈ d.mem.comb → d.octetDue e = false) → s.dev.clocked = true → s.goes .octetFlush d)
    ∧ (∀ e : CombEntry, d.mem.comb.find? d.octetDue = some e → (∀ i : Nat, i < 512 → (e.byte i).isSome = true) →
        s.dev.clocked = true → ∃ d' : Dev, s.goes .octetFlush d'
          ∧ (∀ x : Nat, d'.mem.byte x = if 512 * e.octet ≤ x ∧ x < 512 * e.octet + 512 then (e.byte (x - 512 * e.octet)).getD 0 else d.mem.byte x)
          ∧ d'.mem.comb = d.mem.comb.filter (fun y => decide (y.octet ≠ e.octet)))

end Sys2Proof.Machine

/-- Memory accesses answer and change what they name, and buffered DDR5 bytes are what a read gives. -/
def Obligations.MemoryCommands : Prop := MemoryAccessesRule ∧ BufferedWritesAreReadRule

namespace Sys2Proof.Machine

/-- Every byte of a range reads 0, and every byte outside it as before. -/
def MemState.Cleared (m m' : MemState) (inside : Nat → Prop) : Prop :=
  ∀ x : Nat, (inside x → m'.byte x = 0) ∧ (¬ inside x → m'.byte x = m.byte x)

end Sys2Proof.Machine

/-- The integrity unit's commands. -/
def Obligations.IntegrityCommands : Prop :=
  ∀ (s : State),
    let d := s.dev
    let back := fun (o v k : Nat) => bit (d.regN (memBase + o)) k = true ∧ bit v k = false
    (d.clocked = true →
      (d.mem.fillBusy = true → d.mem.filled = false → d.nchOk = true → ∃ d' : Dev, s.goes .fill d'
        ∧ d'.mem.filled = true ∧ d'.mem.fillBusy = false ∧ d'.mem.comb = []
        ∧ d.mem.Cleared d'.mem (fun x => ddrBase ≤ x ∧ x < ddrBase + 0x6000000000) ∧ d' = { d with mem := d'.mem })
      ∧ (d.mem.fillBusy = false ∨ d.mem.filled = true → s.goes .fill d)
      ∧ (d.goatRuns = true →
        let i := d.mem.goatSram % sramLines
        let next := { d.mem with goatSram := (i + 1) % sramLines }
        (d.goatVisits (sramLine i) = true → d.mem.lineQuiet (sramLine i) = true →
          s.goes (.goat false) { d.bump (memBase + 0x138) with mem := next })
        ∧ (d.goatVisits (sramLine i) = false → s.goes (.goat false) { d with mem := next }))
      ∧ (d.goatRuns = false → s.goes (.goat false) d ∧ s.goes (.goat true) d)
      ∧ (d.goatRuns = true → d.mem.filled = true → d.visible ≠ 0 →
        ∃ d' : Dev, s.goes (.goat true) d' ∧ ddrBase ≤ d'.reg64 (memBase + 0x38)
          ∧ d'.reg64 (memBase + 0x38) < ddrBase + d.visible))
    ∧ (d.powered = true →
      (d.mem.srcBuf = [] → s.goes .logEntry d)
      ∧ (d.mem.srcBuf ≠ [] → (d.reg (memBase + 0x40) - d.reg (memBase + 0x44)).toNat < 1024 →
        ∃ (d' : Dev) (c : Nat) (e : LogEvent), s.goes .logEntry d' ∧ (c, e) ∈ d.mem.srcBuf
          ∧ d'.reg (memBase + 0x40) = d.reg (memBase + 0x40) + 1
          ∧ d'.mem.srcBuf.length + 1 = d.mem.srcBuf.length ∧ d'.mem.rrLast = c
          ∧ d'.regBytes (memBase + 0x10000 + 32 * (d.regN (memBase + 0x40) % 1024)) 32 = e.bytes)
      ∧ (∀ (ag : Agent) (v : BitVec 32), ag.ok = true →
        let owner := if bit (d.regN (memBase + 4)) 1 = true then ∃ c : Nat, ag = .core c else ag = .supervisor
        let within := (v - d.reg (memBase + 0x44)).toNat ≤ (d.reg (memBase + 0x40) - d.reg (memBase + 0x44)).toNat
        (owner ∧ within → s.goes (.memLogCi ag v) (d.setReg (memBase + 0x44) v))
        ∧ (¬ (owner ∧ within) → s.goes (.memLogCi ag v) d))
      ∧ (∀ (n : Fin 256) (v : BitVec 64), s.goes (.memRetireEntry n v) { d with mem := { d.mem with
          retire := Tab.put (fun _ => 0) d.mem.retire n (v &&& 0x80000000007FFFFF) } })
      ∧ (∀ v : BitVec 32, ∃ d' : Dev, s.goes (.memPoolRetire v) d' ∧ d'.regN (memBase + 0x50) = v.toNat % 65536
          ∧ d.mem.Cleared d'.mem (fun x => ∃ b : Nat, b < 16 ∧ back 0x50 v.toNat b
              ∧ poolBase + b * 0x800000 ≤ x ∧ x < poolBase + b * 0x800000 + 0x800000))
      ∧ (∀ v : BitVec 32, ∃ d' : Dev, s.goes (.memClusterRetire v) d' ∧ d'.regN (memBase + 0x54) = v.toNat % 2 ^ 24
          ∧ ((∀ k : Nat, k < 24 → bit v.toNat k = true → bit (d.regN (memBase + 0x54)) k = true) →
            d.mem.Cleared d'.mem (fun x => ∃ k : Nat, k < 24 ∧ back 0x54 v.toNat k
              ∧ 0x100000000 + k * 0x1000000 ≤ x ∧ x < 0x100000000 + k * 0x1000000 + 0x1000000))))

/-! ## Engines -/

namespace Sys2Proof.Machine

/-- The engine's running job has made `n` steps, and has ended well exactly if that was the last. -/
def Dev.SteppedTo (d' : Dev) (cls u n : Nat) (last : Bool) : Prop :=
  ∃ j : EJob, (d'.eng cls u).run = some j ∧ j.step = n ∧ j.status.isSome = last
    ∧ ∀ (st : Nat) (a : Option Nat), j.status = some (st, a) → st ≤ 1

/-- The rows of a beam engine with their OP (R168). -/
def beamOpRows (u : Fin 12) (f : Bool) : List (Instr × Nat) :=
  [(.gram u f, 1), (.chol u f, 2), (.solve u f, 3), (.apply u f, 4), (.detect u f, 5), (.eq1 u f, 6), (.eqm u f, 7)]

/-- What a step of a beam job computes, by OP (R178 to R185). -/
def Dev.beamWork (d : Dev) (u : Nat) (b : BDesc) (step cap : Nat) : StepRes :=
  let g := step % b.ngrp
  let y := step / b.ngrp
  match b.op with
  | 1 => d.gramStep (.beam u) b g
  | 2 => d.cholStep (.beam u) b g
  | 3 => d.solveStep (.beam u) b g
  | 4 => d.applyStep (.beam u) b g y
  | 5 => d.detectStep (.beam u) b g y cap
  | 6 => d.eq1Step (.beam u) b g y
  | _ => d.eqmStep (.beam u) b g

/-- Element (i, j) of the Gram matrix of A, r × c, with λ on the diagonal (R178): A^H A, or A A^H for odd VAR. -/
def gramElement (a : Mat) (r c : Nat) (odd : Bool) (reg : Rat) (i j : Nat) : CQ :=
  let s := if odd then CQ.sum ((List.range c).map (fun k => (a.at i k).mul (a.at j k).conj))
    else CQ.sum ((List.range r).map (fun k => (a.at k i).conj.mul (a.at k j)))
  if i = j then s.add ⟨reg, 0⟩ else s

end Sys2Proof.Machine

/-- Steps of a beam engine. -/
def Obligations.BeamSteps : Prop :=
  (∀ (s : State) (u : Fin 12) (i : Instr) (op : Nat) (j : EJob), s.dev.clocked = true → (i, op) ∈ beamOpRows u false →
    (s.dev.eng 0 u).run = some j → j.status = none →
    let b := parseBeam j.bytes
    let g := j.step % b.ngrp
    let cap := if op ≠ 5 then 0 else if j.cap ≠ 0 then j.cap
      else marginCap (s.dev.regN (benBase u + 0x24)) (s.dev.regN (benBase u + 0x28)) 1 b.iter b.deadline s.dev.now
    let work := s.dev.beamWork u b j.step cap
    (b.op ≠ op → s.goes i s.dev)
    ∧ (∀ (st a : Nat), b.op = op → work.2 = .error (st, a) → ∃ d' : Dev, s.goes i d' ∧ d'.mem = work.1.mem
        ∧ (d'.eng 0 u).run.map (fun j => j.status) = some (some (st, some a)))
    ∧ (∀ o : StepOut, b.op = op → work.2 = .ok o →
        let byte := groupByte (decide (j.step / b.ngrp = 0)) (Tab.get (fun _ => 0) j.gstat g) o
        let w := work.1.writeMany (.beam u) (o.writes ++ if b.gstat = 0 then [] else [(b.gstat + g, leBytes 1 byte)])
        w.2 = none → ∃ d' : Dev, s.goes i d' ∧ d'.mem = w.1.mem ∧ d'.SteppedTo 0 u (j.step + 1) (decide (j.step + 1 = b.steps)))
    ∧ (∀ i' : Instr, (i', op) ∈ beamOpRows u true → b.op = op → ∃ d' : Dev, s.goes i' d' ∧ d'.mem = s.dev.mem
        ∧ (d'.eng 0 u).run.map (fun j => j.status) = some (some (0x15, none))))
  ∧ (∀ (d d1 : Dev) (ag : Agent) (b : BDesc) (g : Nat) (bs : List (List Byte)), b.opt = false →
    d.readMany ag ((List.range b.r).map (fun i => (b.opa.addr + g * b.opa.s1 + i * b.opa.rs, 4 * b.c))) = (d1, bs, none) →
    let a : Mat := bs.map (ci16Values b.opa.exp b.c)
    let m := if b.var % 2 = 0 then b.c else b.r
    let row := fun i : Nat => bfpRowBytes ((List.range m).map (gramElement a b.r b.c (decide (b.var % 2 ≠ 0)) b.reg i))
    d.gramStep ag b g = (d1, .ok {
      writes := (List.range m).map (fun i => (b.out0.addr + g * b.out0.s1 + i * rowBytes m, (row i).1))
      sat := (List.range m).any (fun i => (row i).2) }))

namespace Sys2Proof.Machine

/-- The rows of the transform engines with their OP (R244). -/
def xfuOpRows (u : Fin 8) (f : Bool) : List (Instr × Nat) :=
  [(.fft u f, 1), (.ifft u f, 2), (.prach u f, 3), (.srs u f, 4), (.resample u f, 5)]

/-- What a step of a transform job computes, by OP (R249 to R258). -/
def Dev.xfuWork (d : Dev) (u : Nat) (x : XDesc) (step : Nat) :=
  match x.op with
  | 1 => d.fftStep (.xfu u) x step
  | 2 => d.ifftStep (.xfu u) x step
  | 3 => d.prachStep (.xfu u) x step
  | 4 => d.srsStep (.xfu u) x step
  | _ => d.resampleStep (.xfu u) x step

end Sys2Proof.Machine

/-- Steps of a transform engine. -/
def Obligations.TransformSteps : Prop :=
  ∀ (s : State) (u : Fin 8) (i : Instr) (op : Nat) (j : EJob), s.dev.clocked = true → (i, op) ∈ xfuOpRows u false →
    (s.dev.eng 4 u).run = some j → j.status = none →
    let x := parseXfu j.bytes
    let work := s.dev.xfuWork u x j.step
    (x.op ≠ op → s.goes i s.dev)
    ∧ (∀ e : Nat × Option Nat, x.op = op → work.2 = .error e → ∃ d' : Dev, s.goes i d' ∧ d'.mem = work.1.mem
        ∧ (d'.eng 4 u).run.map (fun j => j.status) = some (some e))
    ∧ (∀ o : XOut, x.op = op → work.2 = .ok o →
        let w := work.1.writeMany (.xfu u) o.writes
        w.2 = none → ∃ d' : Dev, s.goes i d' ∧ d'.mem = w.1.mem ∧ d'.SteppedTo 4 u (j.step + 1) (decide (j.step + 1 = x.steps)))
    ∧ (∀ i' : Instr, (i', op) ∈ xfuOpRows u true → x.op = op → ∃ d' : Dev, s.goes i' d' ∧ d'.mem = s.dev.mem
        ∧ (d'.eng 4 u).run.map (fun j => j.status) = some (some (0x15, none)))

namespace Sys2Proof.Machine

/-- The rows of the codec with their FN (R224). -/
def codecOpRows (f : Bool) : List (Instr × Nat) :=
  [(.polarEncode f, 0), (.polarDecode f, 1), (.reedMullerEncode f, 2), (.reedMullerDecode f, 3), (.convolutionalEncode f, 4),
   (.convolutionalDecode f, 5), (.smallBlockEncode f, 6), (.smallBlockDecode f, 7)]

end Sys2Proof.Machine

/-- Steps of the coding units. -/
def Obligations.CodingSteps : Prop :=
  ∀ (s : State), s.dev.clocked = true →
    (∀ (u : Fin 4) (turbo fault : Bool) (j : EJob), (s.dev.eng 2 u).run = some j → j.status = none →
      let f := parseFec j.bytes
      let i : Instr := if turbo then .turboEncode u fault else .ldpcEncode u fault
      let b0 := f.ibit + ((List.range j.step).map f.kin).sum
      let n := f.kin j.step
      let read := s.dev.busRead (.encoder u) (f.src + b0 / 8) (ceilDiv (b0 % 8 + n) 8)
      (f.code ≠ (if turbo then 1 else 0) → s.goes i s.dev)
      ∧ (f.code = (if turbo then 1 else 0) → fault = true → s.goes i (s.dev.setRun 2 u { j with status := some (0x15, none) }))
      ∧ (∀ bs : List Byte, f.code = (if turbo then 1 else 0) → fault = false → n ≠ 0 → read.2 = .ok bs →
          let coded := read.1.encodeBits f j.step (((bitsOf bs).drop (b0 % 8)).take n)
          let out := if f.scr then xorBits coded.2 (goldSeq f.cinit (f.soff + f.eBefore j.step) (f.e j.step)) else coded.2
          let w := coded.1.writeBits (.encoder u) f.out (f.obit + f.eBefore j.step) out
          w.2 = none → ∃ d' : Dev, s.goes i d' ∧ d'.mem = w.1.mem ∧ d'.SteppedTo 2 u (j.step + 1) (decide (j.step + 1 = f.ncb))))
    ∧ (∀ (u : Fin 12) (turbo fault : Bool) (j : EJob), (s.dev.eng 1 u).run = some j → j.status = none →
      let f := parseFec j.bytes
      let i : Instr := if turbo then .turboDecode u fault else .ldpcDecode u fault
      let r := j.step
      let read := s.dev.busRead (.decoder u) (f.src + f.eBefore r) (f.e r)
      let late := f.late = true ∧ f.deadline ≤ s.dev.now
      (f.code ≠ (if turbo then 1 else 0) → s.goes i s.dev)
      ∧ (f.code = (if turbo then 1 else 0) → late → s.goes i (s.dev.fecSkip u f j r)
          ∧ (f.result = 0 → (s.dev.fecSkip u f j r).eng 1 u = { s.dev.eng 1 u with run := some { j with status := some (0x22, none) } }))
      ∧ (∀ bs : List Byte, f.code = (if turbo then 1 else 0) → ¬ late → fault = false → f.comb = false → f.store = 0 →
          f.result = 0 → read.2 = .ok bs →
          let l := bs.map llrOf
          let l := if f.scr then descramble (goldSeq f.cinit (f.soff + f.eBefore r) (f.e r)) l else l
          let l := if turbo then l else bitDeinterleave (qmOrder f.qm) 0 l
          let pos := f.positions r
          let received := (List.range f.ncbuf).filter (fun k => pos.contains k)
          let acc := combine f.ncbuf {} (accumulate f.ncbuf pos l)
          let d1 := read.1.bumpBy (engCnt 1 u 8) 0
          let got := if turbo then d1.turboDecode f r acc received j.cap else d1.ldpcDecode f acc received j.cap
          let w := got.1.writeMany (.decoder u) [(f.out + r * f.ostride, bitsBytes got.2.bits)]
          w.2 = none → ∃ d' : Dev, s.goes i d' ∧ d'.mem = w.1.mem ∧ d'.SteppedTo 1 u (r + 1) (decide (r + 1 = f.ncb))))
    ∧ (∀ (i : Instr) (fn : Nat) (fault : Bool) (j : EJob), (i, fn) ∈ codecOpRows fault → (s.dev.eng 3 0).run = some j → j.status = none →
      let k := parseCodec j.bytes
      let read := s.dev.busRead (.encoder 4) k.src (if fn % 2 = 1 then k.e else ceilDiv k.a 8)
      (k.fn ≠ fn → s.goes i s.dev)
      ∧ (k.fn = fn → fault = true → s.goes i (s.dev.setRun 3 0 { j with status := some (0x15, none) }))
      ∧ (∀ (bs : List Byte) (y : List Bool), k.fn = fn → fn % 2 = 0 → fault = false → read.2 = .ok bs →
          k.coded ((bitsOf bs).take k.a) = some y →
          let w := read.1.writeMany (.encoder 4) [(k.out, bitsBytes y)]
          w.2 = none → ∃ d' : Dev, s.goes i d' ∧ d'.mem = w.1.mem ∧ d'.SteppedTo 3 0 1 true)
      ∧ (∀ bs : List Byte, k.fn = fn → fn % 2 = 1 → fault = false → read.2 = .ok bs →
          let got := read.1.codecDecode k (bs.map llrOf)
          let w := got.1.writeMany (.encoder 4) [(k.out, bitsBytes got.2.1)]
          w.2 = none → ∃ d' : Dev, s.goes i d' ∧ d'.mem = w.1.mem ∧ d'.SteppedTo 3 0 1 true))

namespace Sys2Proof.Machine

/-- Completion commands with the class and number of their engine. -/
def completionRows : List (Instr × Nat × Nat) :=
  (List.finRange 12).flatMap (fun u => [(Instr.beamCompletion u, 0, u.val), (.codingCompletion false u, 1, u.val)])
    ++ (List.finRange 4).map (fun u => (.codingCompletion true ⟨u.val, by omega⟩, 2, u.val))
    ++ (.codecCompletion, 3, 0) :: (List.finRange 8).map (fun u => (.transformCompletion u, 4, u.val))

/-- ABORT commands with the class and number of their engine, but for the generators. -/
def abortRows : List (Instr × Nat × Nat) :=
  (List.finRange 12).map (fun u => (Instr.benAbort u, 0, u.val))
    ++ (List.finRange 17).map (fun f => (.fecAbort f, fecClass f.val, fecNum f.val))
    ++ (List.finRange 8).map (fun u => (.xfuAbort u, 4, u.val))

/-- ENABLE commands with the class and number of their engine, but for the wake unit. -/
def enableRows (on : Bool) : List (Instr × Nat × Nat) :=
  (List.finRange 12).map (fun u => (Instr.benEnable u on, 0, u.val))
    ++ (List.finRange 17).map (fun f => (.fecEnable f on, fecClass f.val, fecNum f.val))
    ++ (List.finRange 8).map (fun u => (.xfuEnable u on, 4, u.val))

end Sys2Proof.Machine

/-- Completions, ABORT and ENABLE of the engines of classes 0 to 4. -/
def Obligations.EngineCompletions : Prop :=
  ∀ (s : State), s.dev.clocked = true →
    (∀ (i : Instr) (cls u : Nat), (i, cls, u) ∈ completionRows →
      let e := s.dev.eng cls u
      ((∀ j : EJob, e.run = some j → j.status = none) → s.goes i s.dev)
      ∧ (∀ (j : EJob) (st : Nat) (a : Option Nat), e.run = some j → j.status = some (st, a) → ∃ d' : Dev, s.goes i d'
          ∧ (d'.eng cls u).held = none
          ∧ (d'.eng cls u).run.isSome = e.held.isSome
          ∧ (∀ h : EJob, e.held = some h → (d'.eng cls u).run.map (fun x => (x.bytes, x.smilda, x.step, x.status)) = some (h.bytes, h.smilda, h.step, h.status))
          ∧ (∀ k : Nat, j.smilda = some k → (cls = 4 → (parseXfu j.bytes).op ≠ 3) → (cls = 3 → j.aborting = false) →
              ∃ word : Nat, d'.smd.cpls = s.dev.smd.cpls ++ [⟨cls, u, k, word, st⟩])))
    ∧ (∀ (i : Instr) (cls u : Nat), (i, cls, u) ∈ abortRows →
      let d := s.dev.wakeFor (engBase cls u)
      let e := d.eng cls u
      (e.run = none → s.goes i d)
      ∧ (∀ j : EJob, e.run = some j → j.status = none → cls ≠ 3 →
          s.goes i (d.setEng cls u { e with run := some { j with status := some (0x21, none) } }))
      ∧ (∀ j : EJob, e.run = some j → j.status = none → cls = 3 →
          s.goes i (d.setEng cls u { e with run := some { j with aborting := true } }))
      ∧ (∀ j : EJob, e.run = some j → j.status.isSome = true → ∃ d' : Dev, s.goes i d' ∧ d' = { d with regs := d'.regs }
          ∧ bit (d'.regN (engBase cls u + 0x10)) 2 = true))
    ∧ (∀ (i : Instr) (cls u : Nat) (on : Bool), (i, cls, u) ∈ enableRows on →
      s.goes i ((s.dev.wakeFor (engBase cls u)).setReg (engBase cls u + 4) (if on then 1 else 0)))

/-- The wake and burst unit. -/
def Obligations.WakeAndBurst : Prop :=
  ∀ (s : State), s.dev.clocked = true →
    let d := s.dev
    (∀ (g : Fin 4) (c : Fin 12) (i : Instr) (op : Nat) (j : EJob),
      (i, op) ∈ [(Instr.frame g c false, 1), (.frameAndCwTail g c false, 2), (.cwOnly g c false, 3)] →
      d.genJob g c = some j → j.status = none →
      let w := parseWg j.bytes
      let n := w.tm.nth j.step
      let t := w.tm.start n
      let early := d.now + 1000 * (d.regN (wbuGBase g + 0x24) % 65536) < t
      let late := t < d.now + 1000 * (d.regN (wbuGBase g + 0x28) % 65536)
      let load := d.genLoad g w j
      (w.op ≠ op ∨ early → s.goes i d)
      ∧ (w.op = op → ¬ early → late → ∃ d' : Dev, s.goes i d' ∧ (d'.genJob g c).map (fun x => x.status) = some (some (0x22, none)))
      ∧ (∀ j1 : EJob, w.op = op → ¬ early → ¬ late → load.2 = .ok j1 →
          let x := w.spectrum (w.samples j1.bins j1.step)
          let wr := load.1.writeMany (.wake g) ((List.range w.nant).map (fun a =>
            (w.out + a * w.sa + n % w.nbuf * w.ss + 4 * w.k0, (antennaBytes x (Tab.get (fun _ => 0) j1.gstat a)).1)))
          wr.2 = none → ∃ (d' : Dev) (j2 : EJob), s.goes i d' ∧ d'.mem = wr.1.mem ∧ d'.genJob g c = some j2
            ∧ j2.step = j1.step + 1 ∧ (j2.status.isSome = true ↔ j1.step + 1 = w.total j1.bins.length)))
    ∧ (∀ g : Fin 4,
      ((∀ k : Nat, k < 12 → ∀ j : EJob, d.genJob g k = some j → j.status = none) → s.goes (.generatorCompletion g) d)
      ∧ ((∃ (k : Nat) (j : EJob), k < 12 ∧ d.genJob g k = some j ∧ j.status.isSome = true) →
        ∃ (d' : Dev) (k : Nat) (j : EJob), k < 12 ∧ d.genJob g k = some j ∧ j.status.isSome = true
          ∧ (∀ (m : Nat) (x : EJob), m < 12 → d.genJob g m = some x → x.status.isSome = true → j.cap ≤ x.cap)
          ∧ s.goes (.generatorCompletion g) d' ∧ d'.genJob g k = none ∧ ∀ m : Nat, m ≠ k → d'.genJob g m = d.genJob g m))
    ∧ (∀ g : Fin 4, Tab.wf (fun _ => none) (d.eng 5 g).ctx = true → ∃ d' : Dev, s.goes (.wbuGAbort g) d' ∧ ∀ (k : Nat) (j : EJob), d.genJob g k = some j →
        (d'.genJob g k).map (fun x => (x.bytes, x.step)) = some (j.bytes, j.step) ∧ (d'.genJob g k).map (fun x => x.status.isSome) = some true)
    ∧ (∀ (g r : Fin 4) (on : Bool),
      let dg := d.wakeFor (wbuGBase g)
      let dr := d.wakeFor (wbuRBase r)
      (dg.profile3 = true → s.goes (.wbuGEnable g on) (dg.setReg (wbuGBase g + 4) (if on then 1 else 0)))
      ∧ (dg.profile3 = false → s.goes (.wbuGEnable g on) dg)
      ∧ (dr.profile3 = true → s.goes (.wbuREnable r on) (dr.setReg (wbuRBase r + 4) (if on then 1 else 0)))
      ∧ (dr.profile3 = false → s.goes (.wbuREnable r on) dr))
    ∧ (∀ (r : Fin 4) (c : Fin 12) (l : Listen) (n : Nat), d.listen r c = some l → (parseListen l.bytes).tm.nextActive l.sym = some n →
      let ld := parseListen l.bytes
      let runs := (List.range ld.nant).map (fun a => (ld.inp + a * ld.sa + n % ld.nbuf * ld.ss + 4 * ld.k0, 4 * ld.m))
      (d.now < ld.tm.start (n + 1) + d.readLag r → s.goes (.symbolRead r c false) d)
      ∧ (ld.tm.start (n + 1) + d.readLag r ≤ d.now → (d.readMany (.wake (4 + r)) runs).2.2 = none →
          ∃ d' : Dev, s.goes (.symbolRead r c false) d' ∧ (d'.listen r c).all (fun x => decide (x.sym = n + 1)) = true))
    ∧ (∀ (r : Fin 4) (v : BitVec 32), ∃ d' : Dev, s.goes (.wbuRStop r v) d' ∧ ∀ (k : Nat) (l : Listen), k < 12 →
        d.listen r k = some l →
        (v.toNat.testBit 16 = true ∨ leNat ((l.bytes.drop 12).take 2) = v.toNat % 65536 →
          (d'.listen r k).all (fun x => x.ended.isSome) = true ∧ (l.cur = none → l.ended = none → d'.listen r k = none))
        ∧ (v.toNat.testBit 16 = false → leNat ((l.bytes.drop 12).take 2) ≠ v.toNat % 65536 → d'.listen r k = some l))

/-! ## The fronthaul -/

namespace Sys2Proof.Machine

/-- Launch queue `k` of port `p`, which takes the queue `q`, has a head `b` that its port may serve now (R387, R391). -/
def Dev.servable (d : Dev) (p k q : Nat) (b : List Byte) : Prop :=
  k < 64 ∧ d.lq k = some (q, p) ∧ d.fhHead k = some b ∧ d.headDue b = true
    ∧ (lTime b = 0 ∨ launchOk b = false ∨ d.time.locked = true ∨ (d.port p).up = false)

/-- The time at which a head takes its turn: 0 for an untimed or bad one (R387). -/
def turnOf (b : List Byte) : Nat := if launchOk b then lTime b else 0

/-- Frames, arrivals, links and rules. -/
def FramesArriveRule : Prop :=
  ∀ (s : State), s.dev.clocked = true →
    let d := s.dev
    (∀ (p : Fin 8) (raw : List Byte) (corr : BitVec 16) (unc : Bool),
      let i : Instr := .frameReceive p raw corr unc
      let body := raw.take (raw.length - 4)
      let good := 64 ≤ raw.length ∧ raw.length ≤ 9216 ∧ raw.drop (raw.length - 4) = fcsOf body
      let runs := (d.port p).up = true ∧ d.fhnOn = true ∧ 1 ≤ d.portMode p ∧ d.portMode p ≤ 5
      let c := ((d.bump (fhnCnt p rxFrames)).bumpBy (fhnCnt p rxBytes) raw.length).bumpBy (fhnCnt p 3) corr.toNat
      let t := (c.rxTime p).2
      let e := c.used
      let held := d.q.held.any (fun h => decide (h.agent = .fronthaul p)) = true
      let kept := ((d.port p).ingress.map (fun x => x.2.length)).sum
      let sec := bit (d.regN (fhnBase + 0x1000 + 0x100 * p)) 3
      let f := parseEth body
      (¬ runs → s.goes i d)
      ∧ (runs → unc = true → s.goes i (c.bump (fhnCnt p rxFecUncorr)))
      ∧ (runs → unc = false → ¬ good → s.goes i (c.bump (fhnCnt p rxFcsErr)))
      ∧ (runs → unc = false → good → held →
          (262144 < kept + raw.length → s.goes i (e.rxDrop p 14))
          ∧ (kept + raw.length ≤ 262144 → s.goes i (e.setPort p { d.port p with ingress := (d.port p).ingress ++ [(t, body)] })))
      ∧ (runs → unc = false → good → ¬ held →
          (f.isPause = true → s.goes i (e.rxDrop p rxFiltered))
          ∧ (f.isPause = false → sec = true → f.etype ≠ 0x888E → (d.port p).secOpen body = none → s.goes i (e.rxDrop p rxMacsecFail))
          ∧ (f.isPause = false → sec = false ∨ f.etype = 0x888E →
              (∀ n : Nat, f.ecpriBad = some n → s.goes i (e.rxDrop p n))
              ∧ (f.ecpriBad = none → f.forSup = true → s.goes i { e with fhn := { e.fhn with toSup := d.fhn.toSup ++ [⟨p, t, body⟩] } })
              ∧ (f.ecpriBad = none → f.forSup = false →
                  ((∀ r : Nat, r < 256 → ruleMatches (d.activeRule r) p f = false) → s.goes i (e.rxDrop p rxUnmatched))
                  ∧ (∀ r : Nat, r < 256 → ruleMatches (d.activeRule r) p f = true →
                      (∀ q : Nat, q < r → ruleMatches (d.activeRule q) p f = false) → s.goes i (e.fhAct p r (d.activeRule r) body f t))))))
    ∧ (∀ p : Fin 8,
      let held := d.q.held.any (fun h => decide (h.agent = .fronthaul p)) = true
      ((held ∨ ∀ a : Arrival, a ∈ d.fhn.arrivals → a.port ≠ p) → s.goes (.arrivalDescriptor p) d)
      ∧ (∀ (l1 l2 : List Arrival) (a : Arrival), ¬ held → d.fhn.arrivals = l1 ++ a :: l2 → a.port = p →
          (∀ x : Arrival, x ∈ l1 → x.port ≠ p) →
          let d1 := { d with fhn := { d.fhn with arrivals := l1 ++ l2 } }
          let r := d1.post (.fronthaul p) true a.queue a.desc none
          let full := (d.queue a.queue).enabled = true ∧ (d.queue a.queue).isFull = true
          (r.2 = .dropped ∧ full → s.goes (.arrivalDescriptor p) (r.1.rxDrop p rxQfull))
          ∧ (¬ (r.2 = .dropped ∧ full) → s.goes (.arrivalDescriptor p) r.1)))
    ∧ (∀ (p : Fin 9) (al lk ft : Bool),
      let old := d.port p
      let new := { old with align := al, lock := lk, fault := ft }
      ∃ d' : Dev, s.goes (.linkChange p al lk ft) d' ∧ d'.port p = new ∧ (∀ q : Nat, q ≠ p.val → d'.port q = d.port q)
        ∧ (p.val ≠ 8 → old.up ≠ new.up → bit (d'.regN (fhnBase + 0x10)) 0 = true)
        ∧ d'.reg64 (fhnCnt p linkDown) =
            (if p.val ≠ 8 ∧ old.up = true ∧ new.up = false then (d.reg64 (fhnCnt p linkDown) + 1) % 2 ^ 64
              else d.reg64 (fhnCnt p linkDown)))
    ∧ ((∃ r : Nat, r < 256 ∧ ruleOk (d.stagedRule r) = false) → s.goes .ruleCommit (d.fhnInt 5))
    ∧ ((∀ r : Nat, r < 256 → ruleOk (d.stagedRule r) = true) →
        ∃ d' : Dev, s.goes .ruleCommit d' ∧ d' = { d with regs := d'.regs } ∧ (∀ r : Nat, r < 256 → d'.activeRule r = d.stagedRule r)
          ∧ ∀ a : Nat, a < fhnBase + 0x22000 ∨ fhnBase + 0x24000 ≤ a → d'.reg a = d.reg a)

/-- Launches, gating, associations and the enable. -/
def LaunchesLeaveRule : Prop :=
  ∀ (s : State), s.dev.clocked = true →
    let d := s.dev
    (∀ p : Fin 8,
      let i : Instr := .launch p
      (d.fhnOn = false ∨ (∀ (k q : Nat) (b : List Byte), ¬ d.servable p k q b) → s.goes i d)
      ∧ (∀ (k0 q0 : Nat) (b0 : List Byte), d.fhnOn = true → d.servable p k0 q0 b0 →
          ∃ (k q : Nat) (b : List Byte), d.servable p k q b
            ∧ (∀ (k' q' : Nat) (b' : List Byte), d.servable p k' q' b' → turnOf b < turnOf b' ∨ (turnOf b = turnOf b' ∧ q ≤ q'))
            ∧ (let e := d.setHead k none
               let late := lTime b ≠ 0 ∧ lTime b + d.regN (fhnBase + 0x20) < d.now
               let f := e.launchFrame p b
               let x := f.1.fhProtect p (bit (leAt b 9 1) 0) f.2
               let send := fun (d1 : Dev) (bs : List Byte) =>
                 let w := padFrame bs ++ fcsOf (padFrame bs)
                 let g := ((d1.used).bump (fhnCnt p txFrames)).bumpBy (fhnCnt p txBytes) w.length
                 { g with fhn := { g.fhn with sent := d1.fhn.sent ++ [⟨p, (d1.txTime p (lTime b)).2, w⟩] } }
               (launchOk b = false → s.goes i (e.txDrop p txBad))
               ∧ (launchOk b = true → (d.port p).up = false → s.goes i (e.txDrop p txLinkdown))
               ∧ (launchOk b = true → (d.port p).up = true → late → s.goes i (e.txDrop p txLate))
               ∧ (launchOk b = true → (d.port p).up = true → ¬ late →
                   (x.2 = none → s.goes i (x.1.txDrop p txPnExhausted))
                   ∧ (∀ bs : List Byte, x.2 = some bs → bs.length ≤ 9212 → s.goes i (send x.1 bs))
                   ∧ (∀ bs : List Byte, x.2 = some bs → 9212 < bs.length → s.goes i (x.1.txDrop p txBad))
                   ∧ (bit (f.1.regN (fhnBase + 0x1000 + 0x100 * p)) 3 = false → x = (f.1, some f.2))
                   ∧ (bit (f.1.regN (fhnBase + 0x1000 + 0x100 * p)) 3 = true →
                       bit (leAt b 9 1) 0 = false → Tab.get (fun _ => none) (f.1.port p).txSas (f.1.port p).txAn = none → x.2 = none)))))
    ∧ (d.time.locked = true → s.goes .txGated d)
    ∧ (d.time.locked = false →
        let gone := fun (k p : Nat) (b : List Byte) => (d.lq k).map (fun x => x.2) = some p ∧ d.fhHead k = some b ∧ launchOk b = true
          ∧ lTime b ≠ 0 ∧ lTime b + d.regN (fhnBase + 0x20) < d.now
        ∃ d' : Dev, s.goes .txGated d' ∧ (∀ k : Nat, k < 64 → ((∃ (p : Nat) (b : List Byte), gone k p b) → d'.fhHead k = none)
          ∧ ((∀ (p : Nat) (b : List Byte), ¬ gone k p b) → d'.fhHead k = d.fhHead k)) ∧ d'.fhn.sent = d.fhn.sent)
    ∧ (∀ (p : Fin 8) (tx xpn clear : Bool) (sci : BitVec 64) (win ssci : BitVec 32) (an : Fin 4) (key : BitVec 256) (salt : BitVec 96),
      let i : Instr := .saInstall p tx sci win an key xpn ssci salt clear
      let sa : Sa := { key := leBytes 32 key.toNat, xpn := xpn, ssci := ssci, salt := leBytes 12 salt.toNat, pn := 1 }
      let v := d.port p
      (tx = true → ∃ d' : Dev, s.goes i d' ∧ (d'.port p).txSci = sci ∧ (d'.port p).txAn = an.val ∧ (d'.port p).clear = clear
          ∧ Tab.get (fun _ => none) (d'.port p).txSas an.val = some sa ∧ (d'.port p).rxScs = v.rxScs)
      ∧ (tx = false → (∃ c : RxSc, c ∈ v.rxScs ∧ c.sci = sci) → ∃ d' : Dev, s.goes i d' ∧ (d'.port p).rxScs.length = v.rxScs.length
          ∧ (∀ c : RxSc, c ∈ (d'.port p).rxScs → c.sci = sci → c.window = win.toNat ∧ Tab.get (fun _ => none) c.sas an.val = some sa)
          ∧ (∀ c : RxSc, c.sci ≠ sci → (c ∈ (d'.port p).rxScs ↔ c ∈ v.rxScs)))
      ∧ (tx = false → (∀ c : RxSc, c ∈ v.rxScs → c.sci ≠ sci) → v.rxScs.length < 8 → ∃ (d' : Dev) (c : RxSc), s.goes i d'
          ∧ (d'.port p).rxScs = v.rxScs ++ [c] ∧ c.sci = sci ∧ c.window = win.toNat
          ∧ (∀ n : Nat, Tab.get (fun _ => none) c.sas n = if n = an.val then some sa else none))
      ∧ (tx = false → (∀ c : RxSc, c ∈ v.rxScs → c.sci ≠ sci) → 8 ≤ v.rxScs.length → s.goes i d))
    ∧ (∀ on : Bool,
      let e := d.setRegN (fhnBase + 4) (b2n on)
      (on = true → d.fhnOn = false → s.goes (.fhnEnable on) { e with fhn := { d.fhn with seqRef := [], seqTx := [] } })
      ∧ (on = false ∨ d.fhnOn = true → s.goes (.fhnEnable on) e))

end Sys2Proof.Machine

/-- Received frames, arrivals, links, rules, launches, gating and associations act as the fronthaul's rules say. -/
def Obligations.FronthaulFrames : Prop := FramesArriveRule ∧ LaunchesLeaveRule

/-! ## Time -/

namespace Sys2Proof.Machine

/-- Measurements, steps and time-outs. -/
def MeasurementsSteerRule : Prop :=
  ∀ (s : State), s.dev.pwr.mode ≠ 0 →
    let d := s.dev
    let t := d.time
    (∀ (i : Instr) (src tau gen : Nat) (theta : Int) (e : Dev),
      ((∃ v : BitVec 32, i = .tmuMeasCtl v ∧ e = d ∧ src = 0 ∧ theta = toSigned 64 t.measOfs ∧ tau = fld v.toNat 23 0 ∧ gen = fld v.toNat 31 28)
        ∨ (∃ sub : BitVec 8, i = .ppsIn sub ∧ d.pins.b1 = true ∧ src = 1 ∧ tau = 1000000 ∧ gen = t.stepGen
            ∧ (let q := (t.fix >>> 30) + sub.toNat
               let x := (q : Int) - 4 * toSigned 32 (d.tmuReg 0xB0)
               e = { d with time := { t with ppsTs := q % 2 ^ 64, lastPpsIn := t.raw, ppsMissed := false } }
                 ∧ theta = (x - roundSecond x) * 16384))) →
      let mag := theta.natAbs
      let on := b2n (bit (d.tmuReg 4) 1) = src
      let enabled := on ∧ bit (d.tmuReg 4) 0 = true
      let fresh := enabled ∧ gen = t.stepGen ∧ t.refclk = true
      let jump := t.state = .freeRun ∨ (t.state = .coarse ∧ mag ≤ d.tmuReg 0x84 * 65536)
      (¬ on → s.goes i e)
      ∧ (on → bit (d.tmuReg 4) 0 = false → s.goes i (e.tmuCount 0))
      ∧ (enabled → gen ≠ t.stepGen ∨ t.refclk = false → s.goes i ((e.tmuCount 0).tmuCount 2))
      ∧ (fresh → jump → ∃ d' : Dev, s.goes i d' ∧ d'.time.state = .acquiring ∧ d'.time.lastMeas = t.raw
          ∧ (d'.time.base : Int) = ((t.base : Int) - theta * 65536) % 2 ^ 96 ∧ d'.time.stepGen = (t.stepGen + 1) % 16
          ∧ d'.time.integ = t.integ ∧ d'.time.inc = t.inc ∧ bit (d'.regN (tmuBase + 0x10)) 2 = true)
      ∧ (fresh → ¬ jump → d.tmuReg 0x80 * 65536 < mag → ∃ d' : Dev, s.goes i d' ∧ d'.time.stepPending = true
          ∧ d'.time.stepHeld = roundRat ((theta : Rat) / 65536) ∧ d'.time.integ = t.integ ∧ d'.time.fix % 2 ^ 96 = t.fix
          ∧ bit (d'.regN (tmuBase + 0x10)) 1 = true)
      ∧ (fresh → ¬ jump → mag ≤ d.tmuReg 0x80 * 65536 →
          let m : Rat := (d.tmuReg 0x90 : Rat)
          let r : Rat := ((2 * theta : Int) : Rat) / 65536 * 1000000 / (clampTau2 tau : Rat)
          let integ := clampRat (t.integ + (d.tmuReg 0x8C : Rat) / 65536 * r) m
          let y := clampRat ((d.tmuReg 0x88 : Rat) / 65536 * r + integ) m
          ∃ d' : Dev, s.goes i d' ∧ d'.time.stepPending = false ∧ d'.time.integ = integ ∧ d'.time.fix % 2 ^ 96 = t.fix
            ∧ (d'.time.freq = if t.state = .locked ∧ d'.time.state = .holdover then integ else y)
            ∧ d'.time.inc = incOf d.fref d'.time.freq
            ∧ (t.state = .acquiring ∨ t.state = .holdover ∨ t.state = .expired →
                d'.time.state = (if mag ≤ d.tmuReg 0x94 * 65536 ∧ d.lockCount ≤ t.lockRun + 1 then .locked else t.state))
            ∧ (t.state = .locked →
                d'.time.state = (if d.tmuReg 0x98 * 65536 < mag ∧ d.unlockCount ≤ t.unlockRun + 1 then .holdover else .locked))
            ∧ (t.state = .coarse → d'.time.state = .coarse)))
    ∧ (∀ sub : BitVec 8, d.pins.b1 = false → s.goes (.ppsIn sub) d)
    ∧ (t.stepPending = false → s.goes .acceptStep d)
    ∧ (t.stepPending = true → ∃ d' : Dev, s.goes .acceptStep d' ∧ d'.time.stepPending = false ∧ d'.time.state = .acquiring
        ∧ (d'.time.base : Int) = ((t.base : Int) - t.stepHeld * 2 ^ 32) % 2 ^ 96 ∧ d'.time.stepGen = (t.stepGen + 1) % 16)
    ∧ (let due := t.state = .locked ∧ d.tmuReg 0xA0 ≤ (t.raw - t.lastMeas) * 1000 / d.fref
       (¬ due → s.goes .measTimeout d)
       ∧ (due → ∃ d' : Dev, s.goes .measTimeout d' ∧ d'.time.state = .holdover ∧ d'.time.freq = t.integ ∧ d'.time.holdRaw = 0))
    ∧ (let due := t.state = .holdover ∧ d.tmuReg 0xA4 * d.fref ≤ t.holdRaw
       (¬ due → s.goes .holdLimitExpiry d)
       ∧ (due → ∃ d' : Dev, s.goes .holdLimitExpiry d' ∧ d'.time.state = .expired ∧ d'.time.freq = t.integ))
    ∧ (let due := t.ppsMissed = false ∧ 3 * d.fref ≤ 2 * (t.raw - t.lastPpsIn)
       (¬ due → s.goes .ppsInMissing d)
       ∧ (due → s.goes .ppsInMissing ((({ d with time := { t with ppsMissed := true } }).tmuInt 4).tmuCount 7)))

/-- REFCLK, RTC, PPS_OUT and TDD outputs. -/
def ReferencesAndOutputsRule : Prop :=
  ∀ (s : State), s.dev.pwr.mode ≠ 0 →
    let d := s.dev
    let t := d.time
    (t.refclk = false → s.goes .refclkLoss d)
    ∧ (t.refclk = true → ∃ d' : Dev, s.goes .refclkLoss d' ∧ d'.pwr = { d.pwr with refGone := true }
        ∧ d'.time = { t with refclk := false, lossC := t.raw, lossR := (t.rtc + 1) % 2 ^ 48 } ∧ bit (d'.regN (tmuBase + 0x10)) 3 = true)
    ∧ (t.refclk = true → s.goes .refclkReturn d)
    ∧ (t.refclk = false →
        let n := (t.rtc + 1 + 2 ^ 48 - t.lossR) % 2 ^ 48
        let raw := (t.lossC + (bridgeCount d.fref t.rtcRate n).toNat) % 2 ^ 64
        t.lossR < 2 ^ 48 → t.rtc + 1 < 2 ^ 48 →
        ∃ d' : Dev, s.goes .refclkReturn d' ∧ d'.time.refclk = true ∧ d'.time.raw = raw ∧ d'.time.rtc = t.rtc + 1
          ∧ d'.time.state = .coarse ∧ d'.time.freq = t.integ ∧ d'.time.fix = ({ t with raw := raw } : TimeState).fix)
    ∧ (∀ cycles : BitVec 40,
        (cycles = 0 ∨ t.refclk = false → s.goes (.rtcRateWindow cycles) d)
        ∧ (cycles ≠ 0 → t.refclk = true →
            let ratio : Rat := ((2 ^ 20 * d.fref : Nat) : Rat) / ((32768 * cycles.toNat : Nat) : Rat)
            s.goes (.rtcRateWindow cycles) { d with time := { t with
              rtcRate := satS 32 (roundRat ((ratio - 1) * ((10 ^ 9 * 256 : Nat) : Rat)))
              rtcValid := true } }))
    ∧ (let at' := bit (d.tmuReg 0xAC) 24 = true ∧ (t.state = .locked ∨ t.state = .holdover) ∧ d.now % 10 ^ 9 < d.tickNs
       (at' → s.goes .ppsOut { d with time := { t with ppsHigh := true, ppsRaw := t.raw } }) ∧ (¬ at' → s.goes .ppsOut d))
    ∧ (let done := t.ppsHigh = true ∧ 1000 * (d.tmuReg 0xAC % 2 ^ 20) ≤ (t.raw - t.ppsRaw) * 10 ^ 9 / d.fref
       (done → s.goes .ppsOutEnd { d with time := { t with ppsHigh := false } }) ∧ (¬ done → s.goes .ppsOutEnd d))
    ∧ (let may := bit (d.tmuReg 4) 2 = true ∧ (d.pwr.mode = 4 ∨ d.pwr.mode = 5) ∧ (t.state = .locked ∨ t.state = .holdover)
         ∧ 0 < t.tddAct.period
       let safe := BitVec.ofNat 16 (d.tmuReg 0x208)
       ∃ d' : Dev, s.goes .tddEvent d' ∧ d' = { d with time := { t with tddOut := d'.time.tddOut, tddFollow := d'.time.tddFollow } }
         ∧ (¬ may → d'.time.tddOut = safe ∧ d'.time.tddFollow = 0)
         ∧ (may → ∀ b : Nat, b < 16 →
             let place := ((d.sinceFrame0 + t.tddAct.adv.getD b 0) % (t.tddAct.period : Int)).toNat
             let on := t.tddFollow.getLsbD b || decide (place < d.tickNs)
             d'.time.tddFollow.getLsbD b = on
               ∧ d'.time.tddOut.getLsbD b = if on then (t.tddAct.valueAt place).getLsbD b else safe.getLsbD b))
    ∧ (t.tddArmed.isSome = true → s.goes .tddCommit d)
    ∧ (t.tddArmed = none → d.tddStaged.ok = false → s.goes .tddCommit (d.tmuInt 5))
    ∧ (t.tddArmed = none → d.tddStaged.ok = true → ∃ f : Int, f % 2 = 0 ∧ d.frame < f ∧ f ≤ d.frame + 2
        ∧ s.goes .tddCommit { d with time := { t with tddArmed := some d.tddStaged, tddCommit := f } })
    ∧ (t.tddArmed = none ∨ d.frame < t.tddCommit → s.goes .tddTakeEffect d)
    ∧ (∀ x : TddTab, t.tddArmed = some x → t.tddCommit ≤ d.frame → ∃ d' : Dev, s.goes .tddTakeEffect d' ∧ d'.time.tddArmed = none
        ∧ d'.time.tddAct = x ∧ ∀ n : Nat, n < 128 → d'.reg64 (tmuBase + 0x1400 + 8 * n) = (x.evs.getD n 0).toNat)

end Sys2Proof.Machine

/-- Measurements steer the time, a lost REFCLK is bridged, and PPS_OUT and TDD_CTL follow the time. -/
def Obligations.DeviceTime : Prop := MeasurementsSteerRule ∧ ReferencesAndOutputsRule

/-! ## The cipher engines -/

namespace Sys2Proof.Machine

/-- The operation commands with the OP that each runs (R434). -/
def cipherOpRows (u : Fin 12) (fault : Bool) : List (Instr × Nat) :=
  [(.aesCtr u fault, 1), (.aesGcm u fault, 2), (.aesCmac u fault, 3), (.nea1 u fault, 4), (.nia1 u fault, 5), (.nea2 u fault, 6),
    (.nia2 u fault, 7), (.nea3 u fault, 8), (.nia3 u fault, 9)]

/-- The status that the checks of R440 give a page's job, the first that fails; none where all pass up to the latch. -/
def Dev.pageChecks (d : Dev) (u : Nat) (bs : List Byte) : Option Nat :=
  let c := parseCph bs
  let k := d.keySlot c.slot
  if !cphDescOk bs || decide (c.page ≠ u) then some 0x10
  else if !d.cphExtents c then some 0x34
  else if d.slotOwner c.slot ≠ some u then some 0x31
  else if k.st = 0 then some 0x30
  else if k.st = 2 && c.ivsrc then some 0x33
  else if !c.keyOk k.ktype || (c.ivsrc && !k.hwctr) then some 0x31
  else none

end Sys2Proof.Machine

/-- Submissions, key slots and taking a page's job. -/
def Obligations.KeysAndSubmissions : Prop :=
  ∀ (s : State), s.dev.clocked = true →
    let d := s.dev
    (∀ (ag : Agent) (u : Fin 64) (a : BitVec 40) (kt : Fin 4) (hw : Bool) (i : Instr), ag.ok = true →
      i ∈ [Instr.cphSubmit ag u a, .keyLoad ag u kt hw, .zeroise ag u] → d.cphAdmits ag u = false →
      s.goes i (d.setCpage u { d.cpage u with denied := ((d.cpage u).denied + 1) % 2 ^ 32 }))
    ∧ (∀ (ag : Agent) (u : Fin 64) (a : BitVec 40), ag.ok = true → d.cphAdmits ag u = true →
      ((d.cpage u).fifo.length < 16 → s.goes (.cphSubmit ag u a) (d.setCpage u { d.cpage u with fifo := (d.cpage u).fifo ++ [a.toNat] }))
      ∧ (16 ≤ (d.cpage u).fifo.length → s.goes (.cphSubmit ag u a) ((d.cphInt u 2).bump (cphCnt u 6))))
    ∧ (∀ (ag : Agent) (u : Fin 64) (kt : Fin 4) (hw : Bool), ag.ok = true → d.cphAdmits ag u = true →
      let b := cphBase u
      let k := d.regN (b + 0x30)
      let start := d.reg64 (b + 0x40)
      let limit := d.reg64 (b + 0x48)
      let bad := limit ≤ start ∨ (hw = true ∧ 2 ≤ kt.val ∧ 2 ^ 32 < limit)
      (d.slotOwner k ≠ some u.val → s.goes (.keyLoad ag u kt hw) d ∧ s.goes (.zeroise ag u) d)
      ∧ (d.slotOwner k = some u.val →
          (bad → s.goes (.keyLoad ag u kt hw) (d.setCpage u { d.cpage u with refused := true }))
          ∧ (¬ bad → ∃ d' : Dev, s.goes (.keyLoad ag u kt hw) d' ∧ (d'.cpage u).refused = false ∧ d'.cph.engs = d.cph.engs
              ∧ d'.keySlot k = { st := 1, ktype := kt, hwctr := hw, key := d.regBytes (b + 0x80) (if kt.val = 1 then 32 else 16),
                                 fixed := d.reg (b + 0x38), next := BitVec.ofNat 64 start, limit := BitVec.ofNat 64 limit }
              ∧ (∀ n : Nat, n ≠ k → d'.keySlot n = d.keySlot n) ∧ ∀ w : Nat, w < 8 → d'.reg (b + 0x80 + 4 * w) = 0)
          ∧ (∃ d' : Dev, s.goes (.zeroise ag u) d'
              ∧ d'.keySlot k = { d.keySlot k with st := 0, key := zeros (d.keySlot k).key.length, badPar := false }
              ∧ (∀ n : Nat, n ≠ k → d'.keySlot n = d.keySlot n)
              ∧ ∀ e : Nat, e < 12 →
                  (d'.ceng e).run = ((d.ceng e).run.map (fun j =>
                    if j.slot = some k ∧ j.status.all (fun x => decide (x.1 ≤ 1)) = true
                    then { j with status := some (0x32, none) } else j)))))
    ∧ (∀ e : Fin 12,
      let v := d.ceng e
      let p := d.power (pwrEng (cphCls e) (cphNum e))
      let q := d.par 0x70 2 e
      let ready := d.cphOn = true ∧ v.stopped = false ∧ v.run = none ∧ (p = .active ∨ p = .nap)
      (¬ ready → s.goes (.cipherTake e) d)
      ∧ (∀ d1 : Dev, ready → Dev.cphEntryGo ((d.queue q).occ + 1) d e q = (d1, none) →
          ((∀ u : Nat, u < 64 → d1.cphOldest u e = none) → s.goes (.cipherTake e) d1)
          ∧ (∀ (n k : Nat), n < 64 → d1.cphOldest ((v.lastPage + 1 + n) % 64) e = some k →
              (∀ m : Nat, m < n → d1.cphOldest ((v.lastPage + 1 + m) % 64) e = none) →
              let u := (v.lastPage + 1 + n) % 64
              let a := (d1.cpage u).fifo.getD k 0
              let d2 := (d1.setCpage u { d1.cpage u with fifo := (d1.cpage u).fifo.eraseIdx k }).setCeng e { d1.ceng e with lastPage := u }
              ∃ (d' : Dev) (j : CJob), s.goes (.cipherTake e) d' ∧ d'.ceng e = { d1.ceng e with lastPage := u, run := some j }
                ∧ j.page = some u ∧ (d'.cpage u).fifo = (d1.cpage u).fifo.eraseIdx k
                ∧ (d2.inWindows u a 128 false = false → j.status = some (0x34, none))
                ∧ (d2.inWindows u a 128 false = true → a % 64 ≠ 0 → j.status = some (0x10, none))
                ∧ (∀ bs : List Byte, d2.inWindows u a 128 false = true → a % 64 = 0 → (d2.busRead (.cipher e) a 128).2 = .ok bs →
                    let c := parseCph bs
                    let sl := d2.keySlot c.slot
                    j.bytes = bs
                    ∧ (∀ st : Nat, d2.pageChecks u bs = some st → j.status = some (st, none))
                    ∧ (d2.pageChecks u bs = none → sl.badPar = true → j.status = some (0x37, none) ∧ (d'.keySlot c.slot).st = 0)
                    ∧ (d2.pageChecks u bs = none → sl.badPar = false → j.status = none ∧ j.slot = some c.slot ∧ j.key = sl.key
                        ∧ (c.ivsrc = true → j.ctr = some sl.next.toNat ∧ (d'.keySlot c.slot).next = sl.next + 1
                            ∧ (d'.keySlot c.slot).st = if sl.next + 1 = sl.limit then 2 else sl.st)
                        ∧ (c.ivsrc = false → j.ctr = none))))))

/-- The operations and completions of the cipher engines. -/
def Obligations.CiphersRun : Prop :=
  ∀ (s : State) (e : Fin 12), s.dev.clocked = true →
    let d := s.dev
    (∀ (fault : Bool) (i : Instr) (op : Nat), (i, op) ∈ cipherOpRows e fault →
      ((∀ j : CJob, (d.ceng e).run = some j → j.status.isSome = true ∨ (parseCph j.bytes).op ≠ op) → s.goes i d)
      ∧ (∀ j : CJob, (d.ceng e).run = some j → j.status = none → (parseCph j.bytes).op = op →
          let c := parseCph j.bytes
          let r1 := d.cphRead e c.aadA (if op = 2 then c.aadLen else 0)
          let r2 := r1.1.cphRead e c.inA c.len
          let f := r2.1
          let ends := fun (x : Dev) (y : CJob) => x.setCeng e { x.ceng e with run := some y }
          (fault = true → ∃ (d' : Dev) (j' : CJob), s.goes i d' ∧ (d'.ceng e).run = some j' ∧ (∃ st : Nat × Option Nat, j'.status = some st) ∧ d'.mem = d.mem)
          ∧ (∀ aad text : List Byte, fault = false → r1.2 = .ok aad → r2.2 = .ok text →
              let out := j.crypt c text
              let w := f.busWrite (.cipher e) c.outA out
              (op ∈ [1, 4, 6, 8] ∨ (op = 2 ∧ c.dir = 0) → out ≠ [] → w.2 = .ok →
                s.goes i (ends w.1 { j with status := some (0, none), wrote := out.length, tag := if op = 2 then j.mac c aad out else [] }))
              ∧ (op ∈ [3, 5, 7, 9] → c.dir = 0 → s.goes i (ends f { j with status := some (0, none), tag := j.mac c [] text }))
              ∧ (∀ got : List Byte, op ∈ [3, 5, 7, 9] → c.dir = 1 → (f.cphRead e c.tagA c.tagLen).2 = .ok got →
                  ∃ (d' : Dev) (j' : CJob), s.goes i d' ∧ (d'.ceng e).run = some j' ∧ d'.mem = (f.cphRead e c.tagA c.tagLen).1.mem
                    ∧ j'.status = some (if got = j.mac c [] text then 0 else 1, none) ∧ j'.authFail = (j.authFail || decide (got ≠ j.mac c [] text)))
              ∧ (∀ got : List Byte, op = 2 → c.dir = 1 → j.step = 0 → c.len ≠ 0 → (f.cphRead e c.tagA c.tagLen).2 = .ok got →
                  let full := j.mac { c with tagLen := 16 } aad text
                  let g := (f.cphRead e c.tagA c.tagLen).1
                  (got ≠ full.take c.tagLen → s.goes i (ends g { j with status := some (1, none), authFail := true }))
                  ∧ (got = full.take c.tagLen → e.val < 8 → s.goes i (ends g { j with step := 1, tag := full }))
                  ∧ (got = full.take c.tagLen → 8 ≤ e.val → out ≠ [] → (g.busWrite (.cipher e) c.outA out).2 = .ok →
                      ∃ (d' : Dev) (j' : CJob), s.goes i d' ∧ d'.mem = (g.busWrite (.cipher e) c.outA out).1.mem
                        ∧ (d'.ceng e).run = some j' ∧ j'.status = some (0, none) ∧ j'.wrote = out.length)))))
    ∧ ((∀ j : CJob, (d.ceng e).run = some j → j.status = none) → s.goes (.cipherCompletion e) d)
    ∧ (∀ (j : CJob) (st : Nat) (a : Option Nat), (d.ceng e).run = some j → j.status = some (st, a) →
        let c := parseCph j.bytes
        let t := d.cphTag e j c
        let fin := (t.2.status.getD (0, none)).1
        let wipe := 1 < fin ∧ j.wrote ≠ 0
        let z := if wipe then (t.1.busWrite (.cipher e) c.outA (zeros j.wrote)).1 else t.1
        ∃ d' : Dev, s.goes (.cipherCompletion e) d' ∧ (d'.ceng e).run = none
          ∧ (st ≠ 0 → t = (d, j))
          ∧ (∀ k : Nat, j.smilda = some k → d'.mem = z.mem
              ∧ d'.smd.cpls = z.smd.cpls ++ [⟨cphCls e, cphNum e, k, t.2.word c fin, fin⟩]))

/-! ## Power -/

namespace Sys2Proof.Machine

/-- A command answers a next state in which the device and its lasting part are `y`; the queue and the reply stay. -/
def State.becomes (s : State) (i : Instr) (y : Sys) : Prop := Sys2Proof.Machine.exec i s = .next (s.withSys y)

/-- Supervisor serves, no transition is under way and nothing waits for one (R456). -/
def Dev.calm (d : Dev) : Prop :=
  d.sup.ready = true ∧ d.pwr.dormStep = none ∧ d.pwr.leaving = false ∧ d.cal.trimRun = none ∧ d.upd.goal = 0

/-- Every key slot is EMPTY (R445). -/
def Dev.keyless (d : Dev) : Prop := ∀ k : Nat, (d.keySlot k).st = 0

end Sys2Proof.Machine

/-- Mode requests, Dormant, automatic Lean and trims. -/
def Obligations.ModesChange : Prop :=
  ∀ (s : State),
    let d := s.dev
    let m := d.pwr.mode
    (∀ lean : Bool,
      (m ≠ 3 → s.becomes (.enterService lean) s.sys)
      ∧ (m = 3 → d.calm → d.sup.slot = none → s.becomes (.enterService lean) s.sys)
      ∧ (m = 3 → d.calm → d.sup.slot.isSome = true → ∃ y : Sys, s.becomes (.enterService lean) y ∧ y.vault = s.vault
          ∧ y.dev.pwr.mode = (if lean then 4 else 5))
      ∧ (m ≠ 4 ∧ m ≠ 5 → s.becomes (.leanFullSwitch lean) s.sys)
      ∧ (m = (if lean then 5 else 4) → d.calm → ∃ y : Sys, s.becomes (.leanFullSwitch lean) y ∧ y.vault = s.vault
          ∧ y.dev.pwr.mode = (if lean then 4 else 5) ∧ y.dev.smd = d.smd ∧ y.dev.cores = d.cores ∧ y.dev.engs = d.engs
          ∧ 600 ≤ y.dev.pwr.vcore ∧ y.dev.pwr.vread = y.dev.pwr.vcore)
      ∧ (m = (if lean then 4 else 5) → d.calm → s.becomes (.leanFullSwitch lean) ⟨d.pwrInt 1, s.vault⟩))
    ∧ (m ≠ 4 → m ≠ 5 → d.pwr.leaving = false → s.becomes .leaveService s.sys)
    ∧ (m = 4 ∨ m = 5 → d.calm ∨ (d.pwr.leaving = true ∧ d.upd.goal = 0) → ∃ y : Sys, s.becomes .leaveService y ∧ y.vault = s.vault
        ∧ ((y.dev.pwr.mode = 3 ∧ y.dev.pwr.leaving = false)
          ∨ (y.dev.pwr.mode = m ∧ y.dev.pwr.leaving = true ∧ y.dev.smdRunning = true)))
    ∧ (m ≠ 3 → s.becomes .enterMaintenance s.sys)
    ∧ (m = 3 → d.calm → ∃ y : Sys, s.becomes .enterMaintenance y ∧ y.vault = s.vault ∧ y.dev.pwr.mode = 6 ∧ y.dev.keyless)
    ∧ (m ≠ 6 → s.becomes .leaveMaintenance s.sys)
    ∧ (m = 6 → d.calm ∨ (d.cal.trimRun.isSome = true ∧ d.upd.goal = 0) → ∃ y : Sys, s.becomes .leaveMaintenance y ∧ y.vault = s.vault
        ∧ y.dev.pwr.mode = 3 ∧ y.dev.cal.trimRun = none)
    ∧ (d.pwr.dormStep = none → m = 3 → d.calm →
        (d.dormRefuser = none → s.becomes .dormantEntry ⟨{ d with pwr := { d.pwr with dormStep := some 1 } }, s.vault⟩)
        ∧ (∀ c : Nat, d.dormRefuser = some c → s.becomes .dormantEntry ⟨(d.entryRefused 1 2 0 c).pwrInt 1, s.vault⟩))
    ∧ (∀ n : Nat, d.pwr.dormStep = some n → d.upd.goal = 0 → ∃ y : Sys, s.becomes .dormantEntry y ∧ y.vault = s.vault
        ∧ (d.dormRefuser ≠ none → y.dev.pwr.dormStep = none ∧ y.dev.pwr.mode = m)
        ∧ (d.dormRefuser = none → n = 1 → y.dev.pwr.dormStep = some 2 ∧ y.dev.sup.linkUp = false
            ∧ ∀ p : Nat, p < 8 → (y.dev.port p).off = true)
        ∧ (d.dormRefuser = none → n = 2 → y.dev.pwr.dormStep = some 3 ∧ y.dev.pwr.mode = m)
        ∧ (d.dormRefuser = none → n ≠ 1 → n ≠ 2 → y.dev.pwr.dormStep = none ∧ y.dev.pwr.mode = 2 ∧ y.dev.keyless
            ∧ y.dev.sup.sessions = [] ∧ y.dev.sup.ready = false))
    ∧ (∀ kept bad : Bool,
        let wakes := d.pwr.wakeSrc.isSome = true ∧ m = 2 ∧ d.time.refclk = true ∧ d.pwr.wakeStuck = false
        (¬ wakes → s.becomes (.dormantWake kept bad) s.sys)
        ∧ (wakes → ∃ y : Sys, s.becomes (.dormantWake kept bad) y
            ∧ (bad = true → y.dev.pwr.mode = 2 ∧ y.dev.pwr.wakeStuck = true ∧ y.dev.pwr.faultLow = true ∧ y.vault = s.vault)
            ∧ (bad = false → kept = true → y.dev.pwr.mode = 3 ∧ y.dev.pwr.wakeSrc = none ∧ y.dev.pwr.wakeLow = true
                ∧ y.dev.sup.ready = true ∧ y.vault = s.vault)
            ∧ (bad = false → kept = false → y.dev.pwr.mode = 1 ∧ y.dev.pwr.wakeSrc = d.pwr.wakeSrc ∧ y.dev.sup.starts = d.sup.starts + 1)))
    ∧ (∀ busy all : BitVec 64,
        let auto := d.par 0x10 2 0 ≠ 0 ∧ d.inTransition = false
        let high := d.pwr.deadlineHit = true ∨ d.par 0x10 3 0 * all.toNat < 100 * busy.toNat
        let low := 100 * busy.toNat < d.par 0x10 4 0 * all.toNat
        let seen : Dev := { d with pwr := { d.pwr with deadlineHit := false } }
        (¬ auto → d.upd.goal = 0 → s.becomes (.autoLean busy all) s.sys)
        ∧ (auto → d.upd.goal = 0 →
            (m = 4 → high → ∃ y : Sys, s.becomes (.autoLean busy all) y ∧ y.dev.pwr.mode = 5 ∧ y.dev.smd = d.smd)
            ∧ (m = 4 → ¬ high → s.becomes (.autoLean busy all) ⟨seen, s.vault⟩)
            ∧ (m = 5 → ¬ low → s.becomes (.autoLean busy all) ⟨{ seen with pwr := { seen.pwr with quietFrom := none } }, s.vault⟩)
            ∧ (m = 5 → low → d.pwr.quietFrom = none →
                s.becomes (.autoLean busy all) ⟨{ seen with pwr := { seen.pwr with quietFrom := some d.time.raw } }, s.vault⟩)
            ∧ (∀ r : Nat, m = 5 → low → d.pwr.quietFrom = some r → 10 ^ 6 * d.par 0x10 5 0 ≤ d.nsSince r →
                ∃ y : Sys, s.becomes (.autoLean busy all) y ∧ y.dev.pwr.mode = 4 ∧ y.dev.smd = d.smd)))
    ∧ (∀ mask : BitVec 32,
        (d.sup.ready = false → s.becomes (.trimRequest mask) s.sys)
        ∧ (m ≠ 3 → m ≠ 6 → d.upd.goal = 0 → s.becomes (.trimRequest mask) s.sys)
        ∧ (m = 3 → d.calm → ∃ y : Sys, s.becomes (.trimRequest mask) y ∧ y.vault = s.vault ∧ y.dev.pwr.mode = 6 ∧ y.dev.keyless
            ∧ y.dev.cal.trimRun = some (mask.toNat % 64))
        ∧ (m = 6 → d.calm → ∃ y : Sys, s.becomes (.trimRequest mask) y ∧ y.vault = s.vault ∧ y.dev.pwr.mode = 6
            ∧ ∀ n : Nat, n < 6 →
                (mask.getLsbD n = true → (y.dev.trim n).time = d.now ∧ (y.dev.trim n).due = false ∧ (y.dev.trim n).status ∈ [0, 4, 5])
                ∧ (mask.getLsbD n = false → y.dev.trim n = d.trim n)))

/-- Nap, Doze and the wake sources. -/
def Obligations.UnitsSleepAndWake : Prop :=
  ∀ (s : State),
    let d := s.dev
    (∀ (u : Fin 576) (ns : BitVec 32), d.clocked = true →
      let naps := (d.pwr.mode = 4 ∨ d.pwr.mode = 5) ∧ (isCoreUnit u = true ∨ (isDozeUnit u = true ∧ 24 ≤ u.val))
        ∧ d.power u = .active ∧ d.unitIdle u = true ∧ d.par 0x10 0x10 0 ≤ ns.toNat
      (naps → s.goes (.nap u ns) ((d.setPower u .nap).bump (pwrBase + 0x400)))
      ∧ (¬ naps → s.goes (.nap u ns) d)
      ∧ (d.power u = .nap → d.unitIdle u = false → s.goes (.napWake u) (d.setPower u .active))
      ∧ (d.power u ≠ .nap ∨ d.unitIdle u = true → s.goes (.napWake u) d))
    ∧ (∀ u : Fin 576, d.clocked = true →
      let starts := isDozeUnit u = true ∧ (d.pwr.mode = 3 ∨ d.pwr.mode = 4 ∨ d.pwr.mode = 5) ∧ (d.power u = .active ∨ d.power u = .nap)
        ∧ d.dozeCheck u = none ∧ d.farEnough u = true ∧ d.mayDoze u = true
      (d.entryOf u = none → starts →
        s.goes (.dozeEntry u) { d with pwr := { d.pwr with entering := d.pwr.entering ++ [{ unit := u, passed := 1, before := d.power u }] } })
      ∧ (d.entryOf u = none → ¬ starts → s.goes (.dozeEntry u) d)
      ∧ (∀ e : DozeEntry, d.entryOf u = some e →
          (4 ≤ e.passed → ∃ d' : Dev, s.goes (.dozeEntry u) d' ∧ d'.entryOf u = none
              ∧ d'.power u = (if e.wake then .active else .doze) ∧ d'.reg64 (pwrBase + 0x408) = (d.reg64 (pwrBase + 0x408) + 1) % 2 ^ 64)
          ∧ (e.passed < 4 → d.dozeCheck u = none → ∃ d' : Dev, s.goes (.dozeEntry u) d'
              ∧ d'.entryOf u = some { e with passed := e.passed + 1 }
              ∧ d'.power u = (if e.passed = 1 ∧ 24 ≤ u.val then .nap else d.power u))
          ∧ (∀ o c : Nat, e.passed < 4 → d.dozeCheck u = some (o, c) → ∃ d' : Dev, s.goes (.dozeEntry u) d'
              ∧ d'.entryOf u = none ∧ d'.power u = e.before
              ∧ d'.reg64 (pwrBase + 0x100) = o + 4 * 7 + 32 * unitField u + 8192 * c ∧ d'.reg64 (pwrBase + 0x108) = d.now)))
    ∧ (∀ u : Fin 576, d.clocked = true →
      let margin := (d.pwr.mode = 4 ∨ d.pwr.mode = 5) ∧ ∃ t : Target, t ∈ d.unitTargets u ∧ t ∈ d.marginTargets
      let due := d.wakeAsked u = true ∨ margin ∨ d.arrivalNear u = true ∨ (256 ≤ u.val ∧ d.unitIdle u = false)
      (isDozeUnit u = false ∨ ¬ due → s.goes (.dozeWake u) d)
      ∧ (isDozeUnit u = true → due →
          (d.entryOf u = none → d.power u ≠ .doze → s.goes (.dozeWake u) d)
          ∧ (d.entryOf u = none → d.power u = .doze → ∃ d' : Dev, s.goes (.dozeWake u) d' ∧ d'.power u = .active
              ∧ (∀ t : Target, t ∈ d.unitTargets u → t ∉ d'.smd.wakeReqs)
              ∧ (u.val < 24 → ∀ k : Nat, k < 8 → d'.power (32 + 8 * u.val + k) = .active))
          ∧ (∀ e : DozeEntry, d.entryOf u = some e → e.passed ≠ 4 → s.goes (.dozeWake u) d)
          ∧ (∀ e : DozeEntry, d.entryOf u = some e → e.passed = 4 → ∃ d' : Dev, s.goes (.dozeWake u) d'
              ∧ d'.entryOf u = some { e with wake := true } ∧ d'.power u = d.power u)))
    ∧ (∀ (i : Instr) (src : Nat) (heard : Prop), (i = .wakeN ∧ src = 1 ∧ heard) ∨ (i = .rtcAlarm ∧ src = 2 ∧ (heard ↔ d.par 0x10 0x41 0 ≤ d.time.rtc)) →
      let on := bit (d.par 0x10 0x40 0) (src - 1) = true
      (¬ heard ∨ ¬ on → s.goes i d)
      ∧ (heard → on → d.pwr.dormStep.isSome = true → ∃ d' : Dev, s.goes i d' ∧ d'.pwr.dormStep = none
          ∧ d'.reg64 (pwrBase + 0x100) = 2 + 4 * 2 + 8192 * (15 + src))
      ∧ (heard → on → d.pwr.dormStep = none → d.pwr.mode = 2 → d.pwr.wakeSrc = none →
          s.goes i { d with pwr := { d.pwr with wakeSrc := some src } })
      ∧ (heard → on → d.pwr.dormStep = none → d.pwr.mode ≠ 2 ∨ d.pwr.wakeSrc.isSome = true → s.goes i d))

/-- Sensors, regulators and calibration. -/
def Obligations.SensingAndCalibration : Prop :=
  ∀ (s : State),
    let d := s.dev
    (∀ (temps : List Int) (volts : List Nat), temps.length = 64 → volts.length = 16 →
      let i : Instr := .sensorRead temps volts
      let value := fun (n : Nat) (on : Bool) => let v := temps.getD n (-1000)
        if on = true ∧ -440 ≤ v ∧ v ≤ 1400 then some v else none
      (d.pwr.mode = 0 ∨ d.pwr.thermTrip = true → s.goes i d)
      ∧ (d.pwr.mode ≠ 0 → d.pwr.thermTrip = false → ∃ d' : Dev, s.goes i d'
          ∧ (d.pwr.mode ≠ 2 → ∀ n : Nat, n < 64 → d'.sensor n = value n (d.sensorOn n))
          ∧ (d.pwr.mode = 2 → ∀ n : Nat, n < 64 → d'.sensor n = value n (decide (n = 59)))
          ∧ (d.pwr.mode ≠ 2 → (∃ n : Nat, n < 64 ∧ (value n (d.sensorOn n)).any (fun x => decide (1216 ≤ x)) = true) →
              d'.pwr.mode = 7 ∧ d'.pwr.thermTrip = true ∧ d'.keyless)
          ∧ (d.pwr.mode ≠ 2 → (∀ n : Nat, n < 64 → (value n (d.sensorOn n)).all (fun x => decide (x < 1216)) = true) →
              d'.pwr.thermTrip = false)))
    ∧ (d.powered = true →
      (∀ bad : BitVec 8,
        ((∀ r : Nat, r < 8 → bad.getLsbD r = true → d.par 0x10 0x20 r = 0) → s.goes (.pmbusTelemetry bad) d)
        ∧ (∀ r : Nat, r < 8 → bad.getLsbD r = true → d.par 0x10 0x20 r ≠ 0 →
            (∀ q : Nat, q < r → bad.getLsbD q = true → d.par 0x10 0x20 q = 0) → s.goes (.pmbusTelemetry bad) (d.regFault r)))
      ∧ (∀ mv : BitVec 16,
        let e : Dev := { d with pwr := { d.pwr with vread := mv.toNat } }
        let off := 25 < ((mv.toNat : Int) - (d.pwr.vcore : Int)).natAbs
        (off → s.goes (.avsReadback mv) (e.regFault 0)) ∧ (¬ off → s.goes (.avsReadback mv) e))
      ∧ (∀ r : Nat, bit ((d.regFault r).regN (pwrBase + 0x10)) 2 = true
          ∧ (d.regFault r).obs.fatal = (if 3 ≤ d.pwr.mode ∧ d.pwr.mode ≤ 6 then d.obs.fatal ++ [⟨0x84, 15, 2, r⟩] else d.obs.fatal)))
    ∧ (d.clocked = true →
      (∃ d' : Dev, s.goes .runInterval d' ∧ ∀ k : Nat, k < 37 →
        let due := d.par 0x11 0x11 0 ≠ 0 ∧ 10 ^ 9 * d.par 0x11 0x11 0 ≤ d.nsSince (d.calTarget k).began ∧ (d.calTarget k).inUse = true
          ∧ (d.calTarget k).running = false
        (due → (d'.calTarget k).running = true ∧ (d'.calTarget k).began = d.time.raw ∧ (d'.calTarget k).moves = 0)
        ∧ (¬ due → d'.calTarget k = d.calTarget k))
      ∧ (∀ (k : Fin 37) (ms : List (Nat × Nat × Nat)),
        let t := d.calTarget k
        let waited := 12 ≤ k.val ∧ 10 ^ 6 * d.par 0x11 0x12 0 ≤ d.nsSince t.due
        let steps := fun (d' : Dev) =>
          let t' := d'.calTarget k
          (∀ e : Nat, e < d.calElems k → t'.tap k e = t.tap k e
              ∨ (((t'.tap k e) = t.tap k e + 1 ∨ t'.tap k e = t.tap k e - 1) ∧ (calRange k e).1 ≤ t'.tap k e ∧ t'.tap k e ≤ (calRange k e).2))
            ∧ (∀ e : Nat, d.calElems k ≤ e → t'.tap k e = t.tap k e)
            ∧ (t'.running = true → ∃ e : Nat, e < d.calElems k ∧ t'.tap k e ≠ t.tap k e)
            ∧ (t'.running = false → t'.rTime = d.now ∧ t'.rStatus ≤ 2)
            ∧ (∀ q : Nat, q ≠ k.val → d'.calTarget q = d.calTarget q)
        (t.running = false → s.goes (.calibrationStep k ms) d ∧ s.goes (.forcedStep k ms) d)
        ∧ (t.running = true → ∃ d' : Dev, s.goes (.calibrationStep k ms) d' ∧ steps d')
        ∧ (t.running = true → waited → ∃ d' : Dev, s.goes (.forcedStep k ms) d' ∧ steps d')
        ∧ (t.running = true → ¬ waited → s.goes (.forcedStep k ms) d)))

/-! ## Access and sessions -/

namespace Sys2Proof.Machine

/-- The operations of NAP with their OP (R503). -/
def napRows (src : BitVec 64) (msg : List Byte) : List (Instr × Nat) :=
  [(.sessionOpen src msg, 1), (.sessionAuth src msg, 2), (.sessionClose src msg, 3), (.keepalive src msg, 4), (.get src msg, 0x10),
    (.set src msg, 0x11), (.command src msg, 0x12), (.describe src msg, 0x13), (.list src msg, 0x14)]

/-- Supervisor answers a source. -/
def Sys.says (y : Sys) (src : Nat) (a : List Byte) : Sys :=
  { y with dev := { y.dev with sup := { y.dev.sup with out := y.dev.sup.out ++ [⟨src, a⟩] } } }

/-- A session after a request: its SEQ, the request and its answer, and the segments held (R505). -/
def Session.after (x : Session) (seq : Nat) (raw resp : List Byte) (held : Option HeldBlob) (now : Nat) : Session :=
  { x with seq := seq, lastReq := raw, lastResp := resp, blob := held, valid := now }

end Sys2Proof.Machine

/-- Operations of the Nintober Access Protocol outside recovery. -/
def Obligations.NapAnswers : Prop :=
  ∀ (s : State) (src : BitVec 64) (msg : List Byte) (i : Instr) (op : Nat), (i, op) ∈ napRows src msg →
    msg[1]? = some (BitVec.ofNat 8 op) → s.dev.upd.recovery = false →
    let a := src.toNat
    let d := s.dev.expireSessions.catCount 0xD00 1
    let y : Sys := ⟨d, s.vault⟩
    let served := s.dev.napServed = true ∧ 16 ≤ msg.length ∧ msg.length ≤ 1400
    let bare := fun (st : Nat) => napReply op (leAt msg 4 4) (leAt msg 8 4) st []
    (¬ served → s.becomes i s.sys)
    ∧ (served → d.isBlocked a = true → s.becomes i (y.says a (bare 0x17)))
    ∧ (served → d.isBlocked a = false → napParse msg = none → s.becomes i (y.says a (bare 0x10)))
    ∧ (∀ m : NapMsg, served → d.isBlocked a = false → napParse msg = some m →
      m.op = op
      ∧ (op = 1 → m.sess = 0 → m.macced = false → m.seq % 256 ≤ 1 → m.seq % 256 = 1 ∨ d.par 0 0x20 0 ≠ 1 → d.sup.sessions.length < 16 →
          let c := leBytes 8 (s.vault.chal + 1) ++ leBytes 8 d.now
          let x : Session := { id := d.sup.nextId, src := a, asked := m.seq % 256, chal := c, valid := d.time.raw }
          let next := if d.sup.nextId + 1 < 2 ^ 32 then d.sup.nextId + 1 else 0x100
          s.becomes i (({ dev := { d with sup := { d.sup with sessions := d.sup.sessions ++ [x], nextId := next } }
                          vault := { s.vault with chal := s.vault.chal + 1 } } : Sys).says a (napReply 1 x.id m.seq 0 [chalRecord c])))
      ∧ (op = 1 → m.sess = 0 → m.macced = false → m.seq % 256 ≤ 1 → 16 ≤ d.sup.sessions.length →
          s.becomes i (y.says a (napReply 1 0 m.seq 0x15 [])))
      ∧ (op ≠ 1 → d.session m.sess = none → s.becomes i (y.says a (bare 0x11)))
      ∧ (∀ x : Session, op ≠ 1 → m.sess ≠ 1 → d.session m.sess = some x →
          (x.authed = false → op ≠ 2 ∨ m.macced = true → s.becomes i (y.says a (bare 0x11)))
          ∧ (∀ r : NapRec, x.authed = false → op = 2 → m.macced = false → m.recs = [r] → r.ty = 9 → r.val.length = 20 →
              segOff r.val = 0 → segTotal r.val = 16 →
              let k := Tab.get (fun _ => zeros 32) d.sup.creds x.asked
              let good := k.any (fun b => decide (b ≠ 0)) = true ∧ credMac k x.proof = segData r.val
              (¬ good → s.becomes i ((⟨(d.authFails (some a)).closeSession x.id, s.vault⟩ : Sys).says a (napReply 2 x.id m.seq 0x13 []))
                ∧ (2 ≤ (d.sup.fails.filter (fun f => decide (f.1 = a ∧ d.nsSince f.2 < sixty))).length →
                    ((d.authFails (some a)).closeSession x.id).isBlocked a = true))
              ∧ (good →
                  let z : Session := { x with
                    priv := x.asked
                    authed := true
                    macced := true
                    key := (credMac k (x.proof ++ [0x4B])).take 16
                    seq := 0
                    chal := []
                    valid := d.time.raw }
                  s.becomes i ((⟨d.putSession z, s.vault⟩ : Sys).says a (z.reply 2 m.seq 0 []))))
          ∧ (x.authed = true → m.macced ≠ x.macced ∨ (x.macced = true ∧ macOk x msg = false) → s.becomes i (y.says a (bare 0x14)))
          ∧ (x.authed = true → op ≠ 2 → m.macced = x.macced → x.macced = false ∨ macOk x msg = true →
              let again := m.seq = x.seq ∧ x.lastReq = msg ∧ msg ≠ []
              let e := y.operate ⟨x.id, x.priv⟩ x.blob op m.recs (1400 - 16 * b2n x.macced)
              let resp := x.reply op m.seq e.2.1 e.2.2.1
              let ran := fun (z : Session) => z.after m.seq msg resp e.2.2.2 d.time.raw
              (again → s.becomes i ((⟨d.putSession { x with valid := d.time.raw }, s.vault⟩ : Sys).says a x.lastResp))
              ∧ (¬ again → m.seq ≠ (x.seq + 1) % 2 ^ 32 → s.becomes i (y.says a (x.reply op m.seq 0x12 [])))
              ∧ (¬ again → m.seq = (x.seq + 1) % 2 ^ 32 →
                  (op = 3 → s.becomes i ((⟨(d.putSession (ran x)).closeSession x.id, s.vault⟩ : Sys).says a resp))
                  ∧ (op ∈ [4, 0x10, 0x13, 0x14] → s.becomes i ((⟨d.putSession (ran x), s.vault⟩ : Sys).says a resp))
                  ∧ (op = 0x11 → e.2.1 ≠ 0 → e.1 = y)
                  ∧ (op ∈ [0x11, 0x12] → e.1.dev.sup.starts = d.sup.starts →
                      s.becomes i ((⟨e.1.dev.putSession (ran ((e.1.dev.session x.id).getD x)), e.1.vault⟩ : Sys).says a resp))
                  ∧ (op ∈ [0x11, 0x12] → e.1.dev.sup.starts ≠ d.sup.starts → s.becomes i e.1)))))

/-- Expiry, mailbox, BAR4, PCIe reset and profile loads. -/
def Obligations.HostAndProfiles : Prop :=
  ∀ (s : State),
    let d := s.dev
    (d.powered = true →
      (∃ d' : Dev, s.goes .sessionTimeout d'
        ∧ (∀ x : Session, x ∈ d.sup.sessions → x.id ≠ 1 → sixty ≤ d.nsSince x.valid → x ∉ d'.sup.sessions)
        ∧ (∀ x : Session, x ∈ d.sup.sessions → (∀ z : Session, z ∈ d.sup.sessions → z.id = x.id → d.nsSince z.valid < sixty) →
            x ∈ d'.sup.sessions))
      ∧ (∃ d' : Dev, s.goes .blockExpiry d' ∧ ∀ b : Nat × Nat, b ∈ d'.sup.blocked ↔ b ∈ d.sup.blocked ∧ d.nsSince b.2 < sixty)
      ∧ (∀ v : BitVec 32,
          let ci := d.reg (supBase + 0x24)
          let takes := d.hostLinked = true ∧ (v - ci).toNat ≤ (d.reg (supBase + 0x20) - ci).toNat
          (takes → s.goes (.supMbNotifyCi v) (d.setReg (supBase + 0x24) v)) ∧ (¬ takes → s.goes (.supMbNotifyCi v) d))
      ∧ (∀ (off : BitVec 36) (len : Fin 257) (bs : List Byte), bs ≠ [] → bs.length ≤ 256 →
          let rd : Instr := .bar4Access off false len bs
          let wr : Instr := .bar4Access off true len bs
          let lost : Dev := (d.bump32 (supBase + 0x28)).catCount 0xD03 1
          (d.hostLinked = false → Sys2Proof.Machine.exec rd s = .next { s with reply := .none }
              ∧ Sys2Proof.Machine.exec wr s = .next { s with reply := .none })
          ∧ (d.hostLinked = true → d.bar4Addr off.toNat = none →
              Sys2Proof.Machine.exec rd s = .next { s with dev := lost, reply := .read (.decode off.toNat) }
                ∧ Sys2Proof.Machine.exec wr s = .next { s with dev := lost, reply := .none })
          ∧ (∀ (a : Nat) (x : List Byte) (d1 : Dev), d.hostLinked = true → d.bar4Addr off.toNat = some a →
              d.memRead .host a len = (d1, .ok x) → Sys2Proof.Machine.exec rd s = .next { s with dev := d1, reply := .read (.ok x) })
          ∧ (∀ (a : Nat) (d1 : Dev), d.hostLinked = true → d.bar4Addr off.toNat = some a →
              d.memWrite .host a bs = (d1, .ok) → Sys2Proof.Machine.exec wr s = .next { s with dev := d1, reply := .none })))
    ∧ (∀ v : BitVec 32,
        let i : Instr := .supMbDoorbell v
        let n := v.toNat % 2 ^ 14
        let good := d.sup.ready = true ∧ 16 ≤ n ∧ n ≤ 8192
        (d.hostLinked = false → s.becomes i s.sys)
        ∧ (d.hostLinked = true → ¬ good → s.becomes i ⟨d.supInt 2, s.vault⟩)
        ∧ (d.hostLinked = true → good → ∃ y : Sys, s.becomes i y
            ∧ (y.dev.sup.starts = d.sup.starts → y.dev.sup.respValid = true ∧ bit (y.dev.regN (supBase + 0x10)) 0 = true)))
    ∧ (∃ d' : Dev, s.goes .pciePerstN d' ∧ d'.sup = { d.sup with perst := true, linkUp := false }
        ∧ (∀ a : Nat, supBase + 0x7000 ≤ a → a < supBase + 0x10000 → d'.reg a = regReset a)
        ∧ (∀ a : Nat, a < supBase + 0x7000 ∨ supBase + 0x10000 ≤ a → d'.reg a = d.reg a))
    ∧ (∀ n : BitVec 8,
        let i : Instr := .profileLoad n
        let b := s.vault.profile n.toNat
        let sound := s.vault.profSigned b = true ∧ profHeaderOk b n.toNat = true
        let opens := d.sup.ready = true ∧ n.toNat ≤ 3 ∧ d.rwsClosed = false
        let fails := fun (st : Nat) => (⟨{ d with sup := { d.sup with loadStatus := st } }, s.vault⟩ : Sys)
        (¬ opens → s.becomes i s.sys)
        ∧ (opens → ¬ sound → s.becomes i (fails 0x32))
        ∧ (opens → sound → d.profValues b = none → s.becomes i (fails 0x32))
        ∧ (∀ t : Tab (List Byte), opens → sound → d.profValues b = some t → ∃ y : Sys, s.becomes i y ∧ y.vault = s.vault
            ∧ ((y.dev.sup.loadStatus = 0 ∧ y.dev.dict = t ∧ y.dev.sup.slot = some n.toNat ∧ y.dev.sup.lastSlot = some n.toNat)
              ∨ (y.dev.sup.loadStatus ∈ [0x30, 0x31] ∧ y.dev.dict = d.dict ∧ y.dev.sup.slot = d.sup.slot ∧ y.dev.regs = d.regs))))

/-! ## Boot and update -/

namespace Sys2Proof.Machine

/-- An update command answers a status and changes nothing else. -/
def State.answers (s : State) (i : Instr) (st : Nat) : Prop :=
  s.becomes i ⟨{ s.dev with upd := { s.dev.upd with answer := st } }, s.vault⟩

/-- The device with new update state and status 0. -/
def Dev.updated (d : Dev) (u : UpdState) : Dev := { d with upd := { u with answer := 0 } }

/-- The commands that need a state, with those states (R530). -/
def updRows (sid : BitVec 32) (t : BitVec 80) (data : List Byte) (blob : BitVec 128) (err : Bool) : List (Instr × List Nat) :=
  [(.chunk sid data err, [1]), (.copy sid blob err, [1]), (.finish sid err, [1]), (.verify sid, [2]), (.activate sid t err, [2, 4]),
    (.close sid, [2, 4]), (.confirm sid, [7]), (.reject sid, [7])]

end Sys2Proof.Machine

/-- Update sessions outside recovery. -/
def Obligations.UpdatesKeepTheirOrder : Prop :=
  ∀ (s : State) (sid : BitVec 32) (err : Bool), s.dev.powered = true → s.dev.upd.recovery = false →
    let d := s.dev
    let v := s.vault
    let u := d.upd
    let id := sid.toNat
    let may := d.updRefused id = 0
    let mine := may ∧ (u.owner = 0 ∨ u.owner = id)
    let t := u.target
    (∀ (x : BitVec 8) (tm : BitVec 80) (data key : List Byte) (blob : BitVec 128) (i : Instr), ¬ may →
      i ∈ (.open sid x err : Instr) :: .cancel sid :: .enroll sid key :: (updRows sid tm data blob err).map (fun p => p.1) →
      s.answers i (d.updRefused id))
    ∧ (∀ (tm : BitVec 80) (data : List Byte) (blob : BitVec 128) (i : Instr) (sts : List Nat), (i, sts) ∈ updRows sid tm data blob err → may →
      (u.state ∉ sts → s.answers i (updSt 0)) ∧ (u.state ∈ sts → ¬ mine → s.answers i 0x40))
    ∧ (∀ x : BitVec 8, may →
      let n := x.toNat
      (n = 0 ∨ 8 < n → s.answers (.open sid x err) 5)
      ∧ (1 ≤ n → n ≤ 8 → u.owner ≠ 0 → u.owner ≠ id → s.answers (.open sid x err) 0x40)
      ∧ (1 ≤ n → n ≤ 8 → u.owner = 0 → u.state = 0 → id ≠ 0 → 5 ≤ n ∨ v.bcb.trial = none → err = false →
          s.becomes (.open sid x err)
            ⟨d.updated { u with state := 1, owner := id, target := n, got := 0, image := [], badWrite := false },
              { (v.setStaged n []).markTarget n 1 with begun := n }⟩))
    ∧ (∀ b : List Byte, mine → u.state = 1 → 5 ≤ b.length → b.length ≤ 4096 →
      let data := b.drop 4
      (leAt b 0 4 ≠ u.got → s.answers (.chunk sid b err) (updSt 2))
      ∧ (leAt b 0 4 = u.got → v.roomOf t < u.got + data.length → s.answers (.chunk sid b err) (updSt 3))
      ∧ (leAt b 0 4 = u.got → u.got + data.length ≤ v.roomOf t → err = false →
          s.becomes (.chunk sid b err) ⟨d.updated { u with got := u.got + data.length }, v.setStaged t (v.staged t ++ data)⟩))
    ∧ (∀ (blob : BitVec 128) (bs : List Byte) (d1 : Dev), mine → u.state = 1 → err = false →
      let b := leBytes 16 blob.toNat
      let a := leAt b 0 8
      let n := leAt b 12 4
      n ≤ 2 ^ 20 → leAt b 8 4 = u.got → poolBase ≤ a → a + n ≤ poolBase + 0x8000000 → d.memRead .supervisor a n = (d1, .ok bs) →
      u.got + bs.length ≤ v.roomOf t →
      s.becomes (.copy sid blob err) ⟨d1.updated { d1.upd with got := u.got + bs.length }, v.setStaged t (v.staged t ++ bs)⟩)
    ∧ (mine → u.state = 1 →
      (expectedLen t (v.staged t) ≠ u.got → s.answers (.finish sid err) (updSt 3))
      ∧ (expectedLen t (v.staged t) = u.got → err = false →
          s.becomes (.finish sid err) ⟨d.updated { u with state := 2 }, { v.markTarget t 2 with begun := 0 }⟩))
    ∧ (mine → u.state = 2 →
      (v.verifyTarget t = 0 → s.becomes (.verify sid) ⟨d.updated { u with state := 4, backTo := 4 }, v.markTarget t 3⟩)
      ∧ (v.verifyTarget t ≠ 0 → ∃ st : Nat, st ≠ 0 ∧ s.answers (.verify sid) st))
    ∧ (∀ i : Instr, mine → (i = .close sid ∧ u.state ∈ [2, 4]) ∨ (i = .cancel sid ∧ u.state ∈ [1, 2, 4]) →
      s.becomes i ⟨d.updated { u with state := 0, owner := 0, target := 0, got := 0, image := [], backTo := 0 }, { v with begun := 0 }⟩)
    ∧ (may → u.state = 5 → ∃ y : Sys, s.becomes (.cancel sid) y ∧ y.dev.upd.owner = 0 ∧ y.dev.upd.state ∈ [2, 4]
        ∧ y.vault.bcb.schedTarget = 0)
    ∧ (∀ tm : BitVec 80, mine → u.state ∈ [2, 4] → err = false →
      let b := leBytes 10 tm.toNat
      let at' := nsOf80 b
      let i : Instr := .activate sid tm err
      (at' ≠ 0 → at' < d.now + 10 ^ 9 → s.answers i (updSt 7))
      ∧ (d.now + 10 ^ 9 ≤ at' → d.time.locked = false → s.answers i (updSt 8))
      ∧ (d.now + 10 ^ 9 ≤ at' → d.time.locked = true →
          s.becomes i ⟨d.updated { u with state := 5, owner := 2 ^ 32 - 1, backTo := u.state, badWrite := false },
            v.putBcb { v.bcb with schedTarget := t, schedTime := b }⟩)
      ∧ (at' = 0 → 5 ≤ t → ∃ y : Sys, s.becomes i y ∧ y.dev.upd.state = 0 ∧ y.dev.upd.owner = 0
          ∧ y.vault.profCopy y.vault.bcb.bank (t - 5) = 1 - v.profCopy v.bcb.bank (t - 5))
      ∧ (at' = 0 → t = 3 ∨ t = 4 → d.pwr.mode = 3 → d.inTransition = false →
          ∃ y : Sys, s.becomes i y ∧ y.dev.pwr.mode = 1 ∧ y.dev.sup.starts = d.sup.starts + 1))
    ∧ (mine → u.state = 7 →
      (u.checked = false → s.answers (.confirm sid) 0x0B)
      ∧ (u.checked = true → v.bcb.trial.isSome = true → ∃ y : Sys, s.becomes (.confirm sid) y ∧ y.dev.upd.state = 0
          ∧ y.dev.upd.trial = false ∧ y.vault.bcb.trial = none ∧ y.vault.bcb.bank = v.bcb.bank
          ∧ (v.bcb.supTrial ≠ 0xFF → y.vault.bcb.supActive = v.bcb.supTrial)
          ∧ (v.bcb.sigTrial ≠ 0xFF → y.vault.bcb.sigActive = v.bcb.sigTrial))
      ∧ (d.pwr.mode = 3 → d.inTransition = false → ∃ y : Sys, s.becomes (.reject sid) y ∧ y.dev.pwr.mode = 1
          ∧ y.dev.sup.starts = d.sup.starts + 1))
    ∧ (∀ key : List Byte, may →
      (id ≠ 1 → s.answers (.enroll sid key) 0x0B)
      ∧ (id = 1 → key.length ≠ 60 → s.answers (.enroll sid key) 4)
      ∧ (id = 1 → key.length = 60 → d.pwr.mode ≠ 3 → d.pwr.mode ≠ 6 → s.answers (.enroll sid key) 8)
      ∧ (∀ n : Nat, id = 1 → key.length = 60 → d.pwr.mode = 3 ∨ d.pwr.mode = 6 → v.freeOtp = some n →
          ∃ y : Sys, s.becomes (.enroll sid key) y ∧ y.vault.otp = v.otp.set n { hash := some (sha256 key), valid := true }
            ∧ y.vault.bcb.key = key))

/-- Resets, boot, schedules, fall-back and restart. -/
def Obligations.ResetsAndBoot : Prop :=
  ∀ (s : State),
    let d := s.dev
    (∃ y : Sys, s.becomes .porstNAssertion y ∧ y.vault = s.vault ∧ y.dev.pwr.mode = 0 ∧ y.dev.pins.porst = true ∧ y.dev.mem = {}
        ∧ y.dev.dict = [] ∧ y.dev.time.raw = 0 ∧ y.dev.obs.faults = [] ∧ (∀ a : Nat, y.dev.reg a = regReset a)
        ∧ ∀ k : Nat, k < 24 → y.dev.power k = .off)
    ∧ (∀ (p : Fin 4) (bm : Fin 8) (ref : Bool),
        (d.pins.porst = false → s.becomes (.porstNRelease p bm ref) s.sys)
        ∧ (d.pins.porst = true → ∃ y : Sys, s.becomes (.porstNRelease p bm ref) y ∧ y.dev.pwr.mode = 1 ∧ y.dev.pins.porst = false
            ∧ y.dev.pins.refFast = ref ∧ y.dev.sup.pins = p.val ∧ y.dev.upd.bootMode = bm.val ∧ y.dev.sup.starts = d.sup.starts + 1
            ∧ (2 ≤ bm.val → bm.val ≤ 6 → y.dev.upd.recovery = true ∧ y.vault = s.vault)))
    ∧ (∃ y : Sys, s.becomes .sysrstNAssertion y ∧ y.vault = s.vault ∧ y.dev.pins.sysrst = true ∧ y.dev.time.raw = d.time.raw
        ∧ (d.pins.porst = true ∨ d.pwr.thermTrip = true → y.dev = { d with pins := { d.pins with sysrst := true } })
        ∧ (d.pins.porst = false → d.pwr.thermTrip = false → y.dev.pwr.mode = 1 ∧ y.dev.sup.sessions = [] ∧ y.dev.sup.lastSlot = d.sup.lastSlot
            ∧ ∀ a : Nat, keptInSysrst a = false → y.dev.reg a = regReset a))
    ∧ (d.pins.sysrst = false → s.becomes .sysrstNRelease s.sys)
    ∧ (d.pins.sysrst = true → ∃ y : Sys, s.becomes .sysrstNRelease y ∧ y.dev.pins.sysrst = false ∧ y.dev.pwr.mode = d.pwr.mode
        ∧ y.dev.sup.starts = (if d.pins.porst = true ∨ d.pwr.thermTrip = true then d.sup.starts else d.sup.starts + 1))
    ∧ (let go := d.pwr.mode = 1 ∧ d.mem.filled = true ∧ d.upd.recovery = false ∧ d.sup.ready = true ∧ d.pins.sysrst = false
       (¬ go → s.becomes .bootStandby s.sys)
       ∧ (go → ∃ y : Sys, s.becomes .bootStandby y ∧ y.dev.pwr.mode = 3 ∧ y.dev.pwr.wakeSrc = none))
    ∧ (d.powered = true →
        (let go := d.pwr.mode = 7 ∧ d.pwr.thermTrip = false ∧ d.obs.copying = false
         (¬ go → s.becomes .restart s.sys)
         ∧ (go → ∃ y : Sys, s.becomes .restart y ∧ y.dev.pwr.mode = 1 ∧ y.dev.sup.starts = d.sup.starts + 1))
        ∧ (let due := d.upd.state = 5 ∧ 3 ≤ d.pwr.mode ∧ d.pwr.mode ≠ 7 ∧ d.inTransition = false
             ∧ nsOf80 s.vault.bcb.schedTime ≤ d.now ∧ d.now ≤ s.sys.windowEnd ∧ d.time.locked = true
           (¬ due → s.becomes .scheduledActivation s.sys)
           ∧ (due → ∃ y : Sys, s.becomes .scheduledActivation y
               ∧ (5 ≤ d.upd.target → y.dev.upd.state = 0 ∧ y.dev.upd.owner = 0 ∧ y.dev.pwr.mode = d.pwr.mode)
               ∧ (d.upd.target ∈ [3, 4] → d.pwr.mode = 3 → y.dev.pwr.mode = 1 ∧ y.dev.sup.starts = d.sup.starts + 1)))
        ∧ (let due := d.upd.state = 5 ∧ s.sys.windowEnd < d.now
           (¬ due → s.becomes .windowMissed s.sys)
           ∧ (due → ∃ y : Sys, s.becomes .windowMissed y ∧ y.dev.upd.owner = 0 ∧ y.dev.upd.state ∈ [2, 4]
               ∧ y.vault.bcb.schedTarget = 0
               ∧ y.vault.bcb.result = resultRecord d.now d.upd.target 4 0 0))
        ∧ (let due := d.upd.trial = true ∧ d.pwr.mode ≠ 7 ∧ 600 * 10 ^ 9 ≤ d.nsSince d.upd.trialAt
           (¬ due → s.becomes .fallBack s.sys)
           ∧ (due → ∃ y : Sys, s.becomes .fallBack y
               ∧ (d.pwr.mode = 3 → d.inTransition = false → y.dev.pwr.mode = 1 ∧ y.dev.sup.starts = d.sup.starts + 1))))

/-! ## Observation and pins -/

/-- Observation, fatal errors and pins. -/
def Obligations.ObservationActs : Prop :=
  ∀ (s : State),
    let d := s.dev
    (d.powered = true →
      (∃ d' : Dev, s.goes .obsSnap d' ∧ d' = { d with obs := { d.obs with snap := d'.obs.snap, snapTime := d.now } }
        ∧ ∀ n : Nat, n < 4096 → Tab.get (fun _ => 0) d'.obs.snap n = BitVec.ofNat 64 (d.catValue n))
      ∧ (∀ q : BitVec 32, ∃ d' : Dev, s.goes (.acknowledge q) d' ∧ d' = { d with obs := { d.obs with faults := d'.obs.faults } }
        ∧ d'.obs.faults.length = d.obs.faults.length
        ∧ ∀ (n : Nat) (r : FaultRec), d.obs.faults[n]? = some r →
            d'.obs.faults[n]? = some { r with acked := r.acked || decide (r.seq ≤ q.toNat) })
      ∧ (∀ (i : Instr) (code cls num det : Nat),
        i = .forced ∧ (code, cls, num, det) = (0x87, 12, 0, 0) ∨ i = .supWatchdog ∧ (code, cls, num, det) = (0x81, 12, 0, 0)
          ∨ (∃ pll : BitVec 8, i = .pllNoLock pll ∧ (code, cls, num, det) = (0x85, 15, 4, pll.toNat))
          ∨ (∃ (ag : Agent) (a : BitVec 40), i = .fabricTimeout ag a ∧ ag.ok = true ∧ d.pwr.mode ≠ 7
              ∧ (code, cls, num, det) = (0x86, ag.code.1, ag.code.2, a.toNat + 2 ^ 40 * ag.word)) →
        (d.pwr.thermTrip = true → s.goes i d)
        ∧ (d.pwr.thermTrip = false → s.goes i { d with obs := { d.obs with fatal := d.obs.fatal ++ [⟨code, cls, num, det⟩] } }))
      ∧ (d.obs.fatal = [] ∨ d.pwr.thermTrip = true → s.becomes .fatalError s.sys)
      ∧ (d.obs.fatal ≠ [] → d.pwr.thermTrip = false → ∃ y : Sys, s.becomes .fatalError y ∧ y.dev.pwr.mode = 7 ∧ y.dev.obs.fatal = []
          ∧ (d.pwr.mode = 7 → y.vault = s.vault ∧ y.dev.mem = d.mem)
          ∧ (d.pwr.mode ≠ 7 → y.dev.pwr.faultLow = true ∧ y.dev.keyless ∧ (∀ p : Nat, p < 8 → (y.dev.port p).off = true)
              ∧ (d.upd.trial = true → y.vault.bcb.failed = true)))
      ∧ (d.obs.copying = false → s.becomes .dumpFlashCopy s.sys)
      ∧ (∀ (bs : List Byte) (d1 : Dev), d.obs.copying = true →
          d.memRead .supervisor d.dumpBase (ceilDiv d.obs.dumpLen 65536 * 65536) = (d1, .ok bs) →
          s.becomes .dumpFlashCopy ⟨{ d1 with obs := { d1.obs with copying := false, dump := 2 } }, { s.vault with dump := bs }⟩)
      ∧ s.becomes .dumpRelease ⟨{ d with obs := { d.obs with dump := 0, copying := false, dumpLen := 0 } }, { s.vault with dump := [] }⟩)
    ∧ (d.clocked = true →
        let sink := d.regN (obsBase + 4) % 4
        let full32 := 32 ≤ d.obs.fifo.length ∨ d.batchDue = true
        let w := d.reg64 (obsBase + 0x30)
        (sink = 0 ∨ sink = 3 ∨ (sink = 1 ∧ (d.obs.full = true ∨ ¬ full32)) → s.goes .traceBatch d)
        ∧ (sink = 2 → ∃ d' : Dev, s.goes .traceBatch d' ∧ d'.obs.tracePort = d.obs.tracePort ++ d.obs.fifo.take 32)
        ∧ (sink = 1 → d.obs.full = false → full32 → ∃ d' : Dev, s.goes .traceBatch d'
            ∧ d'.reg64 (obsBase + 0x30) = (w + 512) % 2 ^ 64
            ∧ d'.obs.full = (bit (d.regN (obsBase + 4)) 2 && decide (2 ^ (d.regN (obsBase + 0x28) % 32) ≤ w + 512))))
    ∧ (∀ (trst : Bool) (tdi : BitVec 32) (levels cells : BitVec 128),
        let on := d.pins.porst = true ∧ trst = true
        let tap := fun (p : PinState) => ({ d with pins := p } : Dev)
        let idle := tap { d.pins with jtagIr := 0, jtagData := 0, extest := false }
        (¬ on → ∀ i : Instr, i ∈ [Instr.bypass trst tdi, .idcode trst, .samplePreload trst levels cells, .extest trst levels cells] → s.goes i idle)
        ∧ (on → s.goes (.bypass trst tdi) (tap { d.pins with jtagIr := 1, jtagData := 2 * tdi.toNat % 2 ^ 32, extest := false })
            ∧ s.goes (.idcode trst) (tap { d.pins with jtagIr := 2, jtagData := 0x71920FD3, extest := false })
            ∧ s.goes (.samplePreload trst levels cells)
                (tap { d.pins with jtagIr := 3, jtagData := levels.toNat, preload := cells.toNat, extest := false })
            ∧ s.goes (.extest trst levels cells)
                (tap { d.pins with jtagIr := 4, jtagData := levels.toNat, preload := cells.toNat, extest := true })))
    ∧ (∀ lv : BitVec 32, s.goes (.gpioSample lv) (if d.pins.b1 then { d with pins := { d.pins with gpioIn := lv } } else d))
    ∧ (∃ d' : Dev, s.goes .pciePerstNRelease d' ∧ d'.sup.perst = false ∧ d'.regs = d.regs
        ∧ (3 ≤ d.pwr.mode → d.pwr.thermTrip = false → d.upd.recovery = false → d'.sup.linkUp = true)
        ∧ (d.pwr.mode = 0 ∨ d.pwr.mode = 2 → d'.sup.linkUp = false))
    ∧ s.goes .wakeNPulseEnd { d with pwr := { d.pwr with wakeLow := false } }

/-! ## Rules stated whole -/

/-- EMIT and POST of a core that holds no node (R93). -/
def Obligations.WithoutANodeNothingIsBuffered : Prop :=
  ∀ (s : State) (c : Fin 192) (w : BitVec 32), Ready1.Runs s c w → (s.dev.core c).held = none →
    let k := s.dev.core c
    let pair := fun r : Nat => (k.s r).toNat + 2 ^ 32 * (k.s (r + 1)).toNat
    (Ready1 s c w .emit → exec (.emit c w) s = .next (s.withDev (s.dev.setCore c (k.issued []))))
    ∧ (Ready1 s c w .post → exec (.post c w) s
        = .next (s.withDev ((s.dev.setCore c (k.issued [])).sendToken ⟨.core c, pair (opA w.toNat), pair (opB w.toNat)⟩)))

/-- ABORT of a transform unit (R266). -/
def Obligations.TransformAbort : Prop :=
  ∀ (s : State) (u : Fin 8) (j : EJob), s.dev.clocked = true → ((s.dev.wakeFor (engBase 4 u)).eng 4 u).run = some j → j.status = none →
    ∃ d' : Dev, s.goes (.xfuAbort u) d' ∧ (d'.eng 4 u).run = some { j with status := some (0x21, none) } ∧ d'.mem = s.dev.mem
      ∧ ∀ (i : Instr) (op : Nat) (fault : Bool), (i, op) ∈ xfuOpRows u fault → Sys2Proof.Machine.exec i (s.withDev d') = .next (s.withDev d')

/-! ## The whole machine again -/

namespace Sys2Proof.Machine

/-- The commands that may change flash or OTP: mode changes that a waiting activation follows, NAP and the mailbox, updates, boot,
and fatal errors (R504, R519, R531, R547). -/
def mayChangeVault (i : Instr) : Bool :=
  match i with
  | .registerWrite ag _ _ => decide (ag = .host)
  | .porstNRelease _ _ _ | .bootStandby | .open _ _ _ | .chunk _ _ _ | .copy _ _ _ | .finish _ _ | .verify _ | .activate _ _ _ => true
  | .close _ | .cancel _ | .confirm _ | .reject _ | .enroll _ _ | .scheduledActivation | .windowMissed | .fallBack => true
  | .sessionOpen _ _ | .sessionAuth _ _ | .sessionClose _ _ | .keepalive _ _ | .get _ _ | .set _ _ | .command _ _ => true
  | .describe _ _ | .list _ _ | .supMbDoorbell _ => true
  | .fatalError | .dumpFlashCopy | .dumpRelease | .restart | .sysrstNRelease => true
  | .enterService _ | .leanFullSwitch _ | .leaveService | .dormantEntry | .dormantWake _ _ | .enterMaintenance => true
  | .leaveMaintenance | .autoLean _ _ | .trimRequest _ => true
  | _ => false

end Sys2Proof.Machine

/-- Every well-formed command answers a next state and leaves the queue alone, and flash and OTP but for their writers; an
ill-formed one is refused; the tick of an empty queue is the model's choice (assumption log 1). -/
def Obligations.CommandsComplete : Prop :=
  ∀ (i : Instr) (s : State),
    (i.wf = true → ∃ t : State, Sys2Proof.Machine.exec i s = .next t ∧ t.pending = s.pending
      ∧ (mayChangeVault i = false → t.vault = s.vault))
    ∧ (i.wf = false → Sys2Proof.Machine.exec i s = .refused .illFormed)
    ∧ (s.pending = [] → Sys2Proof.Machine.step s = .next (s.withDev s.dev.refTick))

/-- Flash and OTP stay sound and only grow. -/
def Obligations.FlashAndOtpOnlyGrow : Prop :=
  ∀ (s t : State), s.vault.sound → Sys2Proof.Machine.step s = .next t → t.vault.sound ∧ s.vault.keeps t.vault

/-- The machine right after reset (the values that the spec does not give are the model's: assumption log 47). -/
def Obligations.ResetState : Prop :=
  let s := State.reset
  s.pending = [] ∧ s.dev.pwr.mode = 0 ∧ s.dev.pins.porst = true ∧ s.dev.clocked = false ∧ s.dev.mem = {} ∧ s.dev.sup.sessions = []
    ∧ s.dev.obs.faults = [] ∧ s.vault.sound ∧ (∀ a : Nat, s.dev.reg a = regReset a)
    ∧ (∀ k : Nat, k < 24 → s.dev.power (pwrCluster k) = .off) ∧ (∀ p : Nat × Nat, p ∈ allUnits → s.dev.power (pwrEng p.1 p.2) = .off)
end

