-- ==== Sys2Proof/Laws/Tab.lean ====
section
/-!
SUPPORT. Laws of sparse tables: reading after a write, and that writes keep the canonical form.
-/
namespace Sys2Proof.Machine

theorem Tab.del_cons {α : Type} (p : Nat × α) (t : Tab α) (k : Nat) :
    Tab.del (p :: t) k = if p.1 = k then Tab.del t k else p :: Tab.del t k := by
  unfold Tab.del
  by_cases h : p.1 = k <;> simp [h]

theorem Tab.get_del_same {α : Type} (dflt : Nat → α) (t : Tab α) (k : Nat) : Tab.get dflt (Tab.del t k) k = dflt k := by
  induction t with
  | nil => rfl
  | cons p t ih =>
    rw [Tab.del_cons]
    by_cases h : p.1 = k
    · rw [if_pos h, ih]
    · rw [if_neg h, Tab.get, if_neg h, ih]

theorem Tab.get_del_other {α : Type} (dflt : Nat → α) (t : Tab α) {j k : Nat} (hjk : j ≠ k) :
    Tab.get dflt (Tab.del t k) j = Tab.get dflt t j := by
  induction t with
  | nil => rfl
  | cons p t ih =>
    rw [Tab.del_cons]
    by_cases h : p.1 = k
    · rw [if_pos h, Tab.get, if_neg (by rw [h]; exact Ne.symm hjk), ih]
    · rw [if_neg h, Tab.get, Tab.get, ih]

theorem Tab.get_ins_same {α : Type} (dflt : Nat → α) (t : Tab α) (k : Nat) (v : α) (h : ∀ p ∈ t, p.1 ≠ k) :
    Tab.get dflt (Tab.ins t k v) k = v := by
  induction t with
  | nil => simp [Tab.ins, Tab.get]
  | cons p t ih =>
    have hp := h p (by simp)
    have ht := ih (fun q hq => h q (by simp [hq]))
    by_cases hk : k < p.1
    · simp [Tab.ins, hk, Tab.get]
    · simp [Tab.ins, hk, Tab.get, hp, ht]

theorem Tab.get_ins_other {α : Type} (dflt : Nat → α) (t : Tab α) {j k : Nat} (v : α) (hjk : j ≠ k) :
    Tab.get dflt (Tab.ins t k v) j = Tab.get dflt t j := by
  induction t with
  | nil => simp [Tab.ins, Tab.get, Ne.symm hjk]
  | cons p t ih =>
    by_cases hk : k < p.1
    · simp [Tab.ins, hk, Tab.get, Ne.symm hjk]
    · simp [Tab.ins, hk, Tab.get, ih]

theorem Tab.del_ne {α : Type} (t : Tab α) (k : Nat) : ∀ p ∈ Tab.del t k, p.1 ≠ k := by
  intro p hp
  unfold Tab.del at hp
  simpa using (List.mem_filter.mp hp).2

/-- A read after a write of the same key gives the value written. -/
@[simp] theorem Tab.get_put_same {α : Type} [DecidableEq α] (dflt : Nat → α) (t : Tab α) (k : Nat) (v : α) :
    Tab.get dflt (Tab.put dflt t k v) k = v := by
  unfold Tab.put
  split
  next h => rw [Tab.get_del_same, h]
  next => exact Tab.get_ins_same dflt _ k v (Tab.del_ne t k)

/-- A write leaves every other key alone. -/
theorem Tab.get_put_other {α : Type} [DecidableEq α] (dflt : Nat → α) (t : Tab α) {j k : Nat} (v : α) (hjk : j ≠ k) :
    Tab.get dflt (Tab.put dflt t k v) j = Tab.get dflt t j := by
  unfold Tab.put
  split
  · exact Tab.get_del_other dflt t hjk
  · rw [Tab.get_ins_other dflt _ v hjk, Tab.get_del_other dflt t hjk]

/-- A read after a write, for every key. -/
theorem Tab.get_put {α : Type} [DecidableEq α] (dflt : Nat → α) (t : Tab α) (j k : Nat) (v : α) :
    Tab.get dflt (Tab.put dflt t k v) j = if j = k then v else Tab.get dflt t j := by
  split
  next h => rw [h, Tab.get_put_same]
  next h => exact Tab.get_put_other dflt t v h

/-- Keys rise from the first pair on. -/
theorem Tab.rising_cons {α : Type} (p : Nat × α) (t : Tab α) :
    Tab.rising (p :: t) = true ↔ (∀ q ∈ t, p.1 < q.1) ∧ Tab.rising t = true := by
  induction t generalizing p with
  | nil => simp [Tab.rising]
  | cons q t ih =>
    have hq := ih q
    obtain ⟨j, v⟩ := p
    obtain ⟨k, w⟩ := q
    simp only [Tab.rising, Bool.and_eq_true, decide_eq_true_eq, List.mem_cons, forall_eq_or_imp]
    constructor
    · intro h
      exact ⟨⟨h.1, fun r hr => Nat.lt_trans h.1 ((hq.mp h.2).1 r hr)⟩, h.2⟩
    · intro h
      exact ⟨h.1.1, h.2⟩

theorem Tab.rising_filter {α : Type} (p : Nat × α → Bool) (t : Tab α) (h : Tab.rising t = true) :
    Tab.rising (t.filter p) = true := by
  induction t with
  | nil => rfl
  | cons q t ih =>
    obtain ⟨h1, h2⟩ := (Tab.rising_cons q t).mp h
    by_cases hp : p q = true
    · rw [List.filter_cons_of_pos hp, Tab.rising_cons]
      exact ⟨fun r hr => h1 r (List.mem_filter.mp hr).1, ih h2⟩
    · rw [List.filter_cons_of_neg hp]
      exact ih h2

theorem Tab.mem_ins {α : Type} (t : Tab α) (k : Nat) (v : α) (q : Nat × α) :
    q ∈ Tab.ins t k v → q = (k, v) ∨ q ∈ t := by
  induction t with
  | nil => simp [Tab.ins]
  | cons p t ih =>
    by_cases hk : k < p.1
    · simp [Tab.ins, hk]
    · simp only [Tab.ins, hk, if_false, List.mem_cons]
      rintro (h | h)
      · exact Or.inr (Or.inl h)
      · rcases ih h with h | h
        · exact Or.inl h
        · exact Or.inr (Or.inr h)

theorem Tab.rising_ins {α : Type} (t : Tab α) (k : Nat) (v : α) (h : Tab.rising t = true) (hk : ∀ p ∈ t, p.1 ≠ k) :
    Tab.rising (Tab.ins t k v) = true := by
  induction t with
  | nil => rfl
  | cons p t ih =>
    obtain ⟨h1, h2⟩ := (Tab.rising_cons p t).mp h
    by_cases hlt : k < p.1
    · simp only [Tab.ins, hlt, if_true]
      rw [Tab.rising_cons]
      refine ⟨?_, h⟩
      intro q hq
      rcases List.mem_cons.mp hq with hq | hq
      · rw [hq]; exact hlt
      · exact Nat.lt_trans hlt (h1 q hq)
    · simp only [Tab.ins, hlt, if_false]
      rw [Tab.rising_cons]
      refine ⟨?_, ih h2 (fun q hq => hk q (List.mem_cons_of_mem _ hq))⟩
      intro q hq
      rcases Tab.mem_ins t k v q hq with hq | hq
      · have := hk p (by simp)
        rw [hq]; simp only; omega
      · exact h1 q hq

/-- A table without some of its entries keeps the canonical form. -/
theorem Tab.wf_filter {α : Type} [DecidableEq α] (dflt : Nat → α) (p : Nat × α → Bool) (t : Tab α)
    (h : Tab.wf dflt t = true) : Tab.wf dflt (t.filter p) = true := by
  unfold Tab.wf at *
  rw [Bool.and_eq_true] at *
  refine ⟨Tab.rising_filter p t h.1, ?_⟩
  rw [List.all_eq_true] at *
  exact fun q hq => h.2 q (List.mem_filter.mp hq).1

/-- A write keeps the canonical form. -/
theorem Tab.wf_put {α : Type} [DecidableEq α] (dflt : Nat → α) (t : Tab α) (k : Nat) (v : α) (h : Tab.wf dflt t = true) :
    Tab.wf dflt (Tab.put dflt t k v) = true := by
  have hd : Tab.wf dflt (Tab.del t k) = true := Tab.wf_filter dflt _ t h
  unfold Tab.put
  split
  · exact hd
  next hv =>
    unfold Tab.wf at *
    rw [Bool.and_eq_true] at *
    refine ⟨Tab.rising_ins _ k v hd.1 (Tab.del_ne t k), ?_⟩
    rw [List.all_eq_true] at *
    intro q hq
    rcases Tab.mem_ins _ k v q hq with hq | hq
    · simpa [hq] using hv
    · exact hd.2 q hq

/-- A canonical table is determined by what it reads as. -/
theorem Tab.get_of_lt {α : Type} (dflt : Nat → α) (t : Tab α) (k : Nat) (h : ∀ p ∈ t, k < p.1) :
    Tab.get dflt t k = dflt k := by
  induction t with
  | nil => rfl
  | cons p t ih =>
    have hp : p.1 ≠ k := Nat.ne_of_gt (h p (by simp))
    simp [Tab.get, hp, ih (fun q hq => h q (by simp [hq]))]

theorem Tab.wf_cons {α : Type} [DecidableEq α] (dflt : Nat → α) (p : Nat × α) (t : Tab α) (h : Tab.wf dflt (p :: t) = true) :
    (∀ q ∈ t, p.1 < q.1) ∧ p.2 ≠ dflt p.1 ∧ Tab.wf dflt t = true := by
  unfold Tab.wf at *
  rw [Bool.and_eq_true, Tab.rising_cons, List.all_cons, Bool.and_eq_true] at h
  exact ⟨h.1.1, by simpa using h.2.1, by rw [Bool.and_eq_true]; exact ⟨h.1.2, h.2.2⟩⟩

/-- Canonical tables that read alike are equal. -/
theorem Tab.ext_wf {α : Type} [DecidableEq α] (dflt : Nat → α) (t u : Tab α) (ht : Tab.wf dflt t = true)
    (hu : Tab.wf dflt u = true) (h : ∀ k : Nat, Tab.get dflt t k = Tab.get dflt u k) : t = u := by
  induction t generalizing u with
  | nil =>
    cases u with
    | nil => rfl
    | cons q u =>
      have := h q.1
      simp [Tab.get] at this
      exact absurd this.symm (Tab.wf_cons dflt q u hu).2.1
  | cons p t ih =>
    obtain ⟨hp1, hp2, hp3⟩ := Tab.wf_cons dflt p t ht
    cases u with
    | nil =>
      have := h p.1
      simp [Tab.get] at this
      exact absurd this hp2
    | cons q u =>
      obtain ⟨hq1, hq2, hq3⟩ := Tab.wf_cons dflt q u hu
      have hk : p.1 = q.1 := by
        rcases Nat.lt_trichotomy p.1 q.1 with hl | he | hl
        · have := h p.1
          rw [Tab.get_of_lt dflt (q :: u) p.1
            (by intro r hr; rcases List.mem_cons.mp hr with hr | hr; · rw [hr]; exact hl
                · exact Nat.lt_trans hl (hq1 r hr))] at this
          simp [Tab.get] at this
          exact absurd this hp2
        · exact he
        · have := h q.1
          rw [Tab.get_of_lt dflt (p :: t) q.1
            (by intro r hr; rcases List.mem_cons.mp hr with hr | hr; · rw [hr]; exact hl
                · exact Nat.lt_trans hl (hp1 r hr))] at this
          simp [Tab.get] at this
          exact absurd this.symm hq2
      have hv : p.2 = q.2 := by
        have := h p.1
        simp only [Tab.get, if_true] at this
        rw [if_pos hk.symm] at this
        exact this
      have htu : t = u := by
        apply ih u hp3 hq3
        intro k
        by_cases hkp : k = p.1
        · rw [hkp, Tab.get_of_lt dflt t p.1 hp1, Tab.get_of_lt dflt u p.1 (by rw [hk]; exact hq1)]
        · have := h k
          simp only [Tab.get] at this
          rwa [if_neg (Ne.symm hkp), if_neg (by rw [← hk]; exact Ne.symm hkp)] at this
      rw [htu, Prod.ext hk hv]

end Sys2Proof.Machine
end

