-- ==== Sys2Proof/Laws/State.lean ====
section
/-!
SUPPORT. What each update leaves alone, field by field, and what reads give after writes.
-/
namespace Sys2Proof.Machine

@[simp] theorem State.withDev_pending (s : State) (d : Dev) : (s.withDev d).pending = s.pending := rfl
@[simp] theorem State.withDev_dev (s : State) (d : Dev) : (s.withDev d).dev = d := rfl
@[simp] theorem State.withDev_vault (s : State) (d : Dev) : (s.withDev d).vault = s.vault := rfl
@[simp] theorem State.withDev_reply (s : State) (d : Dev) : (s.withDev d).reply = s.reply := rfl
@[simp] theorem State.withSys_pending (s : State) (y : Sys) : (s.withSys y).pending = s.pending := rfl
@[simp] theorem State.withSys_dev (s : State) (y : Sys) : (s.withSys y).dev = y.dev := rfl
@[simp] theorem State.withSys_vault (s : State) (y : Sys) : (s.withSys y).vault = y.vault := rfl
@[simp] theorem State.withSys_reply (s : State) (y : Sys) : (s.withSys y).reply = s.reply := rfl
@[simp] theorem State.sys_dev (s : State) : s.sys.dev = s.dev := rfl
@[simp] theorem State.sys_vault (s : State) : s.sys.vault = s.vault := rfl
@[simp] theorem State.withDev_self (s : State) : s.withDev s.dev = s := rfl
@[simp] theorem State.withSys_self (s : State) : s.withSys s.sys = s := rfl

/-! ### setReg -/

@[simp] theorem Dev.setReg_mem (d : Dev) (a : Nat) (v : BitVec 32) : (d.setReg a v).mem = d.mem := rfl
@[simp] theorem Dev.setReg_q (d : Dev) (a : Nat) (v : BitVec 32) : (d.setReg a v).q = d.q := rfl
@[simp] theorem Dev.setReg_smd (d : Dev) (a : Nat) (v : BitVec 32) : (d.setReg a v).smd = d.smd := rfl
@[simp] theorem Dev.setReg_cores (d : Dev) (a : Nat) (v : BitVec 32) : (d.setReg a v).cores = d.cores := rfl
@[simp] theorem Dev.setReg_cx (d : Dev) (a : Nat) (v : BitVec 32) : (d.setReg a v).cx = d.cx := rfl
@[simp] theorem Dev.setReg_movers (d : Dev) (a : Nat) (v : BitVec 32) : (d.setReg a v).movers = d.movers := rfl
@[simp] theorem Dev.setReg_engs (d : Dev) (a : Nat) (v : BitVec 32) : (d.setReg a v).engs = d.engs := rfl
@[simp] theorem Dev.setReg_cph (d : Dev) (a : Nat) (v : BitVec 32) : (d.setReg a v).cph = d.cph := rfl
@[simp] theorem Dev.setReg_wbr (d : Dev) (a : Nat) (v : BitVec 32) : (d.setReg a v).wbr = d.wbr := rfl
@[simp] theorem Dev.setReg_fhn (d : Dev) (a : Nat) (v : BitVec 32) : (d.setReg a v).fhn = d.fhn := rfl
@[simp] theorem Dev.setReg_time (d : Dev) (a : Nat) (v : BitVec 32) : (d.setReg a v).time = d.time := rfl
@[simp] theorem Dev.setReg_obs (d : Dev) (a : Nat) (v : BitVec 32) : (d.setReg a v).obs = d.obs := rfl
@[simp] theorem Dev.setReg_pwr (d : Dev) (a : Nat) (v : BitVec 32) : (d.setReg a v).pwr = d.pwr := rfl
@[simp] theorem Dev.setReg_sup (d : Dev) (a : Nat) (v : BitVec 32) : (d.setReg a v).sup = d.sup := rfl
@[simp] theorem Dev.setReg_cal (d : Dev) (a : Nat) (v : BitVec 32) : (d.setReg a v).cal = d.cal := rfl
@[simp] theorem Dev.setReg_upd (d : Dev) (a : Nat) (v : BitVec 32) : (d.setReg a v).upd = d.upd := rfl
@[simp] theorem Dev.setReg_pins (d : Dev) (a : Nat) (v : BitVec 32) : (d.setReg a v).pins = d.pins := rfl
@[simp] theorem Dev.setReg_dict (d : Dev) (a : Nat) (v : BitVec 32) : (d.setReg a v).dict = d.dict := rfl
@[simp] theorem Dev.setReg_fresh (d : Dev) (a : Nat) (v : BitVec 32) : (d.setReg a v).fresh = d.fresh := rfl

/-! ### setRegN -/

@[simp] theorem Dev.setRegN_mem (d : Dev) (a v : Nat) : (d.setRegN a v).mem = d.mem := rfl
@[simp] theorem Dev.setRegN_q (d : Dev) (a v : Nat) : (d.setRegN a v).q = d.q := rfl
@[simp] theorem Dev.setRegN_smd (d : Dev) (a v : Nat) : (d.setRegN a v).smd = d.smd := rfl
@[simp] theorem Dev.setRegN_cores (d : Dev) (a v : Nat) : (d.setRegN a v).cores = d.cores := rfl
@[simp] theorem Dev.setRegN_cx (d : Dev) (a v : Nat) : (d.setRegN a v).cx = d.cx := rfl
@[simp] theorem Dev.setRegN_movers (d : Dev) (a v : Nat) : (d.setRegN a v).movers = d.movers := rfl
@[simp] theorem Dev.setRegN_engs (d : Dev) (a v : Nat) : (d.setRegN a v).engs = d.engs := rfl
@[simp] theorem Dev.setRegN_cph (d : Dev) (a v : Nat) : (d.setRegN a v).cph = d.cph := rfl
@[simp] theorem Dev.setRegN_wbr (d : Dev) (a v : Nat) : (d.setRegN a v).wbr = d.wbr := rfl
@[simp] theorem Dev.setRegN_fhn (d : Dev) (a v : Nat) : (d.setRegN a v).fhn = d.fhn := rfl
@[simp] theorem Dev.setRegN_time (d : Dev) (a v : Nat) : (d.setRegN a v).time = d.time := rfl
@[simp] theorem Dev.setRegN_obs (d : Dev) (a v : Nat) : (d.setRegN a v).obs = d.obs := rfl
@[simp] theorem Dev.setRegN_pwr (d : Dev) (a v : Nat) : (d.setRegN a v).pwr = d.pwr := rfl
@[simp] theorem Dev.setRegN_sup (d : Dev) (a v : Nat) : (d.setRegN a v).sup = d.sup := rfl
@[simp] theorem Dev.setRegN_cal (d : Dev) (a v : Nat) : (d.setRegN a v).cal = d.cal := rfl
@[simp] theorem Dev.setRegN_upd (d : Dev) (a v : Nat) : (d.setRegN a v).upd = d.upd := rfl
@[simp] theorem Dev.setRegN_pins (d : Dev) (a v : Nat) : (d.setRegN a v).pins = d.pins := rfl
@[simp] theorem Dev.setRegN_dict (d : Dev) (a v : Nat) : (d.setRegN a v).dict = d.dict := rfl
@[simp] theorem Dev.setRegN_fresh (d : Dev) (a v : Nat) : (d.setRegN a v).fresh = d.fresh := rfl

/-! ### setReg64 -/

@[simp] theorem Dev.setReg64_mem (d : Dev) (a v : Nat) : (d.setReg64 a v).mem = d.mem := rfl
@[simp] theorem Dev.setReg64_q (d : Dev) (a v : Nat) : (d.setReg64 a v).q = d.q := rfl
@[simp] theorem Dev.setReg64_smd (d : Dev) (a v : Nat) : (d.setReg64 a v).smd = d.smd := rfl
@[simp] theorem Dev.setReg64_cores (d : Dev) (a v : Nat) : (d.setReg64 a v).cores = d.cores := rfl
@[simp] theorem Dev.setReg64_cx (d : Dev) (a v : Nat) : (d.setReg64 a v).cx = d.cx := rfl
@[simp] theorem Dev.setReg64_movers (d : Dev) (a v : Nat) : (d.setReg64 a v).movers = d.movers := rfl
@[simp] theorem Dev.setReg64_engs (d : Dev) (a v : Nat) : (d.setReg64 a v).engs = d.engs := rfl
@[simp] theorem Dev.setReg64_cph (d : Dev) (a v : Nat) : (d.setReg64 a v).cph = d.cph := rfl
@[simp] theorem Dev.setReg64_wbr (d : Dev) (a v : Nat) : (d.setReg64 a v).wbr = d.wbr := rfl
@[simp] theorem Dev.setReg64_fhn (d : Dev) (a v : Nat) : (d.setReg64 a v).fhn = d.fhn := rfl
@[simp] theorem Dev.setReg64_time (d : Dev) (a v : Nat) : (d.setReg64 a v).time = d.time := rfl
@[simp] theorem Dev.setReg64_obs (d : Dev) (a v : Nat) : (d.setReg64 a v).obs = d.obs := rfl
@[simp] theorem Dev.setReg64_pwr (d : Dev) (a v : Nat) : (d.setReg64 a v).pwr = d.pwr := rfl
@[simp] theorem Dev.setReg64_sup (d : Dev) (a v : Nat) : (d.setReg64 a v).sup = d.sup := rfl
@[simp] theorem Dev.setReg64_cal (d : Dev) (a v : Nat) : (d.setReg64 a v).cal = d.cal := rfl
@[simp] theorem Dev.setReg64_upd (d : Dev) (a v : Nat) : (d.setReg64 a v).upd = d.upd := rfl
@[simp] theorem Dev.setReg64_pins (d : Dev) (a v : Nat) : (d.setReg64 a v).pins = d.pins := rfl
@[simp] theorem Dev.setReg64_dict (d : Dev) (a v : Nat) : (d.setReg64 a v).dict = d.dict := rfl
@[simp] theorem Dev.setReg64_fresh (d : Dev) (a v : Nat) : (d.setReg64 a v).fresh = d.fresh := rfl

/-! ### bumpBy -/

@[simp] theorem Dev.bumpBy_mem (d : Dev) (a n : Nat) : (d.bumpBy a n).mem = d.mem := rfl
@[simp] theorem Dev.bumpBy_q (d : Dev) (a n : Nat) : (d.bumpBy a n).q = d.q := rfl
@[simp] theorem Dev.bumpBy_smd (d : Dev) (a n : Nat) : (d.bumpBy a n).smd = d.smd := rfl
@[simp] theorem Dev.bumpBy_cores (d : Dev) (a n : Nat) : (d.bumpBy a n).cores = d.cores := rfl
@[simp] theorem Dev.bumpBy_cx (d : Dev) (a n : Nat) : (d.bumpBy a n).cx = d.cx := rfl
@[simp] theorem Dev.bumpBy_movers (d : Dev) (a n : Nat) : (d.bumpBy a n).movers = d.movers := rfl
@[simp] theorem Dev.bumpBy_engs (d : Dev) (a n : Nat) : (d.bumpBy a n).engs = d.engs := rfl
@[simp] theorem Dev.bumpBy_cph (d : Dev) (a n : Nat) : (d.bumpBy a n).cph = d.cph := rfl
@[simp] theorem Dev.bumpBy_wbr (d : Dev) (a n : Nat) : (d.bumpBy a n).wbr = d.wbr := rfl
@[simp] theorem Dev.bumpBy_fhn (d : Dev) (a n : Nat) : (d.bumpBy a n).fhn = d.fhn := rfl
@[simp] theorem Dev.bumpBy_time (d : Dev) (a n : Nat) : (d.bumpBy a n).time = d.time := rfl
@[simp] theorem Dev.bumpBy_obs (d : Dev) (a n : Nat) : (d.bumpBy a n).obs = d.obs := rfl
@[simp] theorem Dev.bumpBy_pwr (d : Dev) (a n : Nat) : (d.bumpBy a n).pwr = d.pwr := rfl
@[simp] theorem Dev.bumpBy_sup (d : Dev) (a n : Nat) : (d.bumpBy a n).sup = d.sup := rfl
@[simp] theorem Dev.bumpBy_cal (d : Dev) (a n : Nat) : (d.bumpBy a n).cal = d.cal := rfl
@[simp] theorem Dev.bumpBy_upd (d : Dev) (a n : Nat) : (d.bumpBy a n).upd = d.upd := rfl
@[simp] theorem Dev.bumpBy_pins (d : Dev) (a n : Nat) : (d.bumpBy a n).pins = d.pins := rfl
@[simp] theorem Dev.bumpBy_dict (d : Dev) (a n : Nat) : (d.bumpBy a n).dict = d.dict := rfl
@[simp] theorem Dev.bumpBy_fresh (d : Dev) (a n : Nat) : (d.bumpBy a n).fresh = d.fresh := rfl

/-! ### bump -/

@[simp] theorem Dev.bump_mem (d : Dev) (a : Nat) : (d.bump a).mem = d.mem := rfl
@[simp] theorem Dev.bump_q (d : Dev) (a : Nat) : (d.bump a).q = d.q := rfl
@[simp] theorem Dev.bump_smd (d : Dev) (a : Nat) : (d.bump a).smd = d.smd := rfl
@[simp] theorem Dev.bump_cores (d : Dev) (a : Nat) : (d.bump a).cores = d.cores := rfl
@[simp] theorem Dev.bump_cx (d : Dev) (a : Nat) : (d.bump a).cx = d.cx := rfl
@[simp] theorem Dev.bump_movers (d : Dev) (a : Nat) : (d.bump a).movers = d.movers := rfl
@[simp] theorem Dev.bump_engs (d : Dev) (a : Nat) : (d.bump a).engs = d.engs := rfl
@[simp] theorem Dev.bump_cph (d : Dev) (a : Nat) : (d.bump a).cph = d.cph := rfl
@[simp] theorem Dev.bump_wbr (d : Dev) (a : Nat) : (d.bump a).wbr = d.wbr := rfl
@[simp] theorem Dev.bump_fhn (d : Dev) (a : Nat) : (d.bump a).fhn = d.fhn := rfl
@[simp] theorem Dev.bump_time (d : Dev) (a : Nat) : (d.bump a).time = d.time := rfl
@[simp] theorem Dev.bump_obs (d : Dev) (a : Nat) : (d.bump a).obs = d.obs := rfl
@[simp] theorem Dev.bump_pwr (d : Dev) (a : Nat) : (d.bump a).pwr = d.pwr := rfl
@[simp] theorem Dev.bump_sup (d : Dev) (a : Nat) : (d.bump a).sup = d.sup := rfl
@[simp] theorem Dev.bump_cal (d : Dev) (a : Nat) : (d.bump a).cal = d.cal := rfl
@[simp] theorem Dev.bump_upd (d : Dev) (a : Nat) : (d.bump a).upd = d.upd := rfl
@[simp] theorem Dev.bump_pins (d : Dev) (a : Nat) : (d.bump a).pins = d.pins := rfl
@[simp] theorem Dev.bump_dict (d : Dev) (a : Nat) : (d.bump a).dict = d.dict := rfl
@[simp] theorem Dev.bump_fresh (d : Dev) (a : Nat) : (d.bump a).fresh = d.fresh := rfl

/-! ### bump32 -/

@[simp] theorem Dev.bump32_mem (d : Dev) (a : Nat) : (d.bump32 a).mem = d.mem := rfl
@[simp] theorem Dev.bump32_q (d : Dev) (a : Nat) : (d.bump32 a).q = d.q := rfl
@[simp] theorem Dev.bump32_smd (d : Dev) (a : Nat) : (d.bump32 a).smd = d.smd := rfl
@[simp] theorem Dev.bump32_cores (d : Dev) (a : Nat) : (d.bump32 a).cores = d.cores := rfl
@[simp] theorem Dev.bump32_cx (d : Dev) (a : Nat) : (d.bump32 a).cx = d.cx := rfl
@[simp] theorem Dev.bump32_movers (d : Dev) (a : Nat) : (d.bump32 a).movers = d.movers := rfl
@[simp] theorem Dev.bump32_engs (d : Dev) (a : Nat) : (d.bump32 a).engs = d.engs := rfl
@[simp] theorem Dev.bump32_cph (d : Dev) (a : Nat) : (d.bump32 a).cph = d.cph := rfl
@[simp] theorem Dev.bump32_wbr (d : Dev) (a : Nat) : (d.bump32 a).wbr = d.wbr := rfl
@[simp] theorem Dev.bump32_fhn (d : Dev) (a : Nat) : (d.bump32 a).fhn = d.fhn := rfl
@[simp] theorem Dev.bump32_time (d : Dev) (a : Nat) : (d.bump32 a).time = d.time := rfl
@[simp] theorem Dev.bump32_obs (d : Dev) (a : Nat) : (d.bump32 a).obs = d.obs := rfl
@[simp] theorem Dev.bump32_pwr (d : Dev) (a : Nat) : (d.bump32 a).pwr = d.pwr := rfl
@[simp] theorem Dev.bump32_sup (d : Dev) (a : Nat) : (d.bump32 a).sup = d.sup := rfl
@[simp] theorem Dev.bump32_cal (d : Dev) (a : Nat) : (d.bump32 a).cal = d.cal := rfl
@[simp] theorem Dev.bump32_upd (d : Dev) (a : Nat) : (d.bump32 a).upd = d.upd := rfl
@[simp] theorem Dev.bump32_pins (d : Dev) (a : Nat) : (d.bump32 a).pins = d.pins := rfl
@[simp] theorem Dev.bump32_dict (d : Dev) (a : Nat) : (d.bump32 a).dict = d.dict := rfl
@[simp] theorem Dev.bump32_fresh (d : Dev) (a : Nat) : (d.bump32 a).fresh = d.fresh := rfl

/-! ### setBits -/

@[simp] theorem Dev.setBits_mem (d : Dev) (a m : Nat) : (d.setBits a m).mem = d.mem := rfl
@[simp] theorem Dev.setBits_q (d : Dev) (a m : Nat) : (d.setBits a m).q = d.q := rfl
@[simp] theorem Dev.setBits_smd (d : Dev) (a m : Nat) : (d.setBits a m).smd = d.smd := rfl
@[simp] theorem Dev.setBits_cores (d : Dev) (a m : Nat) : (d.setBits a m).cores = d.cores := rfl
@[simp] theorem Dev.setBits_cx (d : Dev) (a m : Nat) : (d.setBits a m).cx = d.cx := rfl
@[simp] theorem Dev.setBits_movers (d : Dev) (a m : Nat) : (d.setBits a m).movers = d.movers := rfl
@[simp] theorem Dev.setBits_engs (d : Dev) (a m : Nat) : (d.setBits a m).engs = d.engs := rfl
@[simp] theorem Dev.setBits_cph (d : Dev) (a m : Nat) : (d.setBits a m).cph = d.cph := rfl
@[simp] theorem Dev.setBits_wbr (d : Dev) (a m : Nat) : (d.setBits a m).wbr = d.wbr := rfl
@[simp] theorem Dev.setBits_fhn (d : Dev) (a m : Nat) : (d.setBits a m).fhn = d.fhn := rfl
@[simp] theorem Dev.setBits_time (d : Dev) (a m : Nat) : (d.setBits a m).time = d.time := rfl
@[simp] theorem Dev.setBits_obs (d : Dev) (a m : Nat) : (d.setBits a m).obs = d.obs := rfl
@[simp] theorem Dev.setBits_pwr (d : Dev) (a m : Nat) : (d.setBits a m).pwr = d.pwr := rfl
@[simp] theorem Dev.setBits_sup (d : Dev) (a m : Nat) : (d.setBits a m).sup = d.sup := rfl
@[simp] theorem Dev.setBits_cal (d : Dev) (a m : Nat) : (d.setBits a m).cal = d.cal := rfl
@[simp] theorem Dev.setBits_upd (d : Dev) (a m : Nat) : (d.setBits a m).upd = d.upd := rfl
@[simp] theorem Dev.setBits_pins (d : Dev) (a m : Nat) : (d.setBits a m).pins = d.pins := rfl
@[simp] theorem Dev.setBits_dict (d : Dev) (a m : Nat) : (d.setBits a m).dict = d.dict := rfl
@[simp] theorem Dev.setBits_fresh (d : Dev) (a m : Nat) : (d.setBits a m).fresh = d.fresh := rfl

/-! ### setCore -/

@[simp] theorem Dev.setCore_regs (d : Dev) (c : Nat) (k : Core) : (d.setCore c k).regs = d.regs := rfl
@[simp] theorem Dev.setCore_mem (d : Dev) (c : Nat) (k : Core) : (d.setCore c k).mem = d.mem := rfl
@[simp] theorem Dev.setCore_q (d : Dev) (c : Nat) (k : Core) : (d.setCore c k).q = d.q := rfl
@[simp] theorem Dev.setCore_smd (d : Dev) (c : Nat) (k : Core) : (d.setCore c k).smd = d.smd := rfl
@[simp] theorem Dev.setCore_cx (d : Dev) (c : Nat) (k : Core) : (d.setCore c k).cx = d.cx := rfl
@[simp] theorem Dev.setCore_movers (d : Dev) (c : Nat) (k : Core) : (d.setCore c k).movers = d.movers := rfl
@[simp] theorem Dev.setCore_engs (d : Dev) (c : Nat) (k : Core) : (d.setCore c k).engs = d.engs := rfl
@[simp] theorem Dev.setCore_cph (d : Dev) (c : Nat) (k : Core) : (d.setCore c k).cph = d.cph := rfl
@[simp] theorem Dev.setCore_wbr (d : Dev) (c : Nat) (k : Core) : (d.setCore c k).wbr = d.wbr := rfl
@[simp] theorem Dev.setCore_fhn (d : Dev) (c : Nat) (k : Core) : (d.setCore c k).fhn = d.fhn := rfl
@[simp] theorem Dev.setCore_time (d : Dev) (c : Nat) (k : Core) : (d.setCore c k).time = d.time := rfl
@[simp] theorem Dev.setCore_obs (d : Dev) (c : Nat) (k : Core) : (d.setCore c k).obs = d.obs := rfl
@[simp] theorem Dev.setCore_pwr (d : Dev) (c : Nat) (k : Core) : (d.setCore c k).pwr = d.pwr := rfl
@[simp] theorem Dev.setCore_sup (d : Dev) (c : Nat) (k : Core) : (d.setCore c k).sup = d.sup := rfl
@[simp] theorem Dev.setCore_cal (d : Dev) (c : Nat) (k : Core) : (d.setCore c k).cal = d.cal := rfl
@[simp] theorem Dev.setCore_upd (d : Dev) (c : Nat) (k : Core) : (d.setCore c k).upd = d.upd := rfl
@[simp] theorem Dev.setCore_pins (d : Dev) (c : Nat) (k : Core) : (d.setCore c k).pins = d.pins := rfl
@[simp] theorem Dev.setCore_dict (d : Dev) (c : Nat) (k : Core) : (d.setCore c k).dict = d.dict := rfl
@[simp] theorem Dev.setCore_fresh (d : Dev) (c : Nat) (k : Core) : (d.setCore c k).fresh = d.fresh := rfl

/-! ### setMover -/

@[simp] theorem Dev.setMover_regs (d : Dev) (m : Nat) (v : Mover) : (d.setMover m v).regs = d.regs := rfl
@[simp] theorem Dev.setMover_mem (d : Dev) (m : Nat) (v : Mover) : (d.setMover m v).mem = d.mem := rfl
@[simp] theorem Dev.setMover_q (d : Dev) (m : Nat) (v : Mover) : (d.setMover m v).q = d.q := rfl
@[simp] theorem Dev.setMover_smd (d : Dev) (m : Nat) (v : Mover) : (d.setMover m v).smd = d.smd := rfl
@[simp] theorem Dev.setMover_cores (d : Dev) (m : Nat) (v : Mover) : (d.setMover m v).cores = d.cores := rfl
@[simp] theorem Dev.setMover_cx (d : Dev) (m : Nat) (v : Mover) : (d.setMover m v).cx = d.cx := rfl
@[simp] theorem Dev.setMover_engs (d : Dev) (m : Nat) (v : Mover) : (d.setMover m v).engs = d.engs := rfl
@[simp] theorem Dev.setMover_cph (d : Dev) (m : Nat) (v : Mover) : (d.setMover m v).cph = d.cph := rfl
@[simp] theorem Dev.setMover_wbr (d : Dev) (m : Nat) (v : Mover) : (d.setMover m v).wbr = d.wbr := rfl
@[simp] theorem Dev.setMover_fhn (d : Dev) (m : Nat) (v : Mover) : (d.setMover m v).fhn = d.fhn := rfl
@[simp] theorem Dev.setMover_time (d : Dev) (m : Nat) (v : Mover) : (d.setMover m v).time = d.time := rfl
@[simp] theorem Dev.setMover_obs (d : Dev) (m : Nat) (v : Mover) : (d.setMover m v).obs = d.obs := rfl
@[simp] theorem Dev.setMover_pwr (d : Dev) (m : Nat) (v : Mover) : (d.setMover m v).pwr = d.pwr := rfl
@[simp] theorem Dev.setMover_sup (d : Dev) (m : Nat) (v : Mover) : (d.setMover m v).sup = d.sup := rfl
@[simp] theorem Dev.setMover_cal (d : Dev) (m : Nat) (v : Mover) : (d.setMover m v).cal = d.cal := rfl
@[simp] theorem Dev.setMover_upd (d : Dev) (m : Nat) (v : Mover) : (d.setMover m v).upd = d.upd := rfl
@[simp] theorem Dev.setMover_pins (d : Dev) (m : Nat) (v : Mover) : (d.setMover m v).pins = d.pins := rfl
@[simp] theorem Dev.setMover_dict (d : Dev) (m : Nat) (v : Mover) : (d.setMover m v).dict = d.dict := rfl
@[simp] theorem Dev.setMover_fresh (d : Dev) (m : Nat) (v : Mover) : (d.setMover m v).fresh = d.fresh := rfl

/-! ### setChan -/

@[simp] theorem Dev.setChan_regs (d : Dev) (m k : Nat) (v : Chan) : (d.setChan m k v).regs = d.regs := rfl
@[simp] theorem Dev.setChan_mem (d : Dev) (m k : Nat) (v : Chan) : (d.setChan m k v).mem = d.mem := rfl
@[simp] theorem Dev.setChan_q (d : Dev) (m k : Nat) (v : Chan) : (d.setChan m k v).q = d.q := rfl
@[simp] theorem Dev.setChan_smd (d : Dev) (m k : Nat) (v : Chan) : (d.setChan m k v).smd = d.smd := rfl
@[simp] theorem Dev.setChan_cores (d : Dev) (m k : Nat) (v : Chan) : (d.setChan m k v).cores = d.cores := rfl
@[simp] theorem Dev.setChan_cx (d : Dev) (m k : Nat) (v : Chan) : (d.setChan m k v).cx = d.cx := rfl
@[simp] theorem Dev.setChan_engs (d : Dev) (m k : Nat) (v : Chan) : (d.setChan m k v).engs = d.engs := rfl
@[simp] theorem Dev.setChan_cph (d : Dev) (m k : Nat) (v : Chan) : (d.setChan m k v).cph = d.cph := rfl
@[simp] theorem Dev.setChan_wbr (d : Dev) (m k : Nat) (v : Chan) : (d.setChan m k v).wbr = d.wbr := rfl
@[simp] theorem Dev.setChan_fhn (d : Dev) (m k : Nat) (v : Chan) : (d.setChan m k v).fhn = d.fhn := rfl
@[simp] theorem Dev.setChan_time (d : Dev) (m k : Nat) (v : Chan) : (d.setChan m k v).time = d.time := rfl
@[simp] theorem Dev.setChan_obs (d : Dev) (m k : Nat) (v : Chan) : (d.setChan m k v).obs = d.obs := rfl
@[simp] theorem Dev.setChan_pwr (d : Dev) (m k : Nat) (v : Chan) : (d.setChan m k v).pwr = d.pwr := rfl
@[simp] theorem Dev.setChan_sup (d : Dev) (m k : Nat) (v : Chan) : (d.setChan m k v).sup = d.sup := rfl
@[simp] theorem Dev.setChan_cal (d : Dev) (m k : Nat) (v : Chan) : (d.setChan m k v).cal = d.cal := rfl
@[simp] theorem Dev.setChan_upd (d : Dev) (m k : Nat) (v : Chan) : (d.setChan m k v).upd = d.upd := rfl
@[simp] theorem Dev.setChan_pins (d : Dev) (m k : Nat) (v : Chan) : (d.setChan m k v).pins = d.pins := rfl
@[simp] theorem Dev.setChan_dict (d : Dev) (m k : Nat) (v : Chan) : (d.setChan m k v).dict = d.dict := rfl
@[simp] theorem Dev.setChan_fresh (d : Dev) (m k : Nat) (v : Chan) : (d.setChan m k v).fresh = d.fresh := rfl

/-! ### setQueue -/

@[simp] theorem Dev.setQueue_regs (d : Dev) (n : Nat) (v : Queue) : (d.setQueue n v).regs = d.regs := rfl
@[simp] theorem Dev.setQueue_mem (d : Dev) (n : Nat) (v : Queue) : (d.setQueue n v).mem = d.mem := rfl
@[simp] theorem Dev.setQueue_smd (d : Dev) (n : Nat) (v : Queue) : (d.setQueue n v).smd = d.smd := rfl
@[simp] theorem Dev.setQueue_cores (d : Dev) (n : Nat) (v : Queue) : (d.setQueue n v).cores = d.cores := rfl
@[simp] theorem Dev.setQueue_cx (d : Dev) (n : Nat) (v : Queue) : (d.setQueue n v).cx = d.cx := rfl
@[simp] theorem Dev.setQueue_movers (d : Dev) (n : Nat) (v : Queue) : (d.setQueue n v).movers = d.movers := rfl
@[simp] theorem Dev.setQueue_engs (d : Dev) (n : Nat) (v : Queue) : (d.setQueue n v).engs = d.engs := rfl
@[simp] theorem Dev.setQueue_cph (d : Dev) (n : Nat) (v : Queue) : (d.setQueue n v).cph = d.cph := rfl
@[simp] theorem Dev.setQueue_wbr (d : Dev) (n : Nat) (v : Queue) : (d.setQueue n v).wbr = d.wbr := rfl
@[simp] theorem Dev.setQueue_fhn (d : Dev) (n : Nat) (v : Queue) : (d.setQueue n v).fhn = d.fhn := rfl
@[simp] theorem Dev.setQueue_time (d : Dev) (n : Nat) (v : Queue) : (d.setQueue n v).time = d.time := rfl
@[simp] theorem Dev.setQueue_obs (d : Dev) (n : Nat) (v : Queue) : (d.setQueue n v).obs = d.obs := rfl
@[simp] theorem Dev.setQueue_pwr (d : Dev) (n : Nat) (v : Queue) : (d.setQueue n v).pwr = d.pwr := rfl
@[simp] theorem Dev.setQueue_sup (d : Dev) (n : Nat) (v : Queue) : (d.setQueue n v).sup = d.sup := rfl
@[simp] theorem Dev.setQueue_cal (d : Dev) (n : Nat) (v : Queue) : (d.setQueue n v).cal = d.cal := rfl
@[simp] theorem Dev.setQueue_upd (d : Dev) (n : Nat) (v : Queue) : (d.setQueue n v).upd = d.upd := rfl
@[simp] theorem Dev.setQueue_pins (d : Dev) (n : Nat) (v : Queue) : (d.setQueue n v).pins = d.pins := rfl
@[simp] theorem Dev.setQueue_dict (d : Dev) (n : Nat) (v : Queue) : (d.setQueue n v).dict = d.dict := rfl
@[simp] theorem Dev.setQueue_fresh (d : Dev) (n : Nat) (v : Queue) : (d.setQueue n v).fresh = d.fresh := rfl

/-! ### setSlot -/

@[simp] theorem Dev.setSlot_regs (d : Dev) (i : Nat) (v : Slot) : (d.setSlot i v).regs = d.regs := rfl
@[simp] theorem Dev.setSlot_mem (d : Dev) (i : Nat) (v : Slot) : (d.setSlot i v).mem = d.mem := rfl
@[simp] theorem Dev.setSlot_q (d : Dev) (i : Nat) (v : Slot) : (d.setSlot i v).q = d.q := rfl
@[simp] theorem Dev.setSlot_cores (d : Dev) (i : Nat) (v : Slot) : (d.setSlot i v).cores = d.cores := rfl
@[simp] theorem Dev.setSlot_cx (d : Dev) (i : Nat) (v : Slot) : (d.setSlot i v).cx = d.cx := rfl
@[simp] theorem Dev.setSlot_movers (d : Dev) (i : Nat) (v : Slot) : (d.setSlot i v).movers = d.movers := rfl
@[simp] theorem Dev.setSlot_engs (d : Dev) (i : Nat) (v : Slot) : (d.setSlot i v).engs = d.engs := rfl
@[simp] theorem Dev.setSlot_cph (d : Dev) (i : Nat) (v : Slot) : (d.setSlot i v).cph = d.cph := rfl
@[simp] theorem Dev.setSlot_wbr (d : Dev) (i : Nat) (v : Slot) : (d.setSlot i v).wbr = d.wbr := rfl
@[simp] theorem Dev.setSlot_fhn (d : Dev) (i : Nat) (v : Slot) : (d.setSlot i v).fhn = d.fhn := rfl
@[simp] theorem Dev.setSlot_time (d : Dev) (i : Nat) (v : Slot) : (d.setSlot i v).time = d.time := rfl
@[simp] theorem Dev.setSlot_obs (d : Dev) (i : Nat) (v : Slot) : (d.setSlot i v).obs = d.obs := rfl
@[simp] theorem Dev.setSlot_pwr (d : Dev) (i : Nat) (v : Slot) : (d.setSlot i v).pwr = d.pwr := rfl
@[simp] theorem Dev.setSlot_sup (d : Dev) (i : Nat) (v : Slot) : (d.setSlot i v).sup = d.sup := rfl
@[simp] theorem Dev.setSlot_cal (d : Dev) (i : Nat) (v : Slot) : (d.setSlot i v).cal = d.cal := rfl
@[simp] theorem Dev.setSlot_upd (d : Dev) (i : Nat) (v : Slot) : (d.setSlot i v).upd = d.upd := rfl
@[simp] theorem Dev.setSlot_pins (d : Dev) (i : Nat) (v : Slot) : (d.setSlot i v).pins = d.pins := rfl
@[simp] theorem Dev.setSlot_dict (d : Dev) (i : Nat) (v : Slot) : (d.setSlot i v).dict = d.dict := rfl
@[simp] theorem Dev.setSlot_fresh (d : Dev) (i : Nat) (v : Slot) : (d.setSlot i v).fresh = d.fresh := rfl

/-! ### setAttached -/

@[simp] theorem Dev.setAttached_regs (d : Dev) (k : Nat) (v : Attached) : (d.setAttached k v).regs = d.regs := rfl
@[simp] theorem Dev.setAttached_mem (d : Dev) (k : Nat) (v : Attached) : (d.setAttached k v).mem = d.mem := rfl
@[simp] theorem Dev.setAttached_q (d : Dev) (k : Nat) (v : Attached) : (d.setAttached k v).q = d.q := rfl
@[simp] theorem Dev.setAttached_smd (d : Dev) (k : Nat) (v : Attached) : (d.setAttached k v).smd = d.smd := rfl
@[simp] theorem Dev.setAttached_cores (d : Dev) (k : Nat) (v : Attached) : (d.setAttached k v).cores = d.cores := rfl
@[simp] theorem Dev.setAttached_movers (d : Dev) (k : Nat) (v : Attached) : (d.setAttached k v).movers = d.movers := rfl
@[simp] theorem Dev.setAttached_engs (d : Dev) (k : Nat) (v : Attached) : (d.setAttached k v).engs = d.engs := rfl
@[simp] theorem Dev.setAttached_cph (d : Dev) (k : Nat) (v : Attached) : (d.setAttached k v).cph = d.cph := rfl
@[simp] theorem Dev.setAttached_wbr (d : Dev) (k : Nat) (v : Attached) : (d.setAttached k v).wbr = d.wbr := rfl
@[simp] theorem Dev.setAttached_fhn (d : Dev) (k : Nat) (v : Attached) : (d.setAttached k v).fhn = d.fhn := rfl
@[simp] theorem Dev.setAttached_time (d : Dev) (k : Nat) (v : Attached) : (d.setAttached k v).time = d.time := rfl
@[simp] theorem Dev.setAttached_obs (d : Dev) (k : Nat) (v : Attached) : (d.setAttached k v).obs = d.obs := rfl
@[simp] theorem Dev.setAttached_pwr (d : Dev) (k : Nat) (v : Attached) : (d.setAttached k v).pwr = d.pwr := rfl
@[simp] theorem Dev.setAttached_sup (d : Dev) (k : Nat) (v : Attached) : (d.setAttached k v).sup = d.sup := rfl
@[simp] theorem Dev.setAttached_cal (d : Dev) (k : Nat) (v : Attached) : (d.setAttached k v).cal = d.cal := rfl
@[simp] theorem Dev.setAttached_upd (d : Dev) (k : Nat) (v : Attached) : (d.setAttached k v).upd = d.upd := rfl
@[simp] theorem Dev.setAttached_pins (d : Dev) (k : Nat) (v : Attached) : (d.setAttached k v).pins = d.pins := rfl
@[simp] theorem Dev.setAttached_dict (d : Dev) (k : Nat) (v : Attached) : (d.setAttached k v).dict = d.dict := rfl
@[simp] theorem Dev.setAttached_fresh (d : Dev) (k : Nat) (v : Attached) : (d.setAttached k v).fresh = d.fresh := rfl

/-! ### setEng -/

@[simp] theorem Dev.setEng_regs (d : Dev) (cls u : Nat) (e : Engine) : (d.setEng cls u e).regs = d.regs := rfl
@[simp] theorem Dev.setEng_mem (d : Dev) (cls u : Nat) (e : Engine) : (d.setEng cls u e).mem = d.mem := rfl
@[simp] theorem Dev.setEng_q (d : Dev) (cls u : Nat) (e : Engine) : (d.setEng cls u e).q = d.q := rfl
@[simp] theorem Dev.setEng_smd (d : Dev) (cls u : Nat) (e : Engine) : (d.setEng cls u e).smd = d.smd := rfl
@[simp] theorem Dev.setEng_cores (d : Dev) (cls u : Nat) (e : Engine) : (d.setEng cls u e).cores = d.cores := rfl
@[simp] theorem Dev.setEng_cx (d : Dev) (cls u : Nat) (e : Engine) : (d.setEng cls u e).cx = d.cx := rfl
@[simp] theorem Dev.setEng_movers (d : Dev) (cls u : Nat) (e : Engine) : (d.setEng cls u e).movers = d.movers := rfl
@[simp] theorem Dev.setEng_cph (d : Dev) (cls u : Nat) (e : Engine) : (d.setEng cls u e).cph = d.cph := rfl
@[simp] theorem Dev.setEng_wbr (d : Dev) (cls u : Nat) (e : Engine) : (d.setEng cls u e).wbr = d.wbr := rfl
@[simp] theorem Dev.setEng_fhn (d : Dev) (cls u : Nat) (e : Engine) : (d.setEng cls u e).fhn = d.fhn := rfl
@[simp] theorem Dev.setEng_time (d : Dev) (cls u : Nat) (e : Engine) : (d.setEng cls u e).time = d.time := rfl
@[simp] theorem Dev.setEng_obs (d : Dev) (cls u : Nat) (e : Engine) : (d.setEng cls u e).obs = d.obs := rfl
@[simp] theorem Dev.setEng_pwr (d : Dev) (cls u : Nat) (e : Engine) : (d.setEng cls u e).pwr = d.pwr := rfl
@[simp] theorem Dev.setEng_sup (d : Dev) (cls u : Nat) (e : Engine) : (d.setEng cls u e).sup = d.sup := rfl
@[simp] theorem Dev.setEng_cal (d : Dev) (cls u : Nat) (e : Engine) : (d.setEng cls u e).cal = d.cal := rfl
@[simp] theorem Dev.setEng_upd (d : Dev) (cls u : Nat) (e : Engine) : (d.setEng cls u e).upd = d.upd := rfl
@[simp] theorem Dev.setEng_pins (d : Dev) (cls u : Nat) (e : Engine) : (d.setEng cls u e).pins = d.pins := rfl
@[simp] theorem Dev.setEng_dict (d : Dev) (cls u : Nat) (e : Engine) : (d.setEng cls u e).dict = d.dict := rfl
@[simp] theorem Dev.setEng_fresh (d : Dev) (cls u : Nat) (e : Engine) : (d.setEng cls u e).fresh = d.fresh := rfl

/-! ### used -/

@[simp] theorem Dev.used_regs (d : Dev) : d.used.regs = d.regs := rfl
@[simp] theorem Dev.used_mem (d : Dev) : d.used.mem = d.mem := rfl
@[simp] theorem Dev.used_q (d : Dev) : d.used.q = d.q := rfl
@[simp] theorem Dev.used_smd (d : Dev) : d.used.smd = d.smd := rfl
@[simp] theorem Dev.used_cores (d : Dev) : d.used.cores = d.cores := rfl
@[simp] theorem Dev.used_cx (d : Dev) : d.used.cx = d.cx := rfl
@[simp] theorem Dev.used_movers (d : Dev) : d.used.movers = d.movers := rfl
@[simp] theorem Dev.used_engs (d : Dev) : d.used.engs = d.engs := rfl
@[simp] theorem Dev.used_cph (d : Dev) : d.used.cph = d.cph := rfl
@[simp] theorem Dev.used_wbr (d : Dev) : d.used.wbr = d.wbr := rfl
@[simp] theorem Dev.used_fhn (d : Dev) : d.used.fhn = d.fhn := rfl
@[simp] theorem Dev.used_time (d : Dev) : d.used.time = d.time := rfl
@[simp] theorem Dev.used_obs (d : Dev) : d.used.obs = d.obs := rfl
@[simp] theorem Dev.used_pwr (d : Dev) : d.used.pwr = d.pwr := rfl
@[simp] theorem Dev.used_sup (d : Dev) : d.used.sup = d.sup := rfl
@[simp] theorem Dev.used_cal (d : Dev) : d.used.cal = d.cal := rfl
@[simp] theorem Dev.used_upd (d : Dev) : d.used.upd = d.upd := rfl
@[simp] theorem Dev.used_pins (d : Dev) : d.used.pins = d.pins := rfl
@[simp] theorem Dev.used_dict (d : Dev) : d.used.dict = d.dict := rfl

/-! ### catCount -/

@[simp] theorem Dev.catCount_regs (d : Dev) (i n : Nat) : (d.catCount i n).regs = d.regs := rfl
@[simp] theorem Dev.catCount_mem (d : Dev) (i n : Nat) : (d.catCount i n).mem = d.mem := rfl
@[simp] theorem Dev.catCount_q (d : Dev) (i n : Nat) : (d.catCount i n).q = d.q := rfl
@[simp] theorem Dev.catCount_smd (d : Dev) (i n : Nat) : (d.catCount i n).smd = d.smd := rfl
@[simp] theorem Dev.catCount_cores (d : Dev) (i n : Nat) : (d.catCount i n).cores = d.cores := rfl
@[simp] theorem Dev.catCount_cx (d : Dev) (i n : Nat) : (d.catCount i n).cx = d.cx := rfl
@[simp] theorem Dev.catCount_movers (d : Dev) (i n : Nat) : (d.catCount i n).movers = d.movers := rfl
@[simp] theorem Dev.catCount_engs (d : Dev) (i n : Nat) : (d.catCount i n).engs = d.engs := rfl
@[simp] theorem Dev.catCount_cph (d : Dev) (i n : Nat) : (d.catCount i n).cph = d.cph := rfl
@[simp] theorem Dev.catCount_wbr (d : Dev) (i n : Nat) : (d.catCount i n).wbr = d.wbr := rfl
@[simp] theorem Dev.catCount_fhn (d : Dev) (i n : Nat) : (d.catCount i n).fhn = d.fhn := rfl
@[simp] theorem Dev.catCount_time (d : Dev) (i n : Nat) : (d.catCount i n).time = d.time := rfl
@[simp] theorem Dev.catCount_pwr (d : Dev) (i n : Nat) : (d.catCount i n).pwr = d.pwr := rfl
@[simp] theorem Dev.catCount_sup (d : Dev) (i n : Nat) : (d.catCount i n).sup = d.sup := rfl
@[simp] theorem Dev.catCount_cal (d : Dev) (i n : Nat) : (d.catCount i n).cal = d.cal := rfl
@[simp] theorem Dev.catCount_upd (d : Dev) (i n : Nat) : (d.catCount i n).upd = d.upd := rfl
@[simp] theorem Dev.catCount_pins (d : Dev) (i n : Nat) : (d.catCount i n).pins = d.pins := rfl
@[simp] theorem Dev.catCount_dict (d : Dev) (i n : Nat) : (d.catCount i n).dict = d.dict := rfl
@[simp] theorem Dev.catCount_fresh (d : Dev) (i n : Nat) : (d.catCount i n).fresh = d.fresh := rfl

/-! ### obsCount -/

@[simp] theorem Dev.obsCount_regs (d : Dev) (i n : Nat) : (d.obsCount i n).regs = d.regs := rfl
@[simp] theorem Dev.obsCount_mem (d : Dev) (i n : Nat) : (d.obsCount i n).mem = d.mem := rfl
@[simp] theorem Dev.obsCount_q (d : Dev) (i n : Nat) : (d.obsCount i n).q = d.q := rfl
@[simp] theorem Dev.obsCount_smd (d : Dev) (i n : Nat) : (d.obsCount i n).smd = d.smd := rfl
@[simp] theorem Dev.obsCount_cores (d : Dev) (i n : Nat) : (d.obsCount i n).cores = d.cores := rfl
@[simp] theorem Dev.obsCount_cx (d : Dev) (i n : Nat) : (d.obsCount i n).cx = d.cx := rfl
@[simp] theorem Dev.obsCount_movers (d : Dev) (i n : Nat) : (d.obsCount i n).movers = d.movers := rfl
@[simp] theorem Dev.obsCount_engs (d : Dev) (i n : Nat) : (d.obsCount i n).engs = d.engs := rfl
@[simp] theorem Dev.obsCount_cph (d : Dev) (i n : Nat) : (d.obsCount i n).cph = d.cph := rfl
@[simp] theorem Dev.obsCount_wbr (d : Dev) (i n : Nat) : (d.obsCount i n).wbr = d.wbr := rfl
@[simp] theorem Dev.obsCount_fhn (d : Dev) (i n : Nat) : (d.obsCount i n).fhn = d.fhn := rfl
@[simp] theorem Dev.obsCount_time (d : Dev) (i n : Nat) : (d.obsCount i n).time = d.time := rfl
@[simp] theorem Dev.obsCount_pwr (d : Dev) (i n : Nat) : (d.obsCount i n).pwr = d.pwr := rfl
@[simp] theorem Dev.obsCount_sup (d : Dev) (i n : Nat) : (d.obsCount i n).sup = d.sup := rfl
@[simp] theorem Dev.obsCount_cal (d : Dev) (i n : Nat) : (d.obsCount i n).cal = d.cal := rfl
@[simp] theorem Dev.obsCount_upd (d : Dev) (i n : Nat) : (d.obsCount i n).upd = d.upd := rfl
@[simp] theorem Dev.obsCount_pins (d : Dev) (i n : Nat) : (d.obsCount i n).pins = d.pins := rfl
@[simp] theorem Dev.obsCount_dict (d : Dev) (i n : Nat) : (d.obsCount i n).dict = d.dict := rfl
@[simp] theorem Dev.obsCount_fresh (d : Dev) (i n : Nat) : (d.obsCount i n).fresh = d.fresh := rfl

/-! ### Reads after writes -/

@[simp] theorem Dev.reg_setReg_same (d : Dev) (a : Nat) (v : BitVec 32) : (d.setReg a v).reg a = v := Tab.get_put_same _ _ _ _
theorem Dev.reg_setReg (d : Dev) (a b : Nat) (v : BitVec 32) : (d.setReg a v).reg b = if b = a then v else d.reg b :=
  Tab.get_put _ _ _ _ _
theorem Dev.reg_setReg_other (d : Dev) {a b : Nat} (v : BitVec 32) (h : b ≠ a) : (d.setReg a v).reg b = d.reg b :=
  Tab.get_put_other _ _ _ h
@[simp] theorem Dev.core_setCore_same (d : Dev) (c : Nat) (k : Core) : (d.setCore c k).core c = k := Tab.get_put_same _ _ _ _
theorem Dev.core_setCore (d : Dev) (c j : Nat) (k : Core) : (d.setCore c k).core j = if j = c then k else d.core j :=
  Tab.get_put _ _ _ _ _
theorem Dev.core_setCore_other (d : Dev) {c j : Nat} (k : Core) (h : j ≠ c) : (d.setCore c k).core j = d.core j :=
  Tab.get_put_other _ _ _ h
@[simp] theorem Dev.mover_setMover_same (d : Dev) (m : Nat) (v : Mover) : (d.setMover m v).mover m = v :=
  Tab.get_put_same _ _ _ _
theorem Dev.mover_setMover_other (d : Dev) {m j : Nat} (v : Mover) (h : j ≠ m) : (d.setMover m v).mover j = d.mover j :=
  Tab.get_put_other _ _ _ h
@[simp] theorem Dev.chan_setChan_same (d : Dev) (m k : Nat) (v : Chan) : (d.setChan m k v).chan m k = v := by
  simp [Dev.chan, Dev.setChan]
@[simp] theorem Dev.queue_setQueue_same (d : Dev) (n : Nat) (v : Queue) : (d.setQueue n v).queue n = v :=
  Tab.get_put_same _ _ _ _
theorem Dev.queue_setQueue_other (d : Dev) {n j : Nat} (v : Queue) (h : j ≠ n) : (d.setQueue n v).queue j = d.queue j :=
  Tab.get_put_other _ _ _ h
@[simp] theorem Dev.slot_setSlot_same (d : Dev) (i : Nat) (v : Slot) : (d.setSlot i v).slot i = v := Tab.get_put_same _ _ _ _
theorem Dev.slot_setSlot_other (d : Dev) {i j : Nat} (v : Slot) (h : j ≠ i) : (d.setSlot i v).slot j = d.slot j :=
  Tab.get_put_other _ _ _ h
@[simp] theorem Dev.attached_setAttached_same (d : Dev) (k : Nat) (v : Attached) : (d.setAttached k v).attached k = v :=
  Tab.get_put_same _ _ _ _
@[simp] theorem Dev.eng_setEng_same (d : Dev) (cls u : Nat) (e : Engine) : (d.setEng cls u e).eng cls u = e :=
  Tab.get_put_same _ _ _ _

/-! ### Reads of one table after a write of another -/

@[simp] theorem Dev.core_setReg (d : Dev) (a : Nat) (v : BitVec 32) (j : Nat) : (d.setReg a v).core j = d.core j := rfl
@[simp] theorem Dev.mover_setReg (d : Dev) (a : Nat) (v : BitVec 32) (j : Nat) : (d.setReg a v).mover j = d.mover j := rfl
@[simp] theorem Dev.queue_setReg (d : Dev) (a : Nat) (v : BitVec 32) (j : Nat) : (d.setReg a v).queue j = d.queue j := rfl
@[simp] theorem Dev.slot_setReg (d : Dev) (a : Nat) (v : BitVec 32) (j : Nat) : (d.setReg a v).slot j = d.slot j := rfl
@[simp] theorem Dev.attached_setReg (d : Dev) (a : Nat) (v : BitVec 32) (j : Nat) : (d.setReg a v).attached j = d.attached j := rfl
@[simp] theorem Dev.eng_setReg (d : Dev) (a : Nat) (v : BitVec 32) (x y : Nat) : (d.setReg a v).eng x y = d.eng x y := rfl
@[simp] theorem Dev.power_setReg (d : Dev) (a : Nat) (v : BitVec 32) (j : Nat) : (d.setReg a v).power j = d.power j := rfl
@[simp] theorem Dev.now_setReg (d : Dev) (a : Nat) (v : BitVec 32) : (d.setReg a v).now  = d.now := rfl
@[simp] theorem Dev.core_setRegN (d : Dev) (a v : Nat) (j : Nat) : (d.setRegN a v).core j = d.core j := rfl
@[simp] theorem Dev.mover_setRegN (d : Dev) (a v : Nat) (j : Nat) : (d.setRegN a v).mover j = d.mover j := rfl
@[simp] theorem Dev.queue_setRegN (d : Dev) (a v : Nat) (j : Nat) : (d.setRegN a v).queue j = d.queue j := rfl
@[simp] theorem Dev.slot_setRegN (d : Dev) (a v : Nat) (j : Nat) : (d.setRegN a v).slot j = d.slot j := rfl
@[simp] theorem Dev.attached_setRegN (d : Dev) (a v : Nat) (j : Nat) : (d.setRegN a v).attached j = d.attached j := rfl
@[simp] theorem Dev.eng_setRegN (d : Dev) (a v : Nat) (x y : Nat) : (d.setRegN a v).eng x y = d.eng x y := rfl
@[simp] theorem Dev.power_setRegN (d : Dev) (a v : Nat) (j : Nat) : (d.setRegN a v).power j = d.power j := rfl
@[simp] theorem Dev.now_setRegN (d : Dev) (a v : Nat) : (d.setRegN a v).now  = d.now := rfl
@[simp] theorem Dev.core_setReg64 (d : Dev) (a v : Nat) (j : Nat) : (d.setReg64 a v).core j = d.core j := rfl
@[simp] theorem Dev.mover_setReg64 (d : Dev) (a v : Nat) (j : Nat) : (d.setReg64 a v).mover j = d.mover j := rfl
@[simp] theorem Dev.queue_setReg64 (d : Dev) (a v : Nat) (j : Nat) : (d.setReg64 a v).queue j = d.queue j := rfl
@[simp] theorem Dev.slot_setReg64 (d : Dev) (a v : Nat) (j : Nat) : (d.setReg64 a v).slot j = d.slot j := rfl
@[simp] theorem Dev.attached_setReg64 (d : Dev) (a v : Nat) (j : Nat) : (d.setReg64 a v).attached j = d.attached j := rfl
@[simp] theorem Dev.eng_setReg64 (d : Dev) (a v : Nat) (x y : Nat) : (d.setReg64 a v).eng x y = d.eng x y := rfl
@[simp] theorem Dev.power_setReg64 (d : Dev) (a v : Nat) (j : Nat) : (d.setReg64 a v).power j = d.power j := rfl
@[simp] theorem Dev.now_setReg64 (d : Dev) (a v : Nat) : (d.setReg64 a v).now  = d.now := rfl
@[simp] theorem Dev.core_bumpBy (d : Dev) (a n : Nat) (j : Nat) : (d.bumpBy a n).core j = d.core j := rfl
@[simp] theorem Dev.mover_bumpBy (d : Dev) (a n : Nat) (j : Nat) : (d.bumpBy a n).mover j = d.mover j := rfl
@[simp] theorem Dev.queue_bumpBy (d : Dev) (a n : Nat) (j : Nat) : (d.bumpBy a n).queue j = d.queue j := rfl
@[simp] theorem Dev.slot_bumpBy (d : Dev) (a n : Nat) (j : Nat) : (d.bumpBy a n).slot j = d.slot j := rfl
@[simp] theorem Dev.attached_bumpBy (d : Dev) (a n : Nat) (j : Nat) : (d.bumpBy a n).attached j = d.attached j := rfl
@[simp] theorem Dev.eng_bumpBy (d : Dev) (a n : Nat) (x y : Nat) : (d.bumpBy a n).eng x y = d.eng x y := rfl
@[simp] theorem Dev.power_bumpBy (d : Dev) (a n : Nat) (j : Nat) : (d.bumpBy a n).power j = d.power j := rfl
@[simp] theorem Dev.now_bumpBy (d : Dev) (a n : Nat) : (d.bumpBy a n).now  = d.now := rfl
@[simp] theorem Dev.core_bump (d : Dev) (a : Nat) (j : Nat) : (d.bump a).core j = d.core j := rfl
@[simp] theorem Dev.mover_bump (d : Dev) (a : Nat) (j : Nat) : (d.bump a).mover j = d.mover j := rfl
@[simp] theorem Dev.queue_bump (d : Dev) (a : Nat) (j : Nat) : (d.bump a).queue j = d.queue j := rfl
@[simp] theorem Dev.slot_bump (d : Dev) (a : Nat) (j : Nat) : (d.bump a).slot j = d.slot j := rfl
@[simp] theorem Dev.attached_bump (d : Dev) (a : Nat) (j : Nat) : (d.bump a).attached j = d.attached j := rfl
@[simp] theorem Dev.eng_bump (d : Dev) (a : Nat) (x y : Nat) : (d.bump a).eng x y = d.eng x y := rfl
@[simp] theorem Dev.power_bump (d : Dev) (a : Nat) (j : Nat) : (d.bump a).power j = d.power j := rfl
@[simp] theorem Dev.now_bump (d : Dev) (a : Nat) : (d.bump a).now  = d.now := rfl
@[simp] theorem Dev.core_bump32 (d : Dev) (a : Nat) (j : Nat) : (d.bump32 a).core j = d.core j := rfl
@[simp] theorem Dev.mover_bump32 (d : Dev) (a : Nat) (j : Nat) : (d.bump32 a).mover j = d.mover j := rfl
@[simp] theorem Dev.queue_bump32 (d : Dev) (a : Nat) (j : Nat) : (d.bump32 a).queue j = d.queue j := rfl
@[simp] theorem Dev.slot_bump32 (d : Dev) (a : Nat) (j : Nat) : (d.bump32 a).slot j = d.slot j := rfl
@[simp] theorem Dev.attached_bump32 (d : Dev) (a : Nat) (j : Nat) : (d.bump32 a).attached j = d.attached j := rfl
@[simp] theorem Dev.eng_bump32 (d : Dev) (a : Nat) (x y : Nat) : (d.bump32 a).eng x y = d.eng x y := rfl
@[simp] theorem Dev.power_bump32 (d : Dev) (a : Nat) (j : Nat) : (d.bump32 a).power j = d.power j := rfl
@[simp] theorem Dev.now_bump32 (d : Dev) (a : Nat) : (d.bump32 a).now  = d.now := rfl
@[simp] theorem Dev.core_setBits (d : Dev) (a m : Nat) (j : Nat) : (d.setBits a m).core j = d.core j := rfl
@[simp] theorem Dev.mover_setBits (d : Dev) (a m : Nat) (j : Nat) : (d.setBits a m).mover j = d.mover j := rfl
@[simp] theorem Dev.queue_setBits (d : Dev) (a m : Nat) (j : Nat) : (d.setBits a m).queue j = d.queue j := rfl
@[simp] theorem Dev.slot_setBits (d : Dev) (a m : Nat) (j : Nat) : (d.setBits a m).slot j = d.slot j := rfl
@[simp] theorem Dev.attached_setBits (d : Dev) (a m : Nat) (j : Nat) : (d.setBits a m).attached j = d.attached j := rfl
@[simp] theorem Dev.eng_setBits (d : Dev) (a m : Nat) (x y : Nat) : (d.setBits a m).eng x y = d.eng x y := rfl
@[simp] theorem Dev.power_setBits (d : Dev) (a m : Nat) (j : Nat) : (d.setBits a m).power j = d.power j := rfl
@[simp] theorem Dev.now_setBits (d : Dev) (a m : Nat) : (d.setBits a m).now  = d.now := rfl
@[simp] theorem Dev.reg_setCore (d : Dev) (c : Nat) (k : Core) (b : Nat) : (d.setCore c k).reg b = d.reg b := rfl
@[simp] theorem Dev.mover_setCore (d : Dev) (c : Nat) (k : Core) (j : Nat) : (d.setCore c k).mover j = d.mover j := rfl
@[simp] theorem Dev.queue_setCore (d : Dev) (c : Nat) (k : Core) (j : Nat) : (d.setCore c k).queue j = d.queue j := rfl
@[simp] theorem Dev.slot_setCore (d : Dev) (c : Nat) (k : Core) (j : Nat) : (d.setCore c k).slot j = d.slot j := rfl
@[simp] theorem Dev.attached_setCore (d : Dev) (c : Nat) (k : Core) (j : Nat) : (d.setCore c k).attached j = d.attached j := rfl
@[simp] theorem Dev.eng_setCore (d : Dev) (c : Nat) (k : Core) (x y : Nat) : (d.setCore c k).eng x y = d.eng x y := rfl
@[simp] theorem Dev.power_setCore (d : Dev) (c : Nat) (k : Core) (j : Nat) : (d.setCore c k).power j = d.power j := rfl
@[simp] theorem Dev.now_setCore (d : Dev) (c : Nat) (k : Core) : (d.setCore c k).now  = d.now := rfl
@[simp] theorem Dev.reg_setMover (d : Dev) (m : Nat) (v : Mover) (b : Nat) : (d.setMover m v).reg b = d.reg b := rfl
@[simp] theorem Dev.core_setMover (d : Dev) (m : Nat) (v : Mover) (j : Nat) : (d.setMover m v).core j = d.core j := rfl
@[simp] theorem Dev.queue_setMover (d : Dev) (m : Nat) (v : Mover) (j : Nat) : (d.setMover m v).queue j = d.queue j := rfl
@[simp] theorem Dev.slot_setMover (d : Dev) (m : Nat) (v : Mover) (j : Nat) : (d.setMover m v).slot j = d.slot j := rfl
@[simp] theorem Dev.attached_setMover (d : Dev) (m : Nat) (v : Mover) (j : Nat) : (d.setMover m v).attached j = d.attached j := rfl
@[simp] theorem Dev.eng_setMover (d : Dev) (m : Nat) (v : Mover) (x y : Nat) : (d.setMover m v).eng x y = d.eng x y := rfl
@[simp] theorem Dev.power_setMover (d : Dev) (m : Nat) (v : Mover) (j : Nat) : (d.setMover m v).power j = d.power j := rfl
@[simp] theorem Dev.now_setMover (d : Dev) (m : Nat) (v : Mover) : (d.setMover m v).now  = d.now := rfl
@[simp] theorem Dev.reg_setChan (d : Dev) (m k : Nat) (v : Chan) (b : Nat) : (d.setChan m k v).reg b = d.reg b := rfl
@[simp] theorem Dev.core_setChan (d : Dev) (m k : Nat) (v : Chan) (j : Nat) : (d.setChan m k v).core j = d.core j := rfl
@[simp] theorem Dev.queue_setChan (d : Dev) (m k : Nat) (v : Chan) (j : Nat) : (d.setChan m k v).queue j = d.queue j := rfl
@[simp] theorem Dev.slot_setChan (d : Dev) (m k : Nat) (v : Chan) (j : Nat) : (d.setChan m k v).slot j = d.slot j := rfl
@[simp] theorem Dev.attached_setChan (d : Dev) (m k : Nat) (v : Chan) (j : Nat) : (d.setChan m k v).attached j = d.attached j := rfl
@[simp] theorem Dev.eng_setChan (d : Dev) (m k : Nat) (v : Chan) (x y : Nat) : (d.setChan m k v).eng x y = d.eng x y := rfl
@[simp] theorem Dev.power_setChan (d : Dev) (m k : Nat) (v : Chan) (j : Nat) : (d.setChan m k v).power j = d.power j := rfl
@[simp] theorem Dev.now_setChan (d : Dev) (m k : Nat) (v : Chan) : (d.setChan m k v).now  = d.now := rfl
@[simp] theorem Dev.reg_setQueue (d : Dev) (n : Nat) (v : Queue) (b : Nat) : (d.setQueue n v).reg b = d.reg b := rfl
@[simp] theorem Dev.core_setQueue (d : Dev) (n : Nat) (v : Queue) (j : Nat) : (d.setQueue n v).core j = d.core j := rfl
@[simp] theorem Dev.mover_setQueue (d : Dev) (n : Nat) (v : Queue) (j : Nat) : (d.setQueue n v).mover j = d.mover j := rfl
@[simp] theorem Dev.slot_setQueue (d : Dev) (n : Nat) (v : Queue) (j : Nat) : (d.setQueue n v).slot j = d.slot j := rfl
@[simp] theorem Dev.attached_setQueue (d : Dev) (n : Nat) (v : Queue) (j : Nat) : (d.setQueue n v).attached j = d.attached j := rfl
@[simp] theorem Dev.eng_setQueue (d : Dev) (n : Nat) (v : Queue) (x y : Nat) : (d.setQueue n v).eng x y = d.eng x y := rfl
@[simp] theorem Dev.power_setQueue (d : Dev) (n : Nat) (v : Queue) (j : Nat) : (d.setQueue n v).power j = d.power j := rfl
@[simp] theorem Dev.now_setQueue (d : Dev) (n : Nat) (v : Queue) : (d.setQueue n v).now  = d.now := rfl
@[simp] theorem Dev.reg_setSlot (d : Dev) (i : Nat) (v : Slot) (b : Nat) : (d.setSlot i v).reg b = d.reg b := rfl
@[simp] theorem Dev.core_setSlot (d : Dev) (i : Nat) (v : Slot) (j : Nat) : (d.setSlot i v).core j = d.core j := rfl
@[simp] theorem Dev.mover_setSlot (d : Dev) (i : Nat) (v : Slot) (j : Nat) : (d.setSlot i v).mover j = d.mover j := rfl
@[simp] theorem Dev.queue_setSlot (d : Dev) (i : Nat) (v : Slot) (j : Nat) : (d.setSlot i v).queue j = d.queue j := rfl
@[simp] theorem Dev.attached_setSlot (d : Dev) (i : Nat) (v : Slot) (j : Nat) : (d.setSlot i v).attached j = d.attached j := rfl
@[simp] theorem Dev.eng_setSlot (d : Dev) (i : Nat) (v : Slot) (x y : Nat) : (d.setSlot i v).eng x y = d.eng x y := rfl
@[simp] theorem Dev.power_setSlot (d : Dev) (i : Nat) (v : Slot) (j : Nat) : (d.setSlot i v).power j = d.power j := rfl
@[simp] theorem Dev.now_setSlot (d : Dev) (i : Nat) (v : Slot) : (d.setSlot i v).now  = d.now := rfl
@[simp] theorem Dev.reg_setAttached (d : Dev) (k : Nat) (v : Attached) (b : Nat) : (d.setAttached k v).reg b = d.reg b := rfl
@[simp] theorem Dev.core_setAttached (d : Dev) (k : Nat) (v : Attached) (j : Nat) : (d.setAttached k v).core j = d.core j := rfl
@[simp] theorem Dev.mover_setAttached (d : Dev) (k : Nat) (v : Attached) (j : Nat) : (d.setAttached k v).mover j = d.mover j := rfl
@[simp] theorem Dev.queue_setAttached (d : Dev) (k : Nat) (v : Attached) (j : Nat) : (d.setAttached k v).queue j = d.queue j := rfl
@[simp] theorem Dev.slot_setAttached (d : Dev) (k : Nat) (v : Attached) (j : Nat) : (d.setAttached k v).slot j = d.slot j := rfl
@[simp] theorem Dev.eng_setAttached (d : Dev) (k : Nat) (v : Attached) (x y : Nat) : (d.setAttached k v).eng x y = d.eng x y := rfl
@[simp] theorem Dev.power_setAttached (d : Dev) (k : Nat) (v : Attached) (j : Nat) : (d.setAttached k v).power j = d.power j := rfl
@[simp] theorem Dev.now_setAttached (d : Dev) (k : Nat) (v : Attached) : (d.setAttached k v).now  = d.now := rfl
@[simp] theorem Dev.reg_setEng (d : Dev) (cls u : Nat) (e : Engine) (b : Nat) : (d.setEng cls u e).reg b = d.reg b := rfl
@[simp] theorem Dev.core_setEng (d : Dev) (cls u : Nat) (e : Engine) (j : Nat) : (d.setEng cls u e).core j = d.core j := rfl
@[simp] theorem Dev.mover_setEng (d : Dev) (cls u : Nat) (e : Engine) (j : Nat) : (d.setEng cls u e).mover j = d.mover j := rfl
@[simp] theorem Dev.queue_setEng (d : Dev) (cls u : Nat) (e : Engine) (j : Nat) : (d.setEng cls u e).queue j = d.queue j := rfl
@[simp] theorem Dev.slot_setEng (d : Dev) (cls u : Nat) (e : Engine) (j : Nat) : (d.setEng cls u e).slot j = d.slot j := rfl
@[simp] theorem Dev.attached_setEng (d : Dev) (cls u : Nat) (e : Engine) (j : Nat) : (d.setEng cls u e).attached j = d.attached j := rfl
@[simp] theorem Dev.power_setEng (d : Dev) (cls u : Nat) (e : Engine) (j : Nat) : (d.setEng cls u e).power j = d.power j := rfl
@[simp] theorem Dev.now_setEng (d : Dev) (cls u : Nat) (e : Engine) : (d.setEng cls u e).now  = d.now := rfl
@[simp] theorem Dev.reg_used (d : Dev) (b : Nat) : (d.used).reg b = d.reg b := rfl
@[simp] theorem Dev.core_used (d : Dev) (j : Nat) : (d.used).core j = d.core j := rfl
@[simp] theorem Dev.mover_used (d : Dev) (j : Nat) : (d.used).mover j = d.mover j := rfl
@[simp] theorem Dev.queue_used (d : Dev) (j : Nat) : (d.used).queue j = d.queue j := rfl
@[simp] theorem Dev.slot_used (d : Dev) (j : Nat) : (d.used).slot j = d.slot j := rfl
@[simp] theorem Dev.attached_used (d : Dev) (j : Nat) : (d.used).attached j = d.attached j := rfl
@[simp] theorem Dev.eng_used (d : Dev) (x y : Nat) : (d.used).eng x y = d.eng x y := rfl
@[simp] theorem Dev.power_used (d : Dev) (j : Nat) : (d.used).power j = d.power j := rfl
@[simp] theorem Dev.now_used (d : Dev) : (d.used).now  = d.now := rfl
@[simp] theorem Dev.reg_catCount (d : Dev) (i n : Nat) (b : Nat) : (d.catCount i n).reg b = d.reg b := rfl
@[simp] theorem Dev.core_catCount (d : Dev) (i n : Nat) (j : Nat) : (d.catCount i n).core j = d.core j := rfl
@[simp] theorem Dev.mover_catCount (d : Dev) (i n : Nat) (j : Nat) : (d.catCount i n).mover j = d.mover j := rfl
@[simp] theorem Dev.queue_catCount (d : Dev) (i n : Nat) (j : Nat) : (d.catCount i n).queue j = d.queue j := rfl
@[simp] theorem Dev.slot_catCount (d : Dev) (i n : Nat) (j : Nat) : (d.catCount i n).slot j = d.slot j := rfl
@[simp] theorem Dev.attached_catCount (d : Dev) (i n : Nat) (j : Nat) : (d.catCount i n).attached j = d.attached j := rfl
@[simp] theorem Dev.eng_catCount (d : Dev) (i n : Nat) (x y : Nat) : (d.catCount i n).eng x y = d.eng x y := rfl
@[simp] theorem Dev.power_catCount (d : Dev) (i n : Nat) (j : Nat) : (d.catCount i n).power j = d.power j := rfl
@[simp] theorem Dev.now_catCount (d : Dev) (i n : Nat) : (d.catCount i n).now  = d.now := rfl
@[simp] theorem Dev.reg_obsCount (d : Dev) (i n : Nat) (b : Nat) : (d.obsCount i n).reg b = d.reg b := rfl
@[simp] theorem Dev.core_obsCount (d : Dev) (i n : Nat) (j : Nat) : (d.obsCount i n).core j = d.core j := rfl
@[simp] theorem Dev.mover_obsCount (d : Dev) (i n : Nat) (j : Nat) : (d.obsCount i n).mover j = d.mover j := rfl
@[simp] theorem Dev.queue_obsCount (d : Dev) (i n : Nat) (j : Nat) : (d.obsCount i n).queue j = d.queue j := rfl
@[simp] theorem Dev.slot_obsCount (d : Dev) (i n : Nat) (j : Nat) : (d.obsCount i n).slot j = d.slot j := rfl
@[simp] theorem Dev.attached_obsCount (d : Dev) (i n : Nat) (j : Nat) : (d.obsCount i n).attached j = d.attached j := rfl
@[simp] theorem Dev.eng_obsCount (d : Dev) (i n : Nat) (x y : Nat) : (d.obsCount i n).eng x y = d.eng x y := rfl
@[simp] theorem Dev.power_obsCount (d : Dev) (i n : Nat) (j : Nat) : (d.obsCount i n).power j = d.power j := rfl
@[simp] theorem Dev.now_obsCount (d : Dev) (i n : Nat) : (d.obsCount i n).now  = d.now := rfl

end Sys2Proof.Machine
end

