-- ==== Sys2Proof/Laws/Memory.lean ====
section
/-!
SUPPORT. Laws of the memories: stored bytes, accesses within one line that holds no damage, and the canonical form.
-/
namespace Sys2Proof.Machine

/-! ### Stored bytes -/

theorem byte_putByte (m : MemState) (a b : Nat) (v : Byte) : (m.putByte a v).byte b = if b = a then v else m.byte b :=
  Tab.get_put _ _ _ _ _

/-- Reading any byte after consecutive bytes were stored. -/
theorem byte_putBytes (m : MemState) (a b : Nat) (bs : List Byte) :
    (m.putBytes a bs).byte b = if a ≤ b ∧ b < a + bs.length then bs.getD (b - a) 0 else m.byte b := by
  induction bs generalizing m a with
  | nil =>
    have h : ¬ (a ≤ b ∧ b < a + ([] : List Byte).length) := by simp
    rw [if_neg h]
    rfl
  | cons x xs ih =>
    rw [MemState.putBytes, ih, byte_putByte]
    by_cases h1 : b = a
    · subst h1
      rw [if_neg (by omega), if_pos rfl, if_pos (by simp)]
      simp
    · by_cases h2 : a + 1 ≤ b ∧ b < a + 1 + xs.length
      · rw [if_pos h2, if_pos (by simp; omega)]
        have : b - a = (b - (a + 1)) + 1 := by omega
        rw [this]
        rfl
      · rw [if_neg h2, if_neg h1, if_neg (by simp; omega)]

/-- Bytes that a store does not reach are unchanged. -/
theorem byte_putBytes_other (m : MemState) (a b : Nat) (bs : List Byte) (h : b < a ∨ a + bs.length ≤ b) :
    (m.putBytes a bs).byte b = m.byte b := by
  rw [byte_putBytes, if_neg (by omega)]

/-! ### The canonical form -/

/-- The byte memory is in its canonical form. -/
def MemState.wf (m : MemState) : Bool := Tab.wf (fun _ => 0) m.data

theorem putByte_wf (m : MemState) (a : Nat) (v : Byte) (h : m.wf = true) : (m.putByte a v).wf = true :=
  Tab.wf_put _ _ _ _ h

theorem putBytes_wf (m : MemState) (a : Nat) (bs : List Byte) (h : m.wf = true) : (m.putBytes a bs).wf = true := by
  induction bs generalizing m a with
  | nil => exact h
  | cons x xs ih => exact ih _ _ (putByte_wf m a x h)

theorem setBad_wf (m : MemState) (l : Nat) (v : BitVec 64) (h : m.wf = true) : (m.setBad l v).wf = true := h
theorem setSyn_wf (m : MemState) (l : Nat) (v : BitVec 512) (h : m.wf = true) : (m.setSyn l v).wf = true := h
theorem setChk_wf (m : MemState) (l : Nat) (v : BitVec 64) (h : m.wf = true) : (m.setChk l v).wf = true := h

theorem resign_wf (m : MemState) (l : Nat) (o : BitVec 64) (h : m.wf = true) : (m.resign l o).wf = true := by
  unfold MemState.resign
  split
  · exact h
  · exact h

theorem storeLine_wf (m : MemState) (l : Nat) (bs : List Byte) (h : m.wf = true) : (m.storeLine l bs).wf = true :=
  resign_wf _ _ _ (setChk_wf _ _ _ (setSyn_wf _ _ _ (setBad_wf _ _ _ (putBytes_wf _ _ _ h))))

theorem poisonLine_wf (m : MemState) (l : Nat) (h : m.wf = true) : (m.poisonLine l).wf = true :=
  resign_wf _ _ _ (setChk_wf _ _ _ (setSyn_wf _ _ _ (setBad_wf _ _ _ (putBytes_wf _ _ _ h))))

theorem poisonDdr_wf (m : MemState) (l : Nat) (h : m.wf = true) : (m.poisonDdr l).wf = true :=
  setBad_wf _ _ _ (putBytes_wf _ _ _ h)

theorem storeDdr_wf (m : MemState) (l : Nat) (o n : List Byte) (h : m.wf = true) : (m.storeDdr l o n).wf = true :=
  setSyn_wf _ _ _ (setBad_wf _ _ _ (putBytes_wf _ _ _ h))

theorem clearRange_wf (m : MemState) (a n : Nat) (h : m.wf = true) : (m.clearRange a n).wf = true :=
  Tab.wf_filter _ _ _ h

/-! ### Accesses within one line that holds no damage -/

theorem lineQuiet_decode (m : MemState) (l : Nat) (h : m.lineQuiet l = true) :
    m.decodeLine l = (.clean, m.bytes (64 * l) 64) := by
  simp [MemState.decodeLine, h]

/-- A region of on-chip memory. -/
def Region.onChip : Region → Bool
  | .ldm => true
  | .lpm => true
  | .cluster => true
  | .pool => true
  | _ => false

theorem drop_take_bytes (m : MemState) (a n : Nat) (h : a % 64 + n ≤ 64) :
    ((m.bytes (64 * (a / 64)) 64).drop (a % 64)).take n = m.bytes a n := by
  apply List.ext_getElem
  · simp only [MemState.bytes, List.length_take, List.length_drop, List.length_map, List.length_range]
    omega
  · intro i h1 h2
    simp only [MemState.bytes, List.getElem_take, List.getElem_drop, List.getElem_map, List.getElem_range]
    congr 1
    omega

theorem linePieces_one (a n : Nat) (hn : n ≠ 0) (h : a % 64 + n ≤ 64) : linePieces a n = [(0, n)] := by
  have h1 : min n (64 - a % 64) = n := by omega
  have h2 : ceilDiv (n - n) 64 = 0 := by rw [Nat.sub_self]; decide
  unfold linePieces
  dsimp only
  rw [h1, if_neg hn, h2]
  rfl

/-- A read within an on-chip line that holds no damage answers the stored bytes and changes nothing. -/
theorem memRead_quiet (d : Dev) (ag : Agent) (a n p : Nat) (r : Region) (hn : n ≠ 0) (ha : a % 64 + n ≤ 64)
    (hloc : d.locate ag a = (r, p)) (hp : p % 64 = a % 64) (hr : r.onChip = true)
    (hq : d.mem.lineQuiet (p / 64) = true) : d.memRead ag a n = (d, .ok (d.mem.bytes p n)) := by
  unfold Dev.memRead
  rw [linePieces_one a n hn ha]
  simp only [List.foldl_cons, List.foldl_nil, Nat.add_zero]
  have hs : d.readSram ag r (p / 64) = (d, .ok (d.mem.bytes (64 * (p / 64)) 64)) := by
    simp only [Dev.readSram, lineQuiet_decode _ _ hq, Dev.ceLine]
  have hl : d.readLine ag a n = (d, .ok (d.mem.bytes p n)) := by
    unfold Dev.readLine
    rw [hloc]
    have hd := drop_take_bytes d.mem p n (by omega)
    rw [hp] at hd
    cases r <;> simp_all [Region.onChip]
  rw [hl]
  simp

end Sys2Proof.Machine
end

