-- ==== Sys2Proof/Laws/Cetik.lean ====
section
/-!
SUPPORT. What a core that stands at a bundle boundary does with a bundle of one operation.
-/
namespace Sys2Proof.Machine

/-! ### One core replaced twice -/

theorem Tab.del_ins_same {α : Type} (t : Tab α) (k : Nat) (v : α) (h : ∀ p ∈ t, p.1 ≠ k) : Tab.del (Tab.ins t k v) k = t := by
  induction t with
  | nil => simp [Tab.ins, Tab.del]
  | cons p t ih =>
    have hp := h p (by simp)
    have ht : Tab.del t k = t := by
      unfold Tab.del
      exact List.filter_eq_self.mpr (fun q hq => by simpa using h q (by simp [hq]))
    by_cases hk : k < p.1
    · simp only [Tab.ins, hk, if_true]
      rw [Tab.del_cons, if_pos rfl, Tab.del_cons, if_neg hp, ht]
    · simp only [Tab.ins, hk, if_false]
      rw [Tab.del_cons, if_neg hp, ih (fun q hq => h q (by simp [hq]))]

theorem Tab.del_del {α : Type} (t : Tab α) (k : Nat) : Tab.del (Tab.del t k) k = Tab.del t k := by
  unfold Tab.del
  simp

/-- Of two writes of one key the second stands. -/
@[simp] theorem Tab.put_put {α : Type} [DecidableEq α] (dflt : Nat → α) (t : Tab α) (k : Nat) (v w : α) :
    Tab.put dflt (Tab.put dflt t k v) k w = Tab.put dflt t k w := by
  have h : Tab.del (Tab.put dflt t k v) k = Tab.del t k := by
    unfold Tab.put
    split
    · exact Tab.del_del t k
    · exact Tab.del_ins_same _ k v (Tab.del_ne t k)
  unfold Tab.put at *
  rw [h]

@[simp] theorem Dev.setCore_setCore (d : Dev) (c : Nat) (k j : Core) : (d.setCore c k).setCore c j = d.setCore c j := by
  simp [Dev.setCore]

/-! ### A read of program memory that holds no damage -/

theorem locate_program (d : Dev) (c pc : Nat) (hpc : pc < 0x10000) (hc : bit (d.regN (memBase + 0x54)) (c / 8) = false) :
    d.locate (.core c) (0x40000 + pc) = (.lpm, lmBase c + (0x40000 + pc)) := by
  have h1 : 0x40000 + pc < 0x50000 := by omega
  have h2 : ¬ (0x40000 + pc < 0x40000) := by omega
  generalize 0x40000 + pc = a at h1 h2
  unfold Dev.locate
  rw [if_pos h1]
  dsimp only
  rw [hc, if_neg (by simp), if_neg h2]

theorem lmBase_mod (c : Nat) : lmBase c % 64 = 0 := by
  have h (n : Nat) : 64 ∣ n * 0x1000000 := Nat.dvd_mul_left_of_dvd (by decide) n
  have g (n : Nat) : 64 ∣ n * 0x80000 := Nat.dvd_mul_left_of_dvd (by decide) n
  exact Nat.mod_eq_zero_of_dvd
    (Nat.dvd_add (Nat.dvd_add (Nat.dvd_add (by decide) (h (c / 8))) (by decide)) (g (c % 8)))

/-- The fetch of one word answers and changes nothing. -/
theorem memRead_program (d : Dev) (c pc : Nat) (hpc : pc < 0x10000) (ha : pc % 4 = 0)
    (hc : bit (d.regN (memBase + 0x54)) (c / 8) = false)
    (hq : d.mem.lineQuiet ((lmBase c + 0x40000 + pc) / 64) = true) :
    d.memRead (.core c) (0x40000 + pc) (min (4 * 1) (0x10000 - pc))
      = (d, .ok (d.mem.bytes (lmBase c + (0x40000 + pc)) 4)) := by
  have hm : min (4 * 1) (0x10000 - pc) = 4 := by omega
  have hl := locate_program d c pc hpc hc
  have hb := lmBase_mod c
  have hq' : d.mem.lineQuiet ((lmBase c + (0x40000 + pc)) / 64) = true := by
    rw [← Nat.add_assoc]; exact hq
  rw [hm]
  have h4 : (0x40000 + pc) % 64 + 4 ≤ 64 := by omega
  have h5 : (lmBase c + (0x40000 + pc)) % 64 = (0x40000 + pc) % 64 := by omega
  generalize 0x40000 + pc = a at *
  exact memRead_quiet d (.core c) a 4 _ .lpm (by decide) h4 hl h5 rfl hq'

/-! ### The pipeline when it is empty -/

theorem land_empty (d : Dev) (c : Nat) (k : Core) (h : k.inflight = []) : (d.setCore c k).land c = d.setCore c k := by
  simp only [Dev.land, Dev.landWhere, Dev.core_setCore_same, h, List.filter_nil, List.foldl_nil, Dev.setCore_setCore]
  congr 1
  cases k
  simp_all

/-- Results of one latency that are not due land nowhere yet. -/
theorem landWhere_none (d : Dev) (c : Nat) (k : Core) (p : InFlight → Bool) (h : ∀ f ∈ k.inflight, p f = false) :
    (d.setCore c k).landWhere c p = d.setCore c k := by
  have h1 : k.inflight.filter p = [] := List.filter_eq_nil_iff.mpr (fun f hf => by simp [h f hf])
  have h2 : k.inflight.filter (fun f => !p f) = k.inflight := List.filter_eq_self.mpr (fun f hf => by simp [h f hf])
  simp only [Dev.landWhere, Dev.core_setCore_same, h1, h2, List.foldl_nil, Dev.setCore_setCore]

theorem expose_setCore (d : Dev) (c lat : Nat) (k : Core) (x : RegWr) (acc lv : Bool) :
    (d.setCore c k).expose c lat x acc lv = d.setCore c { k with
      inflight := k.inflight ++ [{ due := lat, wr := x, acc := acc, lv := lv, fg := !k.bank }] } := by
  simp only [Dev.expose, Dev.core_setCore_same, Dev.setCore_setCore]

theorem exposeAll_eq (c lat : Nat) (d : Dev) (k : Core) (wrs : List RegWr) :
    exposeAll c lat wrs (d.setCore c k)
      = d.setCore c { k with inflight := k.inflight ++ wrs.map (fun x => { due := lat, wr := x, fg := !k.bank }) } := by
  unfold exposeAll
  induction wrs generalizing k with
  | nil => simp
  | cons x xs ih =>
    rw [List.foldl_cons, expose_setCore, ih, List.append_assoc]
    rfl

/-- The end of a bundle cycle when nothing is due. -/
theorem tick_eq (d : Dev) (c : Nat) (k : Core) (h : ∀ f ∈ k.inflight, f.due ≠ 0) :
    (d.setCore c k).tick c = d.setCore c { k with
      cycle := (k.cycle + 1) % 2 ^ 64, inflight := k.inflight.map (fun f => { f with due := f.due - 1 }) } := by
  have := landWhere_none d c k (fun f => decide (f.due = 0)) (fun f hf => by simp [h f hf])
  simp only [Dev.tick, Dev.land, this, Dev.core_setCore_same, Dev.setCore_setCore]

/-! ### A bundle of one operation -/

theorem badOp_single (pc w : Nat) (hend : opEnd w = true) (hf : fieldsOk w = true) : badOp pc [w] = none := by
  simp [badOp, badOpGo, hend, hf]

theorem coreOp_calm (d : Dev) (c : Nat) (w : BitVec 32) (h : Calm d c) (hend : opEnd w.toNat = true) :
    d.coreOp c w = (d.setCore c ((d.core c).withOp w)).issuePlain c [w.toNat] := by
  have hnc : (d.core c).complete = false := by simp [Core.complete, Core.words, h.bundle]
  have hc : ((d.core c).withOp w).complete = true := by simp [Core.complete, Core.words, Core.withOp, hend]
  have hl : (d.setCore c ((d.core c).withOp w)).land c = d.setCore c ((d.core c).withOp w) :=
    land_empty d c _ (by simp [Core.withOp, h.inflight])
  have hma : ((d.core c).withOp w).mayAccept = (d.core c).mayAccept := rfl
  have hdl : (d.setCore c ((d.core c).withOp w)).dueLine c = d.dueLine c := by
    unfold Dev.dueLine Dev.ipend
    simp only [Dev.core_setCore_same]
    rfl
  have hline : (if true && ((d.core c).withOp w).mayAccept then (d.setCore c ((d.core c).withOp w)).dueLine c else none) = none := by
    rw [hma, hdl]
    by_cases hm : (d.core c).mayAccept = true
    · simp [hm, h.line hm]
    · simp [hm]
  have hbs := memRead_program (d.setCore c ((d.core c).withOp w)) c (d.core c).pc.toNat
    (by have := (d.core c).pc.isLt; omega) h.aligned h.cluster h.fetch
  have hpc : ((d.core c).withOp w).pc = (d.core c).pc := rfl
  have hws : ((d.core c).withOp w).words = [w.toNat] := rfl
  have hrp : ((d.core c).withOp w).rptNext = none := h.rptNext
  unfold Dev.coreOp
  dsimp only
  rw [if_neg (by simp [h.runs]), if_neg (by simp [h.lv]), if_neg (by simp [hnc]), h.bundle, List.nil_append]
  change (if ((d.core c).withOp w).complete = true then (d.setCore c ((d.core c).withOp w)).tryIssue c true
    else d.setCore c ((d.core c).withOp w)) = _
  rw [if_pos hc]
  unfold Dev.tryIssue
  simp only [hl, Dev.core_setCore_same, hline, if_true, hws, hpc, List.length_singleton, hbs, hrp]

/-- A legal bundle of one operation that is neither alone in its kind nor waiting. -/
theorem issuePlain_single (d : Dev) (c : Nat) (k : Core) (w : Nat)
    (hlegal : k.illegal [w] = none) (hwait : (d.setCore c k).bundleWaits c [w] = false)
    (hk : k.inflight = []) (hexc : opExc k w = none)
    (halone : k.runs w = true → opOf w ≠ some .take ∧ opOf w ≠ some .reti ∧ opOf w ≠ some .rpt ∧ opOf w ≠ some .rptr
      ∧ opOf w ≠ some .lv) :
    (d.setCore c k).issuePlain c [w] =
      let r := (d.setCore c k).opRun c k.pc.toNat (k.pc.toNat + 4) k w
      ((r.2 (r.1.setCore c { r.1.core c with pc := BitVec.ofNat 16 (k.pc.toNat + 4) })).tick c).settleCore c := by
  have hl : (d.setCore c k).land c = d.setCore c k := land_empty d c k hk
  have hone : (d.setCore c k).issueOnce c k.pc.toNat (k.pc.toNat + 4) [w] =
      (let r := (d.setCore c k).opRun c k.pc.toNat (k.pc.toNat + 4) k w
       ((r.2 (r.1.setCore c { r.1.core c with pc := BitVec.ofNat 16 (k.pc.toNat + 4) })).tick c, none)) := by
    unfold Dev.issueOnce
    simp only [hl, Dev.core_setCore_same, List.findSome?_cons, List.findSome?_nil, hexc, Option.map_none, List.foldl_cons,
      List.foldl_nil, List.nil_append]
    have hlo : ∀ (e : Dev) (f : Later), e.laterOrder [(w, f)] = (e, [(w, f)]) := by
      intro e f
      unfold Dev.laterOrder
      rw [if_pos]
      exact Nat.lt_of_le_of_lt (List.length_filter_le _ _) (by simp)
    simp only [hlo, List.foldl_cons, List.foldl_nil]
  have hn : k.pc.toNat + 4 * [w].length = k.pc.toNat + 4 := rfl
  unfold Dev.issuePlain
  simp only [Dev.core_setCore_same, hlegal, hwait, Bool.false_eq_true, if_false, hn, hone, hexc, Option.isSome_none,
    Bool.or_false, List.headD_cons]
  by_cases hr : k.runs w = true
  · obtain ⟨h1, h2, h3, h4, h5⟩ := halone hr
    simp only [hr, Bool.not_true, Bool.false_eq_true, if_false]
  · simp [hr]

/-- After a bundle with no imprecise exception recorded the bundle is simply gone. -/
theorem settle_eq (d : Dev) (c : Nat) (k : Core) (h : k.impPend = none) :
    (d.setCore c k).settleCore c = d.setCore c { k with bundle := [] } := by
  simp [Dev.settleCore, Dev.takeImprecise, h]

theorem pc_next (p : BitVec 16) : BitVec.ofNat 16 (p.toNat + 4) = p + 4 := by
  apply BitVec.eq_of_toNat_eq
  simp

/-- Nothing that a calm core has outstanding makes a bundle wait, but for a TAKE behind a Level-0 job. -/
theorem calm_not_waits (d : Dev) (c : Nat) (k : Core) (w : Nat) (h1 : k.outst = []) (h2 : k.errs = [])
    (htake : opOf w = some .take → (d.setCore c k).crcBusy c = false ∧ (d.setCore c k).sortBusy c = false) :
    (d.setCore c k).bundleWaits c [w] = false := by
  unfold Dev.bundleWaits
  simp only [Dev.core_setCore_same, h1, h2, List.flatMap_nil, List.any_cons, List.any_nil, Bool.or_false, Core.cxOuts,
    List.filter_nil, List.length_nil]
  have : ∀ l : List PhysReg, (l.any fun r => List.contains [] r) = false := by intro l; simp
  rw [this]
  cases hop : opOf w with
  | none => simp
  | some o =>
    cases o <;> simp
    exact fun _ => htake hop

/-- The general rule for an operation that only exposes register writes. -/
theorem coreOp_writes (d : Dev) (c : Nat) (w : BitVec 32) (lat : Nat) (wrs : List RegWr) (h : Calm d c)
    (hend : opEnd w.toNat = true) (hf : fieldsOk w.toNat = true)
    (hkind : ∀ o, opOf w.toNat = some o → o ≠ .take ∧ o ≠ .reti ∧ o ≠ .rpt ∧ o ≠ .rptr ∧ o ≠ .lv)
    (hexc : opExc ((d.core c).withOp w) w.toNat = none) (hlat : lat ≠ 0)
    (hrun : (d.setCore c ((d.core c).withOp w)).opRun c (d.core c).pc.toNat ((d.core c).pc.toNat + 4) ((d.core c).withOp w)
      w.toNat = (d.setCore c ((d.core c).withOp w), exposeAll c lat wrs)) :
    d.coreOp c w = d.setCore c ((d.core c).issued (wrs.map (fun x => (lat, x)))) := by
  rw [coreOp_calm d c w h hend]
  have hlegal : ((d.core c).withOp w).illegal [w.toNat] = none := by
    unfold Core.illegal
    rw [badOp_single _ _ hend hf]
    cases hop : opOf w.toNat with
    | none => simp [hop]
    | some o =>
      obtain ⟨_, h2, _, _, h5⟩ := hkind o hop
      simp [hop, h2, h5]
  have hwait : (d.setCore c ((d.core c).withOp w)).bundleWaits c [w.toNat] = false :=
    calm_not_waits d c _ _ h.outst h.errs (fun ht => absurd rfl (hkind _ ht).1)
  rw [issuePlain_single d c _ w.toNat hlegal hwait h.inflight hexc (by
    intro _
    cases hop : opOf w.toNat with
    | none => simp
    | some o => simpa using hkind o hop)]
  have hpc : ((d.core c).withOp w).pc = (d.core c).pc := rfl
  simp only [hpc, hrun, Dev.core_setCore_same, Dev.setCore_setCore]
  rw [exposeAll_eq, tick_eq _ _ _ (by simp [Core.withOp, h.inflight]; intros; exact hlat), settle_eq _ _ _ (by exact h.impPend)]
  congr 1
  simp [Core.withOp, Core.issued, h.inflight, h.bundle, pc_next, Function.comp_def, Core.bank]

/-- An operation that is predicated off only passes (R82). -/
theorem coreOp_pass (d : Dev) (c : Nat) (w : BitVec 32) (o : CoreOp) (h : Calm d c) (hop : opOf w.toNat = some o)
    (hend : opEnd w.toNat = true) (hf : fieldsOk w.toNat = true) (hreti : o = .reti → (d.core c).bank = true) (hlv : o ≠ .lv)
    (hoff : (d.core c).runs w.toNat = false) : d.coreOp c w = d.setCore c ((d.core c).issued []) := by
  rw [coreOp_calm d c w h hend]
  have hoff' : ((d.core c).withOp w).runs w.toNat = false := hoff
  have hlegal : ((d.core c).withOp w).illegal [w.toNat] = none := by
    unfold Core.illegal
    rw [badOp_single _ _ hend hf]
    have hb : ((d.core c).withOp w).bank = (d.core c).bank := rfl
    by_cases ho : o = .reti
    · subst ho; simp [hop, hb, hreti rfl]
    · simp [hop, ho, hlv]
  have hwait : (d.setCore c ((d.core c).withOp w)).bundleWaits c [w.toNat] = false := by
    unfold Dev.bundleWaits
    simp only [Dev.core_setCore_same]
    have h1 : ((d.core c).withOp w).outst = [] := h.outst
    simp [h1, hoff']
  rw [issuePlain_single d c _ w.toNat hlegal hwait h.inflight (by simp [opExc, hoff']) (by simp [hoff'])]
  have hpc : ((d.core c).withOp w).pc = (d.core c).pc := rfl
  simp only [Dev.opRun, hoff', Bool.not_false, if_true, id, Dev.core_setCore_same, Dev.setCore_setCore, hpc]
  rw [tick_eq _ _ _ (by simp [Core.withOp, h.inflight]), settle_eq _ _ _ (by exact h.impPend)]
  congr 1
  simp [Core.withOp, Core.issued, h.inflight, h.bundle, pc_next]

/-- An operation that executes and raises no exception: what it reads at once, then what it does after the pc has moved, then
the end of the cycle. -/
theorem coreOp_exec (d : Dev) (c : Nat) (w : BitVec 32) (o : CoreOp) (h : Calm d c) (hop : opOf w.toNat = some o)
    (hend : opEnd w.toNat = true) (hf : fieldsOk w.toNat = true)
    (hkind : o ≠ .take ∧ o ≠ .reti ∧ o ≠ .rpt ∧ o ≠ .rptr ∧ o ≠ .lv)
    (hexc : opExc ((d.core c).withOp w) w.toNat = none) :
    d.coreOp c w =
      let k := (d.core c).withOp w
      let r := (d.setCore c k).opRun c k.pc.toNat (k.pc.toNat + 4) k w.toNat
      ((r.2 (r.1.setCore c { r.1.core c with pc := BitVec.ofNat 16 (k.pc.toNat + 4) })).tick c).settleCore c := by
  obtain ⟨h1, h2, h3, h4, h5⟩ := hkind
  rw [coreOp_calm d c w h hend]
  have hlegal : ((d.core c).withOp w).illegal [w.toNat] = none := by
    unfold Core.illegal
    rw [badOp_single _ _ hend hf]
    simp [hop, h2, h5]
  have hwait : (d.setCore c ((d.core c).withOp w)).bundleWaits c [w.toNat] = false :=
    calm_not_waits d c _ _ h.outst h.errs (fun ht => absurd (Option.some.inj (hop.symm.trans ht)) h1)
  exact issuePlain_single d c _ w.toNat hlegal hwait h.inflight hexc (by simp [hop, h1, h2, h3, h4, h5])

/-! ### Commands -/

/-- A command of a core whose operation is legal and whose clocks run is the core's operation. -/
theorem coreOp_ready (s : State) (c : Nat) (w : BitVec 32) (o : CoreOp) (h : Ready1 s c w o) :
    s.coreOp o c w = .next (s.withDev (s.dev.coreOp c w)) := by
  simp [State.coreOp, checked, names, h.op, State.unit, h.clocked]

/-- An operation common to S0 and S1 that executes. -/
theorem common_ready (s : State) (c : Nat) (w : BitVec 32) (o : CoreOp) (lat : Nat) (wrs : List RegWr) (h : Ready1 s c w o)
    (hr : Ready1.Runs s c w) (hu : opUnit w.toNat = 0 ∨ opUnit w.toNat = 1)
    (ho : o ∈ [CoreOp.alu, .addi, .andi, .ori, .xori, .shi, .mul, .cmp, .plog, .mvsp, .mvps, .movw])
    (hlat : lat ≠ 0) (hrun : commonRun (s.dev.core c) w.toNat = (lat, wrs)) :
    s.coreOp o c w = .next (s.coreTo c ((s.dev.core c).issued (wrs.map (fun x => (lat, x))))) := by
  rw [coreOp_ready s c w o h]
  congr 2
  have hr' : ((s.dev.core c).withOp w).runs w.toNat = true := hr
  have hcr : commonRun ((s.dev.core c).withOp w) w.toNat = (lat, wrs) := hrun
  have hop := h.op
  apply coreOp_writes _ _ _ _ _ h.calm h.last h.legal
  · intro o' ho'
    have : o' = o := by rw [hop] at ho'; exact (Option.some.inj ho').symm
    subst this
    simp only [List.mem_cons, List.not_mem_nil, or_false] at ho
    rcases ho with h | h | h | h | h | h | h | h | h | h | h | h <;> subst h <;> decide
  · simp only [List.mem_cons, List.not_mem_nil, or_false] at ho
    rcases ho with h | h | h | h | h | h | h | h | h | h | h | h <;> subst h <;> simp [opExc, hop]
  · exact hlat
  · simp only [List.mem_cons, List.not_mem_nil, or_false] at ho
    rcases ho with h | h | h | h | h | h | h | h | h | h | h | h <;> subst h <;> rcases hu with hu | hu <;>
      simp [Dev.opRun, hr', hop, hu, hcr]

end Sys2Proof.Machine
end

