-- ==== Sys2Proof/Laws/Gate.lean ====
section
/-!
SUPPORT. What a command answers, by the gate its meaning goes through.
-/
namespace Sys2Proof.Machine

/-! ### Each gate, open and closed -/

theorem always_eq (s : State) (f : Dev → Dev) : s.always f = .next (s.withDev (f s.dev)) := rfl

theorem unit_on (s : State) (f : Dev → Dev) (h : s.dev.clocked = true) : s.unit f = .next (s.withDev (f s.dev)) := by
  simp [State.unit, h]

theorem unit_off (s : State) (f : Dev → Dev) (h : s.dev.clocked = false) : s.unit f = .next s := by simp [State.unit, h]

theorem fabric_on (s : State) (f : Dev → Dev) (h : s.dev.powered = true) : s.fabric f = .next (s.withDev (f s.dev)) := by
  simp [State.fabric, h]

theorem fabric_off (s : State) (f : Dev → Dev) (h : s.dev.powered = false) : s.fabric f = .next s := by simp [State.fabric, h]

theorem timed_on (s : State) (f : Dev → Dev) (h : s.dev.pwr.mode ≠ 0) : s.timed f = .next (s.withDev (f s.dev)) := by
  simp [State.timed, h]

theorem whole_eq (s : State) (f : Sys → Sys) : s.whole f = .next (s.withSys (f s.sys)) := rfl

theorem served_on (s : State) (f : Sys → Sys) (h : s.dev.powered = true) : s.served f = .next (s.withSys (f s.sys)) := by
  simp [State.served, h]

theorem served_off (s : State) (f : Sys → Sys) (h : s.dev.powered = false) : s.served f = .next s := by simp [State.served, h]

theorem engReg_on (s : State) (cls u : Nat) (f : Dev → Dev) (h : s.dev.clocked = true) :
    s.engReg cls u f = .next (s.withDev (f (s.dev.wakeFor (unitWin cls u)))) := unit_on s _ h

theorem checked_on (b : Bool) (r : Result) (h : b = true) : checked b r = r := by simp [checked, h]

theorem checked_off (b : Bool) (r : Result) (h : b = false) : checked b r = .refused .illFormed := by simp [checked, h]

/-- The clocks run only where the fabric is powered. -/
theorem powered_of_clocked (d : Dev) (h : d.clocked = true) : d.powered = true := by
  simp only [Dev.clocked, Bool.and_eq_true] at h
  exact h.1

/-! ### Every gate completes and leaves the queue -/

theorem unit_next (s : State) (f : Dev → Dev) : ∃ d, s.unit f = .next (s.withDev d) := by
  cases h : s.dev.clocked
  · exact ⟨s.dev, unit_off s f h⟩
  · exact ⟨_, unit_on s f h⟩

theorem fabric_next (s : State) (f : Dev → Dev) : ∃ d, s.fabric f = .next (s.withDev d) := by
  cases h : s.dev.powered
  · exact ⟨s.dev, fabric_off s f h⟩
  · exact ⟨_, fabric_on s f h⟩

theorem timed_next (s : State) (f : Dev → Dev) : ∃ d, s.timed f = .next (s.withDev d) := by
  by_cases h : s.dev.pwr.mode ≠ 0
  · exact ⟨_, timed_on s f h⟩
  · exact ⟨s.dev, by simp [State.timed, h]⟩

theorem served_next (s : State) (f : Sys → Sys) : ∃ y, s.served f = .next (s.withSys y) := by
  cases h : s.dev.powered
  · exact ⟨s.sys, served_off s f h⟩
  · exact ⟨_, served_on s f h⟩

end Sys2Proof.Machine
end

