-- ==== Sys2Proof/Laws/MemoryAccess.lean ====
section
/-!
SUPPORT. Every access of memory keeps its canonical form.
-/
namespace Sys2Proof.Machine

theorem foldl_wf {α : Type} (f : MemState → α → MemState) (hf : ∀ m x, m.wf = true → (f m x).wf = true) (l : List α)
    (m : MemState) (h : m.wf = true) : (l.foldl f m).wf = true := by
  induction l generalizing m with
  | nil => exact h
  | cons x xs ih => exact ih _ (hf m x h)

theorem foldl_dev_wf {α : Type} (f : Dev → α → Dev) (hf : ∀ d x, d.mem.wf = true → (f d x).mem.wf = true) (l : List α)
    (d : Dev) (h : d.mem.wf = true) : (l.foldl f d).mem.wf = true := by
  induction l generalizing d with
  | nil => exact h
  | cons x xs ih => exact ih _ (hf d x h)

theorem setSyn_data (m : MemState) (l : Nat) (v : BitVec 512) : (m.setSyn l v).data = m.data := rfl
theorem setChk_data (m : MemState) (l : Nat) (v : BitVec 64) : (m.setChk l v).data = m.data := rfl

/-! ### Logging -/

theorem logEvent_wf (d : Dev) (r : Region) (a : Nat) (e : LogEvent) (h : d.mem.wf = true) : (d.logEvent r a e).mem.wf = true := by
  simp only [Dev.logEvent]
  split
  · exact h
  · split
    · exact h
    · exact h

theorem unfilter_wf (d : Dev) (a : Nat) (h : d.mem.wf = true) : (d.unfilter a).mem.wf = true := h

theorem pwPoison_wf (d : Dev) (r : Region) (l q : Nat) (h : d.mem.wf = true) : (d.pwPoison r l q).mem.wf = true :=
  logEvent_wf _ _ _ _ h

/-! ### On-chip lines -/

theorem ueLine_wf (d : Dev) (r : Region) (l s q : Nat) (h : d.mem.wf = true) : (d.ueLine r l s q).mem.wf = true :=
  logEvent_wf _ _ _ _ (poisonLine_wf _ _ h)

theorem ceLine_wf (d : Dev) (r : Region) (l : Nat) (v : Verdict) (s q : Nat) (h : d.mem.wf = true) :
    (d.ceLine r l v s q).mem.wf = true := by
  cases v with
  | corrected => exact logEvent_wf _ _ _ _ h
  | erasure => exact logEvent_wf _ _ _ _ h
  | _ => exact h

theorem readSram_wf (d : Dev) (ag : Agent) (r : Region) (l : Nat) (h : d.mem.wf = true) : (d.readSram ag r l).1.mem.wf = true := by
  simp only [Dev.readSram]
  split
  · exact h
  · exact ueLine_wf _ _ _ _ _ h
  · exact ceLine_wf _ _ _ _ _ _ h

theorem writeSram_wf (d : Dev) (ag : Agent) (r : Region) (l o : Nat) (bs : List Byte) (h : d.mem.wf = true) :
    (d.writeSram ag r l o bs).1.mem.wf = true := by
  simp only [Dev.writeSram]
  split
  · exact storeLine_wf _ _ _ h
  · split
    · exact pwPoison_wf _ _ _ _ h
    · exact pwPoison_wf _ _ _ _ (ueLine_wf _ _ _ _ _ h)
    · exact storeLine_wf _ _ _ (ceLine_wf _ _ _ _ _ _ h)

/-! ### DDR5 -/

theorem poisonOctet_wf (m : MemState) (l : Nat) (h : m.wf = true) : (m.poisonOctet l).wf = true :=
  setChk_wf _ _ _ (setSyn_wf _ _ _ (foldl_wf _ (fun m _ h => poisonDdr_wf m _ h) _ _ h))

theorem ueOctet_wf (d : Dev) (l s q : Nat) (h : d.mem.wf = true) : (d.ueOctet l s q).mem.wf = true :=
  logEvent_wf _ _ _ _ (poisonOctet_wf _ _ h)

theorem ceOctet_wf (d : Dev) (l : Nat) (v : Verdict) (s q : Nat) (h : d.mem.wf = true) : (d.ceOctet l v s q).mem.wf = true := by
  cases v with
  | corrected => exact logEvent_wf _ _ _ _ h
  | erasure => exact logEvent_wf _ _ _ _ h
  | _ => exact h

theorem fetchDdr_wf (d : Dev) (l s q : Nat) (h : d.mem.wf = true) : (d.fetchDdr l s q).1.mem.wf = true := by
  simp only [Dev.fetchDdr]
  split
  · exact h
  · split
    · exact h
    · split
      · exact ueOctet_wf _ _ _ _ h
      · exact h
      · exact ceOctet_wf _ _ _ _ _ h

theorem readDdr_wf (d : Dev) (ag : Agent) (l : Nat) (h : d.mem.wf = true) : (d.readDdr ag l).1.mem.wf = true := by
  have hf := fetchDdr_wf d l 0 ag.word h
  simp only [Dev.readDdr]
  split
  · split
    · exact h
    · split <;> simp_all
  · split <;> simp_all

theorem clcAccess_wf (d : Dev) (o : Nat) (h : d.mem.wf = true) : (d.clcAccess o).mem.wf = true := by
  simp only [Dev.clcAccess]
  split
  · exact h
  · split
    · exact h
    · exact h

theorem flushLine_wf (d : Dev) (e : CombEntry) (u : Nat) (h : d.mem.wf = true) : (d.flushLine e u).mem.wf = true := by
  have hf := fetchDdr_wf (d.bump (memCnt 9)) (8 * e.octet + u) 2 e.req h
  simp only [Dev.flushLine]
  split
  · exact h
  · split
    next d' old hq =>
      rw [hq] at hf
      exact storeDdr_wf _ _ _ _ hf
    next d' hq =>
      rw [hq] at hf
      split
      · exact storeDdr_wf _ _ _ _ hf
      · exact pwPoison_wf _ _ _ _ hf

theorem flushEntry_wf (d : Dev) (e : CombEntry) (h : d.mem.wf = true) : (d.flushEntry e).mem.wf = true := by
  simp only [Dev.flushEntry]
  split
  · refine unfilter_wf _ _ ?_
    have hm := foldl_wf (fun m u => (m.putBytes (64 * (8 * e.octet + u)) (e.overlay u [])).setBad (8 * e.octet + u) 0)
      (fun m _ hm => setBad_wf _ _ _ (putBytes_wf _ _ _ hm)) (List.range 8)
      { d.mem with comb := d.mem.comb.filter (fun x => decide (x.octet ≠ e.octet)) } h
    simp only [MemState.wf, Dev.bump_mem, setChk_data, setSyn_data] at hm ⊢
    exact hm
  · have hc : (Dev.clcAccess { d with mem := { d.mem with comb := d.mem.comb.filter (fun x => decide (x.octet ≠ e.octet)) } } e.octet).mem.wf
        = true := clcAccess_wf _ _ h
    generalize Dev.clcAccess _ e.octet = d' at hc ⊢
    exact unfilter_wf _ _ (foldl_dev_wf _ (fun d u hd => flushLine_wf d e u hd) (List.range 8) d' hc)

theorem writeDdr_wf (d : Dev) (ag : Agent) (l o : Nat) (bs : List Byte) (h : d.mem.wf = true) :
    (d.writeDdr ag l o bs).mem.wf = true := by
  simp only [Dev.writeDdr]
  split
  · exact h
  · split
    · split
      · exact flushEntry_wf _ _ h
      · exact h
    · exact h

/-! ### Accesses -/

theorem readLine_wf (d : Dev) (ag : Agent) (a n : Nat) (h : d.mem.wf = true) : (d.readLine ag a n).1.mem.wf = true := by
  have hd := readDdr_wf d ag ((d.locate ag a).2 / 64) h
  have hs := fun r => readSram_wf d ag r ((d.locate ag a).2 / 64) h
  simp only [Dev.readLine]
  split
  · exact h
  · exact h
  · split <;> simp_all
  · split
    next d' bs hq => have := hs (d.locate ag a).1; rw [hq] at this; exact this
    next d' hq => have := hs (d.locate ag a).1; rw [hq] at this; exact this

theorem writeLine_wf (d : Dev) (ag : Agent) (a : Nat) (bs : List Byte) (h : d.mem.wf = true) :
    (d.writeLine ag a bs).1.mem.wf = true := by
  have hs := writeSram_wf d ag (d.locate ag a).1 ((d.locate ag a).2 / 64) ((d.locate ag a).2 % 64) bs h
  simp only [Dev.writeLine]
  split
  · exact h
  · exact h
  · exact writeDdr_wf _ _ _ _ _ h
  · split
    next d' hq => rw [hq] at hs; exact hs
    next d' hq => rw [hq] at hs; exact hs

/-- A read of memory keeps the canonical form. -/
theorem memRead_wf (d : Dev) (ag : Agent) (a n : Nat) (h : d.mem.wf = true) : (d.memRead ag a n).1.mem.wf = true := by
  unfold Dev.memRead
  generalize linePieces a n = ps
  suffices ∀ acc : Dev × RResp, acc.1.mem.wf = true → (ps.foldl (fun (acc : Dev × RResp) p =>
      match acc with
      | (d, .ok bs) =>
        match d.readLine ag (a + p.1) p.2 with
        | (d, .ok more) => (d, .ok (bs ++ more))
        | (d, e) => (d, e)
      | other => other) acc).1.mem.wf = true from this _ h
  induction ps with
  | nil => exact fun acc h => h
  | cons p ps ih =>
    intro acc h
    refine ih _ ?_
    dsimp only
    split
    next d' bs =>
      have hr := readLine_wf d' ag (a + p.1) p.2 h
      split
      next hq => rw [hq] at hr; exact hr
      next d2 r2 _ hq => rw [hq] at hr; exact hr
    next => exact h

/-- A write of memory keeps the canonical form. -/
theorem memWrite_wf (d : Dev) (ag : Agent) (a : Nat) (bs : List Byte) (h : d.mem.wf = true) :
    (d.memWrite ag a bs).1.mem.wf = true := by
  unfold Dev.memWrite
  generalize linePieces a bs.length = ps
  suffices ∀ acc : Dev × WResp, acc.1.mem.wf = true → (ps.foldl (fun (acc : Dev × WResp) p =>
      match acc.1.writeLine ag (a + p.1) ((bs.drop p.1).take p.2) with
      | (d, w) => (d, if acc.2 = .ok then w else acc.2)) acc).1.mem.wf = true from this _ h
  induction ps with
  | nil => exact fun acc h => h
  | cons p ps ih => exact fun acc h => ih _ (writeLine_wf _ _ _ _ h)

end Sys2Proof.Machine
end

