-- ==== Sys2Proof/Laws/Registers.lean ====
section
/-!
SUPPORT. What 64-bit registers, counters and interrupt bits read after they are written, counted and set.
-/
namespace Sys2Proof.Machine

theorem Dev.reg_setReg64 (d : Dev) (a b v : Nat) :
    (d.setReg64 a v).reg b = if b = a + 4 then BitVec.ofNat 32 (v >>> 32) else if b = a then BitVec.ofNat 32 v else d.reg b := by
  simp only [Dev.setReg64, Dev.setRegN, Dev.reg_setReg]

/-- A 64-bit register reads what was stored. -/
theorem Dev.reg64_setReg64_same (d : Dev) (a v : Nat) (h : v < 2 ^ 64) : (d.setReg64 a v).reg64 a = v := by
  have h1 : ¬ a = a + 4 := by omega
  simp only [Dev.reg64, Dev.regN, Dev.reg_setReg64, if_neg h1, if_true, BitVec.toNat_ofNat, Nat.shiftRight_eq_div_pow]
  omega

/-- Another 64-bit register is unchanged. -/
theorem Dev.reg64_setReg64_other (d : Dev) (a b v : Nat) (h : b + 4 < a ∨ a + 4 < b) : (d.setReg64 a v).reg64 b = d.reg64 b := by
  have h1 : ¬ b = a + 4 := by omega
  have h2 : ¬ b = a := by omega
  have h3 : ¬ b + 4 = a + 4 := by omega
  have h4 : ¬ b + 4 = a := by omega
  simp only [Dev.reg64, Dev.regN, Dev.reg_setReg64, if_neg h1, if_neg h2, if_neg h3, if_neg h4]

/-- A counter after events. -/
theorem Dev.reg64_bumpBy_same (d : Dev) (a n : Nat) : (d.bumpBy a n).reg64 a = (d.reg64 a + n) % 2 ^ 64 :=
  Dev.reg64_setReg64_same d a _ (Nat.mod_lt _ (by decide))

theorem Dev.reg64_bumpBy_other (d : Dev) (a b n : Nat) (h : b + 4 < a ∨ a + 4 < b) : (d.bumpBy a n).reg64 b = d.reg64 b :=
  Dev.reg64_setReg64_other d a b _ h

theorem Dev.reg_bumpBy_other (d : Dev) (a b n : Nat) (h1 : b ≠ a) (h2 : b ≠ a + 4) : (d.bumpBy a n).reg b = d.reg b := by
  simp only [Dev.bumpBy, Dev.reg_setReg64, if_neg h2, if_neg h1]

theorem Dev.reg_bump_other (d : Dev) (a b : Nat) (h1 : b ≠ a) (h2 : b ≠ a + 4) : (d.bump a).reg b = d.reg b :=
  Dev.reg_bumpBy_other d a b 1 h1 h2

/-- A register after bits were set in it. -/
theorem Dev.reg_setBits (d : Dev) (a b m : Nat) : (d.setBits a m).reg b = if b = a then d.reg a ||| BitVec.ofNat 32 m else d.reg b :=
  Dev.reg_setReg d a b _

/-- A set bit reads 1. -/
theorem Dev.setBits_bit (d : Dev) (a k : Nat) (h : k < 32) : ((d.setBits a (2 ^ k)).reg a).getLsbD k = true := by
  rw [Dev.reg_setBits, if_pos rfl, BitVec.getLsbD_or, BitVec.getLsbD_ofNat]
  simp [h]

end Sys2Proof.Machine
end

