-- ==== Sys2Proof/Laws/Vault.lean ====
section
/-!
SUPPORT. The boot control block after it is written, and what waits for Standby when nothing does.
-/
namespace Sys2Proof.Machine

/-- The governing boot control block is the one that was written last. -/
theorem bcb_putBcb (v : Vault) (b : Bcb) : (v.putBcb b).bcb = { b with seq := v.bcb.seq + 1 } := by
  have hn : ∀ n : Nat, ¬ n + 1 < n := fun n => by omega
  unfold Vault.putBcb Vault.bcb Vault.bcb?
  cases h0 : v.bcb0 with
  | none =>
    cases h1 : v.bcb1 with
    | none => simp
    | some y => simp [hn]
  | some x =>
    cases h1 : v.bcb1 with
    | none => simp
    | some y =>
      by_cases h : x.seq < y.seq
      · simp [h, hn]
      · simp only [h, if_false, Option.getD_some]
        rw [if_pos (by simp)]
        simp

@[simp] theorem putBcb_otp (v : Vault) (b : Bcb) : (v.putBcb b).otp = v.otp := by
  simp only [Vault.putBcb]
  split <;> try split
  all_goals rfl

@[simp] theorem putBcb_svn (v : Vault) (b : Bcb) : (v.putBcb b).svn = v.svn := by
  simp only [Vault.putBcb]
  split <;> try split
  all_goals rfl

@[simp] theorem putBcb_chal (v : Vault) (b : Bcb) : (v.putBcb b).chal = v.chal := by
  simp only [Vault.putBcb]
  split <;> try split
  all_goals rfl

@[simp] theorem putBcb_images (v : Vault) (b : Bcb) : (v.putBcb b).images = v.images := by
  simp only [Vault.putBcb]
  split <;> try split
  all_goals rfl

/-- Nothing waits for Standby. -/
theorem goalNext_idle (y : Sys) (h : y.dev.upd.goal = 0) : y.goalNext = y := by
  unfold Sys.goalNext
  simp [h]

end Sys2Proof.Machine
end

