-- ==== Sys2Proof/Tests/Slice0.lean ====
section
/-!
SUPPORT. Tests of the model: commands that no sender can give, small steps, and for every statement with hypotheses a state and
operands that meet them. The operation words are put together from the fields of R82, R126 and R139, and expected values are
worked out by hand from the rules named.
-/
namespace Sys2Proof.Tests
open Machine

set_option Elab.async false

/-- A device in Full mode whose clocks run, and the same in another mode. -/
def lit : State := { dev := {
  pwr := { mode := 5 }
  pins := { porst := false, b1 := true }
  sup := { ready := true, slot := some 0 }
  mem := { filled := true }
  time := { inc := 139810133333 } } }
def inMode (m : Nat) : State := lit.withDev { lit.dev with pwr := { mode := m } }

/-- A state after a command. -/
def after (i : Instr) (s : State) : State :=
  match exec i s with
  | .next t => t
  | .fault _ => s
  | .refused _ => s

/-! ### Commands that no sender can give -/

/-- An agent that does not exist gives no command. -/
theorem test_wf_agent : (Instr.memLogCi (.core 192) 0).wf = false ∧ (Instr.memLogCi (.core 191) 0).wf = true := by decide

/-- Neither does a token source that does not exist. -/
theorem test_wf_source : (Instr.tokenAccept (.tokenQueue 4)).wf = false ∧ (Instr.tokenAccept (.tokenQueue 3)).wf = true := by decide

/-- A word of another operation does not fit a row: 0x00800000 is ALU, 0x3F800000 NOP. -/
theorem test_wf_word : (Instr.alu 0 0x3F800000).wf = false ∧ (Instr.alu 0 0x00800000).wf = true := by decide

/-- Lengths of data. -/
theorem test_wf_lengths : (Instr.registerWrite .smilda 0 []).wf = false ∧ (Instr.registerWrite .smilda 0 (zeros 65)).wf = false
    ∧ (Instr.registerWrite .smilda 0 (zeros 64)).wf = true ∧ (Instr.memoryWrite .smilda 0 (zeros 257)).wf = false
    ∧ (Instr.memoryWrite .smilda 0 (zeros 256)).wf = true ∧ (Instr.bar4Access 0 true 4 []).wf = false
    ∧ (Instr.bar4Access 0 false 4 []).wf = true ∧ (Instr.sensorRead [] []).wf = false := by decide +kernel

/-- A NAP message carries its row's OP in byte 1. -/
theorem test_wf_nap : (Instr.get 0 [1, 0x11]).wf = false ∧ (Instr.get 0 [1, 0x10]).wf = true := by decide

/-- An ill-formed command is refused by name. -/
theorem test_ill_formed_refused : exec (.memLogCi (.core 192) 0) lit = .refused .illFormed := by rfl

/-! ### A core that is ready -/

/-- An operation word that ends its bundle, from UNIT, CODE, D, A, B and the low four bits (R82). -/
def word (unit code d a b low : Nat) : BitVec 32 :=
  BitVec.ofNat 32 (unit * 2 ^ 30 + code * 2 ^ 24 + 2 ^ 23 + d * 2 ^ 14 + a * 2 ^ 9 + b * 2 ^ 4 + low)

/-- Registers: s6 and s7 form the Pool address 0x2_0000_0100, s8 and s9 a CRC job, s10 and s11 a sort, s14 and s16 arrays,
s18 the last 64 bytes of local memory, s20 and s21 repeats; window 0 admits Pool (R96), VLEN is 20. -/
def core0 : Core := (({
  released := true
  pc := 0x40
  sregs := [(6, 0x100), (7, 2), (8, 32), (9, 0x400), (10, 0x10001), (11, 0x800), (12, 0x40), (14, 0x200), (16, 0x300), (18, 0x3FFC0),
    (20, 4096), (21, 4097)]
  pregs := [(0, BitVec.allOnes 64), (2, 0xFFFF)] } : Core).setCrN 0x60 0xE8020000).setCrN 0x98 20
def coreOf (k : Core) : State := lit.withDev (lit.dev.setCore 11 k)
def coreS : State := coreOf core0

/-- Ready1 as a test of a device with no damage stored. -/
def ready (s : State) (c : Nat) (w : BitVec 32) (o : CoreOp) : Bool :=
  let d := s.dev
  let k := d.core c
  decide (s.dev.clocked = true ∧ c < 192 ∧ d.coreRuns c = true ∧ k.bundle = [] ∧ k.inflight = [] ∧ k.outst = [] ∧ k.errs = []
    ∧ k.impPend = none ∧ k.rptNext = none ∧ k.lv = false ∧ (k.mayAccept = true → d.dueLine c = none)
    ∧ bit (d.regN (memBase + 0x54)) (c / 8) = false ∧ k.pc.toNat % 4 = 0
    ∧ d.mem.lineQuiet ((lmBase c + 0x40000 + k.pc.toNat) / 64) = true
    ∧ opOf w.toNat = some o ∧ opEnd w.toNat = true ∧ fieldsOk w.toNat = true)

theorem ready1_of_ready {s : State} {c : Nat} {w : BitVec 32} {o : CoreOp} (h : ready s c w o = true) : Ready1 s c w o := by
  obtain ⟨h1, h2, h3, h4, h5, h6, h7, h8, h9, h10, h11, h12, h13, h14, h15, h16, h17⟩ := of_decide_eq_true h
  exact ⟨h1, ⟨h2, h3, h4, h5, h6, h7, h8, h9, h10, h11, h12, h13, h14⟩, h15, h16, h17⟩

/-- One word or more of every operation, by the code tables of R89 to R92, R128, R130, R134, R154, R156, R158 and R161. -/
def scalarWords : List (CoreOp × BitVec 32) := [
  (.alu, word 0 0x00 1 6 8 0), (.addi, word 1 0x01 1 6 31 15), (.andi, word 1 0x02 1 6 0 1), (.ori, word 0 0x03 1 6 0 1),
  (.xori, word 0 0x04 1 6 0 1), (.shi, word 1 0x05 1 6 0 3), (.mul, word 1 0x06 1 6 8 2), (.cmp, word 0 0x07 4 6 8 5),
  (.plog, word 0 0x08 4 0 0 0), (.mvsp, word 1 0x09 4 6 0 0), (.mvps, word 1 0x0A 2 0 0 0), (.movw, 0x0B84FFFF),
  (.nop, 0x3F800000), (.load, word 1 0x14 1 6 0 0), (.loadPi, word 1 0x1A 1 6 0 1), (.store, word 1 0x1F 8 6 0 0),
  (.storePi, word 1 0x20 8 6 0 1), (.ldgw, word 1 0x24 1 6 0 0), (.ldgd, word 1 0x25 2 6 0 0), (.stgw, word 1 0x26 8 6 0 0),
  (.stgd, word 1 0x27 8 6 0 0), (.aadd, word 1 0x28 8 6 0 0)]
def controlWords : List (CoreOp × BitVec 32) := [
  (.br, 0x30800004), (.call, 0x3187FFFF), (.jr, word 0 0x32 0 12 0 0), (.rpt, 0x338000FF), (.rptr, word 0 0x34 0 20 0 0),
  (.rptr, word 0 0x34 0 21 0 0), (.take, word 0 0x35 1 8 0 0), (.emit, word 0 0x36 0 6 0 3), (.post, word 0 0x37 0 6 8 0),
  (.mfc, 0x38804010), (.mtc, word 0 0x39 0 8 0 3), (.reti, 0x3A800000), (.trap, 0x3B8000FF), (.fence, 0x3C800000),
  (.fenceI, 0x3D800000), (.ien, 0x3E800001)]
def v0Words : List (CoreOp × BitVec 32) := [
  (.vadd, word 2 0x00 1 2 3 4), (.vadds, word 2 0x01 1 2 3 0), (.vsub, word 2 0x02 1 2 3 1), (.vsubs, word 2 0x03 1 2 3 2),
  (.vlog, word 2 0x04 1 2 3 3), (.vshl, word 2 0x05 1 2 5 0), (.vshr, word 2 0x06 1 2 5 1), (.vsar, word 2 0x07 1 2 5 2),
  (.vsarr, word 2 0x08 1 2 5 3), (.vmin, word 2 0x09 1 2 3 0), (.vmax, word 2 0x0A 1 2 3 1), (.vabs, word 2 0x0B 1 2 0 2),
  (.vcls, word 2 0x0C 1 2 0 1), (.vcmp, word 2 0x0D 4 2 3 2), (.vsel, word 2 0x0E 257 2 3 2), (.vmulq, word 2 0x10 1 2 3 1),
  (.vcmul, word 2 0x11 1 2 3 1), (.vcmag, word 2 0x12 1 2 0 0), (.vmulw, word 2 0x13 1 2 3 1), (.vdot2, word 2 0x14 1 2 3 1),
  (.vdot4, word 2 0x15 1 2 3 0), (.vcmac, word 2 0x18 4 2 3 5), (.vcmacb, word 2 0x19 4 2 3 15), (.vcmacbj, word 2 0x1A 4 2 3 0),
  (.vacrd, word 2 0x1B 1 4 0 2)]
def v1Words : List (CoreOp × BitVec 32) := [
  (.vld, word 3 0x00 1 6 0 0), (.vldPi, word 3 0x01 1 6 0 1), (.vst, word 3 0x02 1 6 0 0), (.vstPi, word 3 0x03 1 18 31 15),
  (.vldg, word 3 0x04 1 6 0 0), (.vstg, word 3 0x05 1 6 0 0), (.vgath, word 3 0x06 1 6 2 1), (.vscat, word 3 0x07 1 6 2 0),
  (.vacsv, word 3 0x08 4 6 0 0), (.vacld, word 3 0x09 4 6 0 0), (.vbcast, word 3 0x10 1 6 0 3), (.vext, word 3 0x11 1 2 0 15),
  (.vins, word 3 0x12 1 6 0 15), (.vperm, word 3 0x13 1 2 3 0), (.vsplit, word 3 0x14 1 2 3 2), (.vslide, word 3 0x15 1 2 3 15),
  (.lv, word 3 0x18 16 6 14 4), (.lv, word 3 0x18 1 6 14 6), (.crcZero, word 3 0x30 1 6 8 0), (.crcOnes, word 3 0x30 1 6 8 14),
  (.test, word 3 0x30 1 0 0 7), (.test, word 3 0x33 1 0 0 7), (.kill, word 3 0x30 0 0 0 15), (.kill, word 3 0x33 0 0 0 15),
  (.inv, word 3 0x31 1 2 5 0), (.invh, word 3 0x31 1 2 5 1), (.demap, word 3 0x32 2 2 3 5), (.demap, word 3 0x32 1 2 3 0),
  (.topkLargest, word 3 0x33 1 6 10 0), (.topkSmallest, word 3 0x33 1 6 10 1)]

/-- Every core operation can be ready and run (ScalarArithmetic, PredicateOperations, VectorArithmetic, VectorCompareAndSelect,
AccumulatorsAdd, VectorPermutes, LevelOneOperations, and with more below the others). -/
theorem test_words_ready : ∀ p : CoreOp × BitVec 32, p ∈ scalarWords ++ controlWords ++ v0Words ++ v1Words →
    Ready1 coreS 11 p.2 p.1 ∧ Ready1.Runs coreS 11 p.2 := by
  have h : (scalarWords ++ controlWords ++ v0Words ++ v1Words).all
      (fun p => ready coreS 11 p.2 p.1 && (coreS.dev.core 11).runs p.2.toNat) = true := by decide +kernel
  intro p hp
  have := List.all_eq_true.mp h p hp
  rw [Bool.and_eq_true] at this
  exact ⟨ready1_of_ready this.1, this.2⟩


/-- A table that lists a value at every key of a range. -/
theorem get_listed {α : Type} (dflt : Nat → α) (v : α) : ∀ (n off i : Nat), i < n →
    Tab.get dflt ((List.range' off n).map (fun j => (j, v))) (off + i) = v
  | 0, _, i, h => absurd h (Nat.not_lt_zero i)
  | n + 1, off, 0, _ => by simp [List.range'_succ, Tab.get]
  | n + 1, off, i + 1, h => by
    have := get_listed dflt v n (off + 1) i (by omega)
    rw [show off + 1 + i = off + (i + 1) by omega] at this
    rw [List.range'_succ, List.map_cons, Tab.get, if_neg (by omega)]
    exact this

/-- No damage is stored in a memory without damage. -/
theorem quiet_of_clean (m : MemState) (h1 : m.badPar = []) (h2 : m.syn = []) (h3 : m.chkBad = []) (p n : Nat) : m.quietAt p n := by
  intro x _ _
  simp [MemState.lineQuiet, MemState.bad, MemState.chk, MemState.syndrome, Tab.get, h1, h2, h3]
theorem quiet_core (p n : Nat) : coreS.dev.mem.quietAt p n := quiet_of_clean _ rfl rfl rfl p n
theorem quiet_lit (p n : Nat) : lit.dev.mem.quietAt p n := quiet_of_clean _ rfl rfl rfl p n

/-! ### Scalar operations: a predicated word, addresses, repeats, control registers and nodes -/

/-- PEN with p1, which is 0 (PredicatedOffDoesNothing); RETI in bank 1. -/
theorem witness_predicated_off : let w := word 0 0x00 (1 + 2 ^ 8 + 2 ^ 5) 6 8 0
    Ready1 coreS 11 w .alu ∧ opUnit w.toNat < 2 ∧ opPen w.toNat = true ∧ CoreOp.alu ≠ .movw
      ∧ (CoreOp.alu = .reti → (coreS.dev.core 11).bank = true) ∧ ((coreS.dev.core 11).p (opPreg w.toNat)).getLsbD 0 = false :=
  ⟨ready1_of_ready (by decide +kernel), by decide +kernel⟩
theorem witness_predicated_reti : let w : BitVec 32 := 0x3AC80000
    let s := coreOf (core0.setCrN 4 2)
    Ready1 s 11 w .reti ∧ opUnit w.toNat < 2 ∧ opPen w.toNat = true ∧ (s.dev.core 11).bank = true
      ∧ ((s.dev.core 11).p (opPreg w.toNat)).getLsbD 0 = false :=
  ⟨ready1_of_ready (by decide +kernel), by decide +kernel⟩

/-- Aligned local addresses, the last one of the data alias among them (LocalMemoryOperations, VectorLoadsAndStores). -/
theorem witness_local_addresses : let k := coreS.dev.core 11
    (∀ p : Nat × BitVec 32 × Bool, p ∈ [(4, word 1 0x14 1 6 0 0, false), (4, word 1 0x1A 1 6 0 1, true), (8, word 1 0x1F 8 6 0 0, false),
        (1, word 1 0x20 8 6 0 1, true), (4, word 1 0x14 1 18 0 15, false), (64, word 3 0x00 1 6 0 0, false), (64, word 3 0x03 1 18 31 15, true),
        (192, word 3 0x08 4 6 0 0, false)] →
      k.localAt p.2.1.toNat (min p.1 64) p.2.2 % min p.1 64 = 0 ∧ k.localAt p.2.1.toNat (min p.1 64) p.2.2 + p.1 ≤ 0x40000)
      ∧ k.localAt (word 1 0x14 1 18 0 15).toNat 4 false + 4 = 0x40000 := by decide +kernel

/-- Global accesses of Pool that are answered (GlobalMemoryOperations). -/
theorem witness_global_accesses : let k := coreS.dev.core 11
    let d0 := coreS.dev.issuing 11 (word 1 0x24 1 6 0 0) false
    let d1 := coreS.dev.issuing 11 (word 1 0x28 8 6 0 0) true
    let a := k.globalAt (word 1 0x24 1 6 0 0).toNat 4
    let rd := d0.busRead (.core 11) a 64
    let wr := d1.busWrite (.core 11) a (leBytes 64 5)
    let am := d1.busRead (.core 11) a 4
    let aw := am.1.busWrite (.core 11) a (leBytes 4 32)
    a = 0x200000100 ∧ a % 64 = 0 ∧ a < 2 ^ 40 ∧ k.permits a true true = true ∧ atomicPlace a = true
      ∧ rd.2 = .ok (zeros 64) ∧ rd.1.core 11 = d0.core 11 ∧ wr.2 = .ok ∧ wr.1.core 11 = d1.core 11
      ∧ am.2 = .ok (zeros 4) ∧ aw.2 = .ok ∧ aw.1.core 11 = d1.core 11
      ∧ (∀ j : Nat, j < 16 → k.lane (word 3 0x05 1 6 0 0).toNat j = true) := by decide +kernel

/-- JR goes to a multiple of 4; RPTR takes 4096 at most, and more than that is an exception (BranchesAndRepeats). -/
theorem witness_branches : let k := coreS.dev.core 11
    (k.s (opA (word 0 0x32 0 12 0 0).toNat)).toNat % 4 = 0 ∧ (k.s (opA (word 0 0x34 0 20 0 0).toNat)).toNat = 4096
      ∧ (k.s (opA (word 0 0x34 0 21 0 0).toNat)).toNat = 4097 ∧ k.bank = false := by decide +kernel

/-- MTC and MFC of every control register that their table names (ControlRegisters). -/
theorem witness_control_registers : (∀ o : Nat, o ∈ [0x4, 0x8, 0xC, 0x10, 0x14, 0x18, 0x2C, 0x34, 0x38, 0x50, 0x54, 0x60, 0x7C] →
      let w := word 0 0x39 0 8 (o / 64) (o / 4 % 16)
      Ready1 coreS 11 w .mtc ∧ 4 * opCR w.toNat = o)
    ∧ (∀ o : Nat, o ∈ [0, 0x4, 0x8, 0x1C, 0x20, 0x24, 0x28, 0x30, 0x40, 0x44, 0x48, 0x4C, 0x60, 0x7C, 0x80, 0x84, 0x90, 0x94, 0x98] →
      let w := word 0 0x38 1 0 (o / 64) (o / 4 % 16)
      Ready1 coreS 11 w .mfc ∧ 4 * opCR w.toNat = o)
    ∧ ((coreS.dev.core 11).cr 0x8).getLsbD 0 = false := by
  have h : ([0x4, 0x8, 0xC, 0x10, 0x14, 0x18, 0x2C, 0x34, 0x38, 0x50, 0x54, 0x60, 0x7C].all (fun o =>
      let w := word 0 0x39 0 8 (o / 64) (o / 4 % 16)
      ready coreS 11 w .mtc && decide (4 * opCR w.toNat = o))) = true
    ∧ ([0, 0x4, 0x8, 0x1C, 0x20, 0x24, 0x28, 0x30, 0x40, 0x44, 0x48, 0x4C, 0x60, 0x7C, 0x80, 0x84, 0x90, 0x94, 0x98].all (fun o =>
      let w := word 0 0x38 1 0 (o / 64) (o / 4 % 16)
      ready coreS 11 w .mfc && decide (4 * opCR w.toNat = o))) = true := by decide +kernel
  refine ⟨fun o ho => ?_, fun o ho => ?_, by decide +kernel⟩
  · have := (Bool.and_eq_true _ _).mp (List.all_eq_true.mp h.1 o ho)
    exact ⟨ready1_of_ready this.1, of_decide_eq_true this.2⟩
  · have := (Bool.and_eq_true _ _).mp (List.all_eq_true.mp h.2 o ho)
    exact ⟨ready1_of_ready this.1, of_decide_eq_true this.2⟩

/-- A core that holds a node with 15 and with 16 buffered tokens, and one that holds none (TokensAreBuffered,
WithoutANodeNothingIsBuffered). -/
def holding (n : Nat) : State :=
  coreOf { core0 with held := some { inst := 3, gen := 9, node := 1, nrec := {}, buf := List.replicate n (.emit 0 0) } }
theorem witness_tokens : ((holding 15).dev.core 11).held.map (fun h => h.buf.length) = some 15
    ∧ ((holding 16).dev.core 11).held.map (fun h => h.buf.length) = some 16 ∧ (coreS.dev.core 11).held = none
    ∧ (∀ n : Nat, n ∈ [15, 16] → Ready1 (holding n) 11 (word 0 0x36 0 6 0 3) .emit ∧ Ready1 (holding n) 11 (word 0 0x37 0 6 8 0) .post) := by
  have h : ([15, 16].all (fun n => ready (holding n) 11 (word 0 0x36 0 6 0 3) .emit
      && ready (holding n) 11 (word 0 0x37 0 6 8 0) .post)) = true := by decide +kernel
  refine ⟨by decide +kernel, by decide +kernel, by decide +kernel, fun n hn => ?_⟩
  have := (Bool.and_eq_true _ _).mp (List.all_eq_true.mp h n hn)
  exact ⟨ready1_of_ready this.1, ready1_of_ready this.2⟩

/-- A gather of elements that are all in range (GathersAndScatters): v2 is 0, so every element is at s6. -/
theorem witness_gather : let k := coreS.dev.core 11
    let n := (word 3 0x06 1 6 2 1).toNat
    ∀ e : Nat, (decide (e < 8) && k.takesPart n e) = true → k.elemAt n 8 e % 8 = 0 ∧ 0 ≤ k.elemAt n 8 e
      ∧ k.elemAt n 8 e + 8 ≤ 0x40000 ∧ coreS.dev.mem.quietAt (lmBase 11 + (k.elemAt n 8 e).toNat) 8 := by
  have h : ∀ e : Nat, e < 8 → (coreS.dev.core 11).elemAt (word 3 0x06 1 6 2 1).toNat 8 e % 8 = 0
      ∧ 0 ≤ (coreS.dev.core 11).elemAt (word 3 0x06 1 6 2 1).toNat 8 e
      ∧ (coreS.dev.core 11).elemAt (word 3 0x06 1 6 2 1).toNat 8 e + 8 ≤ 0x40000 := by decide +kernel
  intro k n e he
  have he := of_decide_eq_true ((Bool.and_eq_true _ _).mp he).1
  exact ⟨(h e he).1, (h e he).2.1, (h e he).2.2, quiet_core _ _⟩

/-- LV at its first group, its last group and past it: VLEN is 20 (LongVectors). -/
theorem witness_long_vector : ∀ v : Nat, v ∈ [0, 3, 4, 16, 19, 20] →
    let s := coreOf { core0 with vri := BitVec.ofNat 12 v }
    let w := word 3 0x18 16 6 14 4
    let k := s.dev.core 11
    ready s 11 w .lv = true ∧ ready s 11 (word 3 0x18 1 6 14 6) .lv = true ∧ k.vri.toNat = v ∧ (k.cr 0x98).toNat = 20
      ∧ opSub w.toNat < 6 ∧ lvOverlap k w.toNat = false
      ∧ ∀ r : Nat, r ∈ [6, 16, 14] → (k.s r).toNat % 4 = 0 ∧ (k.s r).toNat + 4 * 20 ≤ 0x40000 := by decide +kernel

/-! ### Attached units, exceptions and interrupts -/

/-- Operands of CRC and sort starts at the limits of R154 and R161, with the unit free and busy (LevelZeroStarts). -/
def jobs (mine : Nat) : Attached :=
  { crc := some { core := mine, poly := 1, ones := false, src := 0x100, nbits := 72, dst := 0x3FFFC }
    sort := some { core := mine, largest := true, src := 0x100, count := 2, k := 1, dst := 0x3FFF8 } }
def withJobs (mine : Nat) : State := coreS.withDev (coreS.dev.setAttached 1 (jobs mine))
theorem witness_starts : let k := coreS.dev.core 11
    let a := (k.s 6).toNat
    let b := (k.s 10).toNat
    1 ≤ (k.s 8).toNat ∧ (k.s 8).toNat ≤ 65536 ∧ a + ((k.s 8).toNat + 7) / 8 ≤ 0x40000 ∧ (k.s 9).toNat + 4 ≤ 0x40000
      ∧ (k.s 9).toNat % 4 = 0 ∧ b = b % 8192 + 65536 * (b / 65536 % 128) ∧ 1 ≤ b % 8192 ∧ b % 8192 ≤ 4096
      ∧ 1 ≤ b / 65536 % 128 ∧ b / 65536 % 128 ≤ 64 ∧ a % 8 = 0 ∧ (k.s 11).toNat % 8 = 0 ∧ a + 8 * (b % 8192) ≤ (k.s 11).toNat
      ∧ (k.s 11).toNat + 8 * (b / 65536 % 128) ≤ 0x40000 ∧ (coreS.dev.attached 1).crc = none ∧ (coreS.dev.attached 1).sort = none
      ∧ ((withJobs 11).dev.attached (11 / 8)).crc.isSome = true ∧ ((withJobs 11).dev.attached (11 / 8)).sort.isSome = true
      ∧ ready (withJobs 11) 11 (word 3 0x30 1 6 8 0) .crcZero = true ∧ ready (withJobs 11) 11 (word 3 0x33 1 6 10 0) .topkLargest = true := by
  decide +kernel

/-- KILL by the owner of both jobs and by another core, of every code (KillSquashesOwnWork). -/
theorem witness_kill : (∀ code : Nat, code ∈ [0x30, 0x31, 0x32, 0x33] → ∀ m : Nat, m ∈ [11, 12] →
      ready (withJobs m) 11 (word 3 code 0 0 0 15) .kill = true ∧ opCode (word 3 code 0 0 0 15).toNat = code)
    ∧ ((withJobs 11).dev.attached 1).crc.map (fun j => j.core) = some 11
    ∧ ((withJobs 12).dev.attached 1).sort.map (fun j => j.core) = some 12 := by decide +kernel

/-- A Level-1 result that is owed, and two Level-0 jobs that end (AttachedResultsArrive). -/
theorem witness_attached : let o : Outst := { regs := [.v 1], wrs := [.v 1 (BitVec.allOnes 512) 5], cx := true, unit := 2 }
    let s := coreOf { core0 with outst := [o] }
    (s.dev.clocked = true ∧ (s.dev.core 11).bundle = [] ∧ (s.dev.core 11).inflight = [] ∧ (s.dev.core 11).outst = [o])
      ∧ ((withJobs 11).dev.clocked = true ∧ (withJobs 11).dev.attached 1 = jobs 11
        ∧ bit ((withJobs 11).dev.regN (memBase + 0x54)) 1 = false ∧ ((withJobs 11).dev.core 11).bundle = []) := by decide +kernel
theorem witness_attached_memory : (withJobs 11).dev.mem.quietAt (lmBase 11 + 0x100) 16
    ∧ (withJobs 11).dev.mem.quietAt (lmBase 11 + 0x3FFF8) 8 := ⟨quiet_of_clean _ rfl rfl rfl _ _, quiet_of_clean _ rfl rfl rfl _ _⟩

/-- TRAP in bank 0 and RETI in bank 1 (TrapSwitchesBanks). -/
theorem witness_trap : (coreS.dev.core 11).bank = false ∧ ready (coreOf (core0.setCrN 4 2)) 11 0x3A800000 .reti = true
    ∧ ((coreOf (core0.setCrN 4 2)).dev.core 11).bank = true
    ∧ ((coreOf (core0.setCrN 4 2)).dev.core 11).runs 0x3A800000 = true := by decide +kernel

/-- A core with its timer line pending and enabled, in a TAKE or not; an armed comparison before and at its time
(InterruptsAreAccepted). -/
def waiting (take : Bool) : State :=
  coreOf { (((core0.setCrN 4 1).setCrN 0x38 9).setCrN 0x34 8) with take := if take then some ⟨.s false 3, 0⟩ else none }
theorem witness_interrupt : ∀ t : Bool, let s := waiting t
    let k := s.dev.core 11
    s.dev.clocked = true ∧ k.released = true ∧ k.mayAccept = true ∧ k.bundle = [] ∧ k.inflight = [] ∧ k.rptNext = none ∧ k.lv = false
      ∧ s.dev.power (pwrCluster 1) = .active ∧ s.dev.power (pwrCore 11) = .active ∧ s.dev.ipend 11 &&& (k.cr 0x38).toNat ≠ 0
      ∧ k.pc.toNat % 4 = 0 ∧ k.take.isSome = t := by decide +kernel
theorem witness_timer : let k := { (core0.setCrN 0x50 0).setCrN 0x54 0 with tcmpArmed := true }
    ((coreOf k).dev.core 11).tcmpArmed = true ∧ (k.cr 0x50).toNat + 2 ^ 32 * (k.cr 0x54).toNat ≤ (coreOf k).dev.now
      ∧ (coreS.dev.core 11).tcmpArmed = false
      ∧ coreS.dev.now < (core0.cr 0x50).toNat + 2 ^ 32 * (core0.cr 0x54).toNat := by decide +kernel

/-- A core with an exposed result in flight, one with an owed result and one with an error response (ResultsLand). -/
def owing : State := coreOf { core0 with
  outst := [{ regs := [.s false 1], wrs := [.s false 1 5] }], errs := [⟨6, 0x200000100, 0, 0x40, false, true⟩] }
theorem witness_results : let s := coreOf { core0 with inflight := [{ due := 0, wr := .s false 1 5 }] }
    (s.dev.clocked = true ∧ ∀ f : InFlight, f ∈ (s.dev.core 11).inflight → f.lv = false)
      ∧ (let k := owing.dev.core 11
        owing.dev.clocked = true ∧ k.bundle = [] ∧ k.inflight = [] ∧ (k.outst.filter (fun o => !o.cx && o.err.isNone)).length = 1
          ∧ k.errs.length = 1 ∧ k.bank = false ∧ k.impPend = none ∧ k.impMulti = false ∧ k.rptNext = none ∧ k.stopped = false
          ∧ k.take = none ∧ k.lv = false ∧ k.pc.toNat % 4 = 0 ∧ (∀ e : ImpErr, e ∈ k.errs → e.info < 4096 ∧ e.cause < 256 ∧ e.eopc < 2 ^ 32)) := by
  decide +kernel

/-- TAKE without a node, and with a node of a LIVE instance (TakeCompletesAndWaits): status 32 and status 0. -/
def heldLive (k : Core) : State :=
  let s := coreOf { k with held := some { inst := 3, gen := 9, node := 1, nrec := {}, buf := [.post 5 6] } }
  s.withDev { s.dev with smd := { s.dev.smd with slots := [(3, { phase := .live, gen := 9 })] } }
theorem witness_take : (coreS.dev.crcBusy 11 = false ∧ coreS.dev.sortBusy 11 = false ∧ (coreS.dev.member 11).pending = none
      ∧ (coreS.dev.core 11).held = none)
    ∧ (let s := heldLive core0
      ready s 11 (word 0 0x35 1 8 0 0) .take = true ∧ ready s 11 (word 0 0x35 1 5 0 0) .take = true ∧ s.dev.crcBusy 11 = false
        ∧ s.dev.sortBusy 11 = false ∧ (s.dev.member 11).pending = none
        ∧ (s.dev.core 11).held.map (fun h => (h.excess, h.gen, h.nrec.isEnd, h.nrec.auto)) = some (false, 9, false, 0)
        ∧ (s.dev.slot 3).phase = .live ∧ (s.dev.slot 3).gen = 9
        ∧ ((s.dev.core 11).s 8).toNat % 256 = 32 ∧ ((s.dev.core 11).s 5).toNat % 256 = 0) := by decide +kernel

/-! ### Smilda -/

/-- A device with a changed part. -/
def withDev (f : Dev → Dev) : State := lit.withDev (f lit.dev)

/-- A LIVE slot of four nodes, and a device with two of them, a ready node, an entry, timers, jobs and tokens. -/
def slotL : Slot := { phase := .live, gen := 9, template := 1, lastNode := 4, deadline := 1000, notify := 3 }
def nodeR (nops : Nat) : NodeRec :=
  { kind := 0, nops := nops, prio := 3, target := 3, edges := [{ dest := 2, slot := 1, valid := true }, { dest := 3 }] }
def tagWord (i g n k : Nat) : Nat := i + 65536 * g + 2 ^ 32 * n + 2 ^ 42 * k
def smdS (base : Nat) (toks : List InTok) (nops : Nat) : State := withDev (fun d => { d with
  time := { d.time with base := base * 2 ^ 32 }
  smd := { d.smd with
    slots := [(3, slotL), (5, { slotL with deadline := 2 ^ 64 - 1 })]
    cache := [⟨1, 2, nodeR nops⟩]
    store := [{ inst := 3, gen := 9, node := 2, mask := 1, vals := [(0, 5)] }]
    ready := [⟨3, 9, 1, .pool 3, 2, 7, 7, [1], {}⟩]
    timers := [⟨3, 9, 1, 500, nodeR 1⟩, ⟨5, 9, 2, 2000, nodeR 1⟩]
    jobs := [⟨3, 9, 1, 0, 2, 1, 4, none, true, nodeR 1⟩, ⟨3, 9, 1, 8, 2, 1, 4, none, true, nodeR 1⟩]
    cpls := [⟨0, 2, 1, 77, 0⟩, ⟨8, 2, 1, 78, 1⟩]
    tokens := toks } })

/-- Cores in no pool, in a pool, waiting there or not, and in a retired cluster (SmildaRegisterCommands). -/
def poolS (retired : Nat) : State := withDev (fun d =>
  let d := (d.setRegN (memBase + 0x54) retired).setCore 6 { released := true, take := some ⟨.s false 3, 2⟩ }
  { d with smd := { d.smd with members := [(5, { pool := some 3 }), (6, { pool := some 3 })] } })
theorem witness_pools : (poolS 0).dev.clocked = true ∧ bit ((poolS 0).dev.regN (memBase + 0x54)) (191 / 8) = false
    ∧ bit ((poolS 1).dev.regN (memBase + 0x54)) (7 / 8) = true ∧ ((poolS 0).dev.member 191).pool = none
    ∧ ((poolS 0).dev.member 5).pool = some 3 ∧ ((poolS 0).dev.core 5).take.isSome = false
    ∧ ((poolS 0).dev.member 6).pool = some 3 ∧ ((poolS 0).dev.core 6).take.isSome = true := by decide +kernel

/-- A sound and an unsound configuration, slots that use a template, and a unit whose interrupt is enabled
(SmildaRegisterCommands). -/
def configured : State := withDev (fun d => ((((d.setReg64 (smdBase + 0x20) poolBase).setReg64 (smdBase + 0x28) poolBase).setRegN
  (smdBase + 0x30) 4).setRegN (smdBase + 0x40) 9).setQueue 9 { enabled := true })
theorem witness_smilda_control : bit (configured.dev.regN (smdBase + 4)) 0 = false ∧ configured.dev.smdConfigOk = true
    ∧ bit (lit.dev.regN (smdBase + 4)) 0 = false ∧ lit.dev.smdConfigOk = false
    ∧ (∃ (i : Nat) (x : Slot), (i, x) ∈ (smdS 0 [] 1).dev.smd.slots ∧ x.phase ≠ .free ∧ x.template = 1)
    ∧ (∀ p : Nat × Slot, p ∈ (smdS 0 [] 1).dev.smd.slots → p.2.phase = .free ∨ p.2.template ≠ 7)
    ∧ (∀ n : Nat, n < 148 → (intSources[n]?).isSome = true) := by
  refine ⟨by decide +kernel, by decide +kernel, by decide +kernel, by decide +kernel, ⟨3, slotL, ?_⟩, by decide +kernel, by decide +kernel⟩
  decide +kernel

/-- Instances: LIVE, of another generation, past the deadline and without one (InstancesEnd, TimersAndCompletionsSend). -/
theorem witness_instances : let s := smdS 1000 [] 1
    s.dev.clocked = true ∧ (s.dev.slot 3).phase = .live ∧ (s.dev.slot 3).gen = 9 ∧ (s.dev.slot 4).phase ≠ .live
      ∧ (s.dev.slot 3).deadline ≤ s.dev.now ∧ (s.dev.slot 3).deadline ≠ 2 ^ 64 - 1
      ∧ (s.dev.smd.timers.find? (fun t => decide (t.inst = 3 ∧ t.node = 1))).map (fun t => t.fire) = some 500
      ∧ (smdS 500 [] 1).dev.now = 500 ∧ (smdS 499 [] 1).dev.now = 499
      ∧ (s.dev.smd.cpls.find? (fun x => x.cls = 8 && x.unit = 2)).map (fun w => (w.stage, w.status)) = some (1, 1)
      ∧ (s.dev.smd.jobs.find? (fun j => decide (j.cls = 8 ∧ j.unit = 2 ∧ j.stage = 1))).map (fun j => (j.inst, j.gen, j.nrec.isEnd))
          = some (3, 9, false) := by decide +kernel

/-- Tokens for a dead incarnation, a node past the last, an operand past the last, a single operand, a filled operand and the
operand that completes the node (TokensMatch). -/
theorem witness_tokens_match : let t := fun (i g n k : Nat) => (⟨.core 4, tagWord i g n k, 99⟩ : InTok)
    let s := smdS 0 [t 3 9 2 1] 2
    s.dev.clocked = true ∧ TokSrc.ok (.core 4) = true ∧ s.dev.smd.tokens = [t 3 9 2 1]
      ∧ tagParts (t 3 9 2 1).tag = (3, 9, 2, 1) ∧ tagParts (t 2047 255 1023 7).tag = (2047, 255, 1023, 7)
      ∧ (s.dev.slot 3).phase = .live ∧ (s.dev.slot 3).lastNode = 4 ∧ s.dev.cachedNode 1 2 = some (nodeR 2) ∧ (nodeR 2).kind < 3
      ∧ (s.dev.smd.store.find? (fun e => e.isKey 3 9 2)).map (fun e => (e.mask.testBit 0, e.mask.testBit 1, e.mask ||| 2)) = some (true, false, 2 ^ 2 - 1) := by
  decide +kernel

/-- A ready node for a core that waits, for an engine and for a mover (DispatchCommits). -/
def dispS (t : Target) : State := withDev (fun d => { d.setCore 6 { released := true, take := some ⟨.s false 3, 2⟩ } with smd := { d.smd with
  slots := [(3, slotL)], members := [(6, { pool := some 3 })], ready := [⟨3, 9, 1, t, 2, 7, 7, [1], {}⟩] } })
theorem witness_dispatch : let r := fun t => (dispS t).dev.nextReady.bind (fun x => (dispS t).dev.receiver x.target)
    (dispS (.pool 3)).dev.clocked = true ∧ r (.pool 3) = some (.core 6) ∧ (r (.cls 0)).isSome = true ∧ (r (.mover 2)).isSome = true
      ∧ (dispS (.pool 4)).dev.nextReady = none ∧ bit ((dispS (.pool 3)).dev.regN (memBase + 0x54)) (6 / 8) = false := by decide +kernel

/-- A descriptor of INSTANCE_CREATE: for a sound template, an invalid one, and with no free slot (InstancesBegin). -/
def createS (full : Bool) (valid deadline : Nat) : State := withDev (fun d =>
  let d := ((d.setRegN (smdBase + 4) 1).setRegN (smdBase + 0x40) 9).setReg64 (smdBase + 0x20) (poolBase + 0x8000)
  let d := d.setQueue 9 { enabled := true, post := true, ring := poolBase + 0x1000, log2n := 4, ckind := 3, pi := 4, ci := 3 }
  let mem := (d.mem.putBytes (poolBase + 0x1060) (leBytes 2 5 ++ zeros 2 ++ leBytes 4 12 ++ leBytes 8 600 ++ leBytes 8 deadline ++ zeros 8)).putBytes
    (poolBase + 0x8050) (leBytes 8 (poolBase + 0x9000 + 2 ^ 40 * 2 + 2 ^ 50 * valid) ++ zeros 8)
  { d with mem := mem, smd := { d.smd with slots := if full then (List.range' 0 2048).map (fun i => (i, slotL)) else [] } })
theorem witness_create : let d := (createS false 1 900).dev
    let taken := d.takeEntry (d.regN (smdBase + 0x40))
    let free := fun (d : Dev) => (List.range 2048).find? (fun i => decide ((d.slot i).phase = .free))
    let entry := fun (v : Nat) => (createS false v 900).dev.busRead .smilda (d.reg64 (smdBase + 0x20) + 16 * 5) 16
    d.clocked = true ∧ bit (d.regN (smdBase + 4)) 0 = true ∧ (taken.2.map (fun p => p.2.length)) = some 32 ∧ free taken.1 = some 0
      ∧ (entry 1).2 = .ok (leBytes 8 (poolBase + 0x9000 + 2 ^ 40 * 2 + 2 ^ 50) ++ zeros 8)
      ∧ (entry 0).2 = .ok (leBytes 8 (poolBase + 0x9000 + 2 ^ 40 * 2) ++ zeros 8)
      ∧ taken.1.now < 900 ∧ ((createS false 1 0).dev.takeEntry 9).1.now = 0 := by decide +kernel
theorem witness_create_full : (List.range 2048).find? (fun i => decide (((createS true 1 900).dev.slot i).phase = .free)) = none := by
  rw [List.find?_eq_none]
  intro i hi
  have : (createS true 1 900).dev.slot i = slotL := by
    have := get_listed (fun _ => ({} : Slot)) slotL 2048 0 i (List.mem_range.mp hi)
    rwa [Nat.zero_add] at this
  rw [this]
  decide

/-! ### Queues and movers -/

/-- A queue with room for one more entry, and a full one; with the link up or not (QueueCommands, PostsFillSlots,
DoorbellsAndHandover). -/
def queueS (pi ckind : Nat) (post stall link : Bool) (held : List HeldPost) : State := withDev (fun d =>
  let d := ((d.setRegN (qmgBase + 4) 1).setRegN (qmgBase + 0x28) 5).setReg64 (qmgBase + 0x20) (poolBase + 0x8000)
  let d := d.setQueue 9 { enabled := true, post := post, stall := stall, hostok := true, ring := poolBase + 0x1000, log2n := 4,
                          ckind := ckind, pi := BitVec.ofNat 32 pi, ci := 3 }
  { d with q := { d.q with held := held }, sup := { d.sup with linkUp := link } })
theorem witness_queue_commands : let d := (queueS 18 3 true false false []).dev
    d.clocked = true ∧ bit (d.regN (qmgBase + 4)) 0 = true ∧ d.nq = 32 ∧ (d.queue 9).enabled = true ∧ (d.queue 31).enabled = false
      ∧ (d.queue 32).enabled = false
      ∧ (d.memRead .queueMgr (d.reg64 (qmgBase + 0x20) + 32 * 31) 32).2 = .ok (zeros 32)
      ∧ d.reg64 (qmgBase + 0x20) % (32 * d.nq) = 0 ∧ (d.locate .queueMgr (poolBase + 0x8000)).1 = .pool
      ∧ (d.locate .queueMgr (poolBase + 0x8000 + 32 * 32 - 1)).1 = .pool := by decide +kernel
theorem witness_posts : let ok := fun (s : State) => s.dev.clocked = true ∧ (s.dev.queue 9).enabled = true ∧ (s.dev.queue 9).post = true
      ∧ (s.dev.queue 9).ckind = 1
    let h : HeldPost := ⟨.core 3, 9, leBytes 32 77, none, 0⟩
    Agent.ok (.core 3) = true ∧ ok (queueS 18 1 true false true []) ∧ (queueS 18 1 true false true []).dev.hostLinked = true
      ∧ ((queueS 18 1 true false false []).dev.queue 9).occ = 15 ∧ ((queueS 19 1 true true false [h]).dev.queue 9).occ = 16
      ∧ ((queueS 18 1 true false false []).dev.memWrite .queueMgr (poolBase + 0x1000 + 32 * (18 % 16)) (leBytes 32 5)).2 = .ok
      ∧ (queueS 18 1 true true false [h]).dev.q.held = [h] ∧ h.desc.length = 32 := by decide +kernel
theorem witness_doorbells : let d := (queueS 18 1 false false false []).dev
    (d.queue 9).enabled = true ∧ (d.queue 9).post = false ∧ (19 - (d.queue 9).pi).toNat ≤ 2 ^ 4 - (d.queue 9).occ
      ∧ ¬ (20 - (d.queue 9).pi).toNat ≤ 2 ^ 4 - (d.queue 9).occ ∧ (18 - (d.queue 9).ci).toNat ≤ (d.queue 9).occ
      ∧ (d.queue 9).occ < (19 - (d.queue 9).ci).toNat ∧ (∀ t : Taker, t ∈ takers → d.takesFrom 9 t = false) := by decide +kernel

/-- Launch queue 0 takes queue 9, which holds an entry (DoorbellsAndHandover). -/
def launchS : State := (queueS 18 3 true false false []).withDev (
  let d := (queueS 18 3 true false false []).dev
  ((d.setRegN (fhnBase + 4) 1).setRegN (fhnBase + 0x100) (9 + 2 ^ 31)).setQueue 9 { d.queue 9 with armed := true })
theorem witness_handover : (takers.find? (fun t => launchS.dev.takesFrom 9 t)).isSome = true
    ∧ (launchS.dev.takeEntry 9).2.isSome = true := by decide +kernel

/-- A mover channel in every state, with a job of 16 bytes that has been issued or not (ChannelCommands, MoverRuns). -/
def moverDesc : List Byte :=
  leBytes 4 1 ++ leBytes 4 (2 ^ 31 + 9) ++ zeros 16 ++ leBytes 8 (poolBase + 0x3000) ++ leBytes 1 1 ++ zeros 7 ++ zeros 24
    ++ (leBytes 8 (poolBase + 0x1000) ++ leBytes 4 16 ++ leBytes 4 0)
def chanS (c : Chan) : State := withDev (fun d =>
  ((d.setRegN (bmvBase 2 + 4) 1).setRegBytes (bmvBase 2 + 0x8000 + 0x300) moverDesc).setChan 2 3 c)
theorem witness_channels : (∀ st : ChState, st ∈ [.idle, .ready, .running, .pausing, .paused] →
      let s := chanS { st := st, dlen := 1 }
      (s.dev.wakeFor (bmvBase 2)).chan 2 3 = { st := st, dlen := 1 } ∧ s.dev.clocked = true)
    ∧ (parseMv ((chanS { st := .running }).dev.chanBytes 2 3)).total = 16 := by decide +kernel
theorem witness_mover : let s := chanS { st := .running, dlen := 1 }
    let d := s.dev
    let md := parseMv (d.chanBytes 2 3)
    let got := d.readRuns 2 (segRuns md.segs 0 (md.burstLen 0))
    d.moverCur 2 = some 3 ∧ md.op = 1 ∧ md.burstLen 0 = 16 ∧ got.2.1 = zeros 16 ∧ got.2.3 = none
      ∧ ((got.1.bumpBy (bmvBase 2 + 0x408) 16).busWrite (.mover 2) (ringAddr md.dst md.dlog 0) (zeros 16)).2 = .ok ∧ md.store = false
      ∧ bit ((chanS { st := .ready }).dev.regN (bmvBase 2 + 4)) 0 = true ∧ (chanS { st := .ready }).dev.power (pwrEng 8 2) = .active
      ∧ (∀ k : Nat, k < 16 → ((chanS { st := .ready }).dev.chan 2 k).holds = false)
      ∧ ((chanS { st := .ready }).dev.chan 2 3).st = .ready ∧ (chanS { st := .ready, pos := 0 }).dev.chanOk 2 3 = false := by decide +kernel

/-! ### Registers and memory -/

/-- A RW, a W1C and a RO word of an engine's window, and an address of the window with no register (RegisterWrites). -/
theorem witness_registers : lit.dev.powered = true ∧ Agent.ok (.core 3) = true
    ∧ (regPlace (benBase 1 + 0x24)).map (fun p => (p.row.acc, p.off, p.win.base)) = some (.rw, 0x24, benBase 0)
    ∧ (regPlace (benBase 1 + 0x10)).map (fun p => (p.row.acc, p.off, p.win.base)) = some (.w1c, 0x10, benBase 0)
    ∧ (regPlace (benBase 1)).map (fun p => (p.row.acc, p.off, p.win.base)) = some (.ro, 0, benBase 0)
    ∧ inWindow (benBase 1 + 0xC) = true ∧ regPlace (benBase 1 + 0xC) = none ∧ touchesPost (benBase 1 + 0xC) 4 = false
    ∧ lit.dev.pageRefuses (.core 3) (benBase 1 + 0xC) = false ∧ lit.dev.hostLinked = false := by decide +kernel

/-- The last 256 bytes of Pool, the hole behind it, and DDR5 after a write of a whole octet (MemoryCommands). -/
def ddrS (n : Nat) (late : Nat) : State := withDev (fun d => { d.setRegN (memBase + 0x20) 6 with
  time := { d.time with raw := late }
  mem := { d.mem with comb := [⟨ddrBase / 512, (List.range' 0 n).map (fun i => (i, some 7)), 0, 3⟩] } })
theorem witness_memory : let a := poolBase + 0x8000000 - 256
    lit.dev.powered = true ∧ (∀ x : Nat, x < 256 → bit (lit.dev.regN (memBase + 0x50)) ((a + x - poolBase) / 0x800000) = false)
      ∧ inWindow (poolBase + 0x8000000) = false ∧ (∀ x : Nat, x < 256 → inWindow (poolBase + 0x8000000 + x) = false)
      ∧ lit.dev.wakeFor (poolBase + 0x8000000) = lit.dev ∧ poolBase + 0x8000000 + 256 ≤ ddrBase := by decide +kernel
theorem witness_pool_end : lit.dev.mem.quietAt (poolBase + 0x8000000 - 256) 256 := quiet_lit _ _
theorem witness_ddr : let d := (ddrS 512 (10 ^ 9)).dev
    d.mem.filled = true ∧ 64 ≤ d.visible ∧ d.pageRetired ddrBase = false ∧ inWindow ddrBase = false ∧ d.wakeFor ddrBase = d
      ∧ (∀ e : CombEntry, e ∈ (ddrS 3 0).dev.mem.comb → (ddrS 3 0).dev.octetDue e = false) := by decide +kernel
theorem witness_octet_due : ∀ e : CombEntry, e ∈ (ddrS 512 (10 ^ 9)).dev.mem.comb → (ddrS 512 (10 ^ 9)).dev.octetDue e = true := by
  intro e he
  rw [List.mem_singleton.mp he, Dev.octetDue, Bool.or_eq_true]
  exact .inr (by decide +kernel)
theorem witness_full_octet : ∀ e : CombEntry, e ∈ (ddrS 512 (10 ^ 9)).dev.mem.comb → ∀ i : Nat, i < 512 → (e.byte i).isSome = true := by
  intro e he i hi
  rw [List.mem_singleton.mp he]
  have := get_listed (fun _ => (none : Option Byte)) (some 7) 512 0 i hi
  rw [Nat.zero_add] at this
  exact congrArg Option.isSome this

/-- The fill before and after it, the walk on and off, a log entry that waits, and retirements (IntegrityCommands). -/
def integS : State := withDev (fun d => { (d.setRegN (memBase + 4) 1).setRegN (memBase + 0x20) 6 with
  mem := { d.mem with srcBuf := [(3, ⟨1, poolBase, 3, 2, 1, 4, 5, 6, 7⟩)] } })
theorem witness_integrity : let f := (withDev (fun d => { d.setRegN (memBase + 0x20) 6 with mem := { d.mem with filled := false, fillBusy := true } })).dev
    let d := integS.dev
    f.mem.fillBusy = true ∧ f.mem.filled = false ∧ f.nchOk = true ∧ d.mem.fillBusy = false ∧ d.goatRuns = true ∧ (withDev (fun d => d.setRegN (memBase + 4) 0)).dev.goatRuns = false
      ∧ d.goatVisits (sramLine 0) = true ∧ d.visible ≠ 0 ∧ d.mem.srcBuf ≠ [] ∧ lit.dev.mem.srcBuf = []
      ∧ (d.reg (memBase + 0x40) - d.reg (memBase + 0x44)).toNat < 1024 ∧ Agent.ok .supervisor = true ∧ bit (d.regN (memBase + 4)) 1 = false
      ∧ (0 - d.reg (memBase + 0x44)).toNat ≤ (d.reg (memBase + 0x40) - d.reg (memBase + 0x44)).toNat
      ∧ ¬ (1 - d.reg (memBase + 0x44)).toNat ≤ (d.reg (memBase + 0x40) - d.reg (memBase + 0x44)).toNat := by decide +kernel

/-! ### Engines -/

/-- Bytes with little-endian fields (offset, size, value) put over zeros. -/
def blank (n : Nat) (fs : List (Nat × Nat × Nat)) : List Byte :=
  fs.foldl (fun b f => b.take f.1 ++ leBytes f.2.1 f.2.2 ++ b.drop (f.1 + f.2.1)) (zeros n)
/-- A device whose engine runs a job with the given descriptor. -/
def runS (cls u : Nat) (j : EJob) : State := withDev (fun d => d.setEng cls u { run := some j })

/-- Two groups of a 3 by 2 Gram matrix; λ is 1 (R168, R178). -/
def gramDesc (op : Nat) : List Byte := blank 224 [(0, 4, op), (4, 4, 2 ^ 31 + 7), (32, 4, 0x10203), (36, 4, 0x10002), (40, 4, 0x4000),
  (56, 8, poolBase + 0x95000), (64, 8, poolBase + 0x1000 + 2 ^ 43), (72, 4, 64), (76, 4, 8), (112, 8, poolBase + 0x2000), (120, 4, 192)]
/-- A running job of either kind: one that runs, and one whose operand lies where nothing is (BeamSteps). -/
theorem witness_beam : let s := runS 0 3 { bytes := gramDesc 1 }
    let d := s.dev
    let b := parseBeam (gramDesc 1)
    let work := d.beamWork 3 b 0 0
    (d.eng 0 3).run = some { bytes := gramDesc 1 } ∧ b.op = 1 ∧ b.opt = false
      ∧ (match work.2 with
        | .ok o => decide ((work.1.writeMany (.beam 3) (o.writes ++ [(b.gstat, leBytes 1 (groupByte true 0 o))])).2 = none)
        | .error _ => false) = true
      ∧ (d.readMany (.beam 3) ((List.range b.r).map (fun i => (b.opa.addr + i * b.opa.rs, 4 * b.c)))).2.2 = none := by decide +kernel
def beamFails : List Byte := blank 224 [(0, 4, 1), (32, 4, 0x10203), (36, 4, 0x10002), (64, 8, 0x3000000000)]
theorem witness_beam_error : (match (lit.dev.beamWork 3 (parseBeam beamFails) 0 0).2 with
    | .ok _ => 0 | .error (st, _) => st) = 0x11 ∧ (parseBeam beamFails).op = 1 ∧ (.gram 3 false, 1) ∈ beamOpRows 3 false := by decide +kernel

/-- RESAMPLE by 1 with one tap, 2 samples (R258; TransformSteps). -/
def resDesc (src : Nat) : List Byte := blank 128 [(0, 4, 5), (4, 4, 2 ^ 31 + 7), (36, 1, 1), (48, 8, src), (64, 8, poolBase + 0x2000),
  (80, 8, poolBase + 0x3000), (96, 4, 0x11), (100, 4, 2)]
theorem witness_transform : let s := runS 4 3 { bytes := resDesc (poolBase + 0x1000) }
    let x := parseXfu (resDesc (poolBase + 0x1000))
    let work := s.dev.xfuWork 3 x 0
    x.op = 5 ∧ x.steps = 1 ∧ (match work.2 with | .ok o => decide ((work.1.writeMany (.xfu 3) o.writes).2 = none) | .error _ => false) = true
      ∧ (match (s.dev.xfuWork 3 (parseXfu (resDesc 0x3000000000)) 0).2 with | .ok _ => 0 | .error e => e.1) = 0x11 := by decide +kernel
/-- The same unit running, for ABORT (TransformAbort). -/
theorem witness_transform_abort : let s := runS 4 3 { bytes := resDesc (poolBase + 0x1000) }
    s.dev.clocked = true ∧ ((s.dev.wakeFor (engBase 4 3)).eng 4 3).run = some { bytes := resDesc (poolBase + 0x1000) } := by decide +kernel

/-- Turbo coding of one block of 40 bits at E = 132 (R207), late and not, and LDPC of base graph 2 with Z = 2 (CodingSteps). -/
def turboDesc (late : Nat) : List Byte := blank 128 [(0, 4, 1 + 2 ^ 13 * late), (4, 4, 2 ^ 31 + 7), (32, 4, 0x280028), (36, 4, 0x10101), (44, 4, 132),
  (48, 4, 132), (52, 4, 132), (64, 8, poolBase + 0x1000), (72, 8, poolBase + 0x2000), (96, 4, 64)]
def ldpcDesc : List Byte := blank 128 [(0, 4, 4), (4, 4, 2 ^ 31 + 7), (32, 4, 0x140014), (36, 4, 0x10101), (40, 2, 2), (44, 4, 100),
  (48, 4, 40), (52, 4, 40), (64, 8, poolBase + 0x1000), (72, 8, poolBase + 0x2000), (96, 4, 64)]
theorem witness_encoder : (turboDesc 0).length = 128 ∧ ∀ b : List Byte, b ∈ [turboDesc 0, ldpcDesc] →
    let f := parseFec b
    let read := lit.dev.busRead (.encoder 1) f.src (ceilDiv (f.kin 0) 8)
    f.kin 0 ≠ 0 ∧ f.codeOk = true ∧ f.code ≤ 1
      ∧ (match read.2 with
        | .ok bs =>
          let coded := read.1.encodeBits f 0 ((bitsOf bs).take (f.kin 0))
          decide ((coded.1.writeBits (.encoder 1) f.out f.obit coded.2).2 = none)
        | _ => false) = true := by decide +kernel
theorem witness_decoder : let f := parseFec (turboDesc 0)
    let read := lit.dev.busRead (.decoder 1) f.src (f.e 0)
    f.code = 1 ∧ f.late = false ∧ f.comb = false ∧ f.store = 0 ∧ f.result = 0 ∧ (read.2 = .ok (zeros 132))
      ∧ (parseFec (turboDesc 1)).late = true ∧ (parseFec (turboDesc 1)).deadline ≤ lit.dev.now ∧ (parseFec (turboDesc 1)).result = 0 := by
  decide +kernel

/-- The codec encodes 3 information bits with Reed-Muller and decodes them (R224, R227). -/
def codecDesc (fn : Nat) : List Byte := blank 64 [(0, 4, fn), (4, 4, 2 ^ 31 + 7), (32, 2, 3), (36, 4, 20), (48, 8, poolBase + 0x1000),
  (56, 8, poolBase + 0x2000)]
theorem witness_codec : let k := parseCodec (codecDesc 2)
    let read := lit.dev.busRead (.encoder 4) k.src 1
    k.fn = 2 ∧ read.2 = .ok (zeros 1) ∧ (match k.coded ((bitsOf (zeros 1)).take k.a) with
      | some y => decide ((read.1.writeMany (.encoder 4) [(k.out, bitsBytes y)]).2 = none)
      | none => false) = true := by decide +kernel

/-- What maximum-likelihood decoding answers is one of the payloads, or nothing. -/
theorem payload_listed (d : Dev) (k : KDesc) (l : List Int) (h : k.fn = 3) :
    (d.codecDecode k l).2.1 ∈ [] :: (List.range (2 ^ k.a)).map (natBits k.a) := by
  simp only [Dev.codecDecode, h, Dev.bestPayload, decide_true, Bool.true_or, if_true, List.mem_cons]
  generalize hb : List.map (fun p : List Bool × Int => p.1) _ = best
  have sub : ∀ y : List Bool, y ∈ best → y ∈ (List.range (2 ^ k.a)).map (natBits k.a) := by
    rw [← hb]
    intro y hy
    obtain ⟨p, hp, rfl⟩ := List.mem_map.mp hy
    obtain ⟨v, hv, rfl⟩ := List.mem_map.mp (List.mem_filter.mp hp).1
    exact List.mem_map.mpr ⟨v, hv, rfl⟩
  rcases Nat.lt_or_ge (d.freeBelow best.length) best.length with hn | hn
  · rw [List.getD_eq_getElem?_getD, List.getElem?_eq_getElem hn, Option.getD_some]
    exact .inr (sub _ (List.getElem_mem hn))
  · exact .inl (by rw [List.getD_eq_getElem?_getD, List.getElem?_eq_none hn, Option.getD_none])
theorem witness_codec_decode : let k := parseCodec (codecDesc 3)
    let read := lit.dev.busRead (.encoder 4) k.src k.e
    k.fn = 3 ∧ read.2 = .ok (zeros 20)
      ∧ (read.1.writeMany (.encoder 4) [(k.out, bitsBytes (read.1.codecDecode k ((zeros 20).map llrOf)).2.1)]).2 = none := by
  refine ⟨by decide +kernel, by decide +kernel, ?_⟩
  have h : ∀ y : List Bool, y ∈ [] :: (List.range (2 ^ (parseCodec (codecDesc 3)).a)).map (natBits (parseCodec (codecDesc 3)).a) →
      ((lit.dev.busRead (.encoder 4) (parseCodec (codecDesc 3)).src (parseCodec (codecDesc 3)).e).1.writeMany (.encoder 4)
        [((parseCodec (codecDesc 3)).out, bitsBytes y)]).2 = none := by decide +kernel
  exact h _ (payload_listed _ _ _ (by decide +kernel))

/-- Engines with a job that runs or has ended, for Smilda or for a queue, and a held one or none (EngineCompletions). -/
theorem witness_completions : ∀ p : Nat × Nat, p ∈ [(0, 11), (1, 11), (2, 3), (3, 0), (4, 7)] →
    let at1 := fun (j : EJob) (h : Option EJob) => (withDev (fun d => d.setEng p.1 p.2 { run := some j, held := h })).dev.eng p.1 p.2
    (at1 {} none).run = some {} ∧ (at1 { status := some (0x21, none), smilda := some 3 } (some {})).held = some {}
      ∧ ((lit.dev.wakeFor (engBase p.1 p.2)).eng p.1 p.2).run = none
      ∧ ((parseXfu []).op ≠ 3 ∧ ({} : EJob).aborting = false) := by decide +kernel
theorem witness_completion_rows : (Instr.beamCompletion 11, 0, 11) ∈ completionRows ∧ (.codingCompletion true 3, 2, 3) ∈ completionRows
    ∧ (.codecCompletion, 3, 0) ∈ completionRows ∧ (.fecAbort 16, 3, 0) ∈ abortRows ∧ (.benAbort 0, 0, 0) ∈ abortRows
    ∧ (.xfuAbort 7, 4, 7) ∈ abortRows ∧ (.fecEnable 12 true, 2, 0) ∈ enableRows true := by decide +kernel

/-- FRAME of two symbols at 0 (R275 to R280), with its start far away, near and past
(WakeAndBurst). -/
def wgDesc : List Byte := blank 128 [(0, 4, 1), (4, 4, 2 ^ 31 + 7), (32, 8, 10 ^ 7), (40, 2, 128), (42, 2, 9), (44, 2, 10), (46, 2, 129), (50, 2, 0x3FFF),
  (56, 8, poolBase + 0x2000), (64, 4, 1024), (68, 4, 512), (72, 2, 2), (74, 1, 1), (78, 2, 12), (80, 2, 100), (82, 1, 1), (83, 1, 1),
  (88, 8, poolBase + 0x1000), (96, 2, 2)]
def genS (now : Nat) (j : EJob) : State := withDev (fun d =>
  { (d.setRegN (wbuGBase 2 + 0x24) 100).setRegN (wbuGBase 2 + 0x28) 10 with
    engs := (d.setEng 5 2 { ctx := [(3, some j)] }).engs
    time := { d.time with base := now * 2 ^ 32 } })
def genRuns (now : Nat) : Nat × Bool × Bool :=
  let d := (genS now { bytes := wgDesc }).dev
  let w := parseWg wgDesc
  let t := w.tm.start (w.tm.nth 0)
  (w.op, decide (d.now + 1000 * (d.regN (wbuGBase 2 + 0x24) % 65536) < t), decide (t < d.now + 1000 * (d.regN (wbuGBase 2 + 0x28) % 65536)))
theorem witness_generator : let s := genS 9950000 { bytes := wgDesc }
    let w := parseWg wgDesc
    let load := s.dev.genLoad 2 w { bytes := wgDesc }
    genRuns 9950000 = (1, false, false) ∧ genRuns 5 = (1, true, false) ∧ genRuns 9995000 = (1, false, true)
      ∧ s.dev.genJob 2 3 = some { bytes := wgDesc }
      ∧ (match load.2 with
        | .ok j1 => decide ((load.1.writeMany (.wake 2) [(w.out + 4 * w.k0,
            (antennaBytes (w.spectrum (w.samples j1.bins j1.step)) (Tab.get (fun _ => 0) j1.gstat 0)).1)]).2 = none)
        | .error _ => false) = true := by decide +kernel
theorem witness_generator_ended : let d := (genS 0 { bytes := wgDesc, status := some (0, none) }).dev
    (d.genJob 2 3).map (fun j => j.status) = some (some (0, none)) ∧ Tab.wf (fun _ => none) (d.eng 5 2).ctx = true
      ∧ (d.wakeFor (wbuGBase 2)).profile3 = false
      ∧ ((inMode 5).withDev { lit.dev with sup := { lit.dev.sup with slot := some 3 } }).dev.profile3 = true := by decide +kernel

/-- A listen job of one antenna, whose first symbol has ended or not (R284, R285). -/
def listenDesc : List Byte := blank 64 [(0, 4, 1), (4, 4, 7), (8, 4, 4000), (12, 2, 5), (16, 8, poolBase + 0x1000), (24, 4, 1024), (28, 4, 512),
  (32, 8, 1000), (40, 2, 128), (50, 2, 0x3FFF), (56, 2, 2), (60, 2, 12)]
def listenS (now : Nat) : State := withDev (fun d =>
  { d.setListen 1 4 (some { bytes := listenDesc }) with time := { d.time with base := now * 2 ^ 32 } })
theorem witness_listen : let d := (listenS 10000000).dev
    let l := parseListen listenDesc
    d.listen 1 4 = some { bytes := listenDesc } ∧ l.tm.nextActive 0 = some 0 ∧ l.tm.start 1 + d.readLag 1 ≤ d.now
      ∧ (d.readMany (.wake 5) [(l.inp + 4 * l.k0, 4 * l.m)]).2.2 = none ∧ (listenS 5).dev.now < l.tm.start 1 + (listenS 5).dev.readLag 1
      ∧ leNat ((listenDesc.drop 12).take 2) = 5 := by decide +kernel

/-! ### The fronthaul (FronthaulFrames) -/

/-- Port 2 up in mode 1; rule 0 takes frames of EtherType 0x0800 without VLAN tag (R380); more changes by `f`. -/
def fhRule : List Byte := blank 32 [(0, 2, 0x8004), (2, 2, 0x2000), (4, 2, 0x0800), (12, 1, 8)]
def fhnS (mode : Nat) (f : Dev → Dev) : State := withDev (fun d => f (
  (((d.setRegN (fhnBase + 4) 1).setRegN (fhnBase + 0x1200) mode).setPort 2 { align := true, lock := true }).setRegBytes (fhnBase + 0x22000) fhRule))
/-- A frame of 60 bytes and its FCS. -/
def frameOf (etype : List Byte) (payload : List Byte) : List Byte := zeros 12 ++ etype ++ payload ++ zeros (46 - payload.length)
def withFcs (b : List Byte) : List Byte := b ++ fcsOf b
theorem witness_frames : let d := (fhnS 1 id).dev
    let f := fun (e p : List Byte) => parseEth (frameOf e p)
    ((d.port 2).up = true ∧ d.fhnOn = true ∧ d.portMode 2 = 1 ∧ (lit.dev.port 2).up = false)
      ∧ (∀ e : List Byte, e ∈ [[0x88, 0x08], [0x08, 0x00]] → (withFcs (frameOf e [0, 1])).length = 64
        ∧ (withFcs (frameOf e [0, 1])).drop 60 = fcsOf ((withFcs (frameOf e [0, 1])).take 60) ∧ (zeros 64).drop 60 ≠ fcsOf (zeros 60))
      ∧ (f [0x88, 0x08] [0, 1]).isPause = true ∧ (f [0x88, 0xF7] []).forSup = true ∧ (f [0x88, 0xF7] []).ecpriBad = none
      ∧ (f [0xAE, 0xFE] [0]).ecpriBad.isSome = true ∧ (f [0x08, 0x00] []).forSup = false ∧ (f [0x08, 0x00] []).ecpriBad = none
      ∧ (f [0x08, 0x00] []).isPause = false ∧ ruleMatches (d.activeRule 0) 2 (f [0x08, 0x00] []) = true
      ∧ (∀ r : Nat, r < 256 → ruleMatches (d.activeRule r) 2 (f [0x08, 0x01] []) = false)
      ∧ (d.port 2).secOpen (frameOf [0x88, 0xE5] []) = none ∧ bit ((fhnS 9 id).dev.regN (fhnBase + 0x1200)) 3 = true := by decide +kernel
/-- A post held for port 2, with its ingress buffer almost full or not. -/
def fhHeld (k n : Nat) : State := fhnS 1 (fun d => { d.setPort 2 { align := true, lock := true, ingress := List.replicate k (0, List.replicate n 0) } with
  q := { d.q with held := [⟨.fronthaul 2, 9, zeros 32, none, 0⟩] } })
theorem witness_ingress : (fhHeld 1 1).dev.q.held.any (fun h => decide (h.agent = .fronthaul 2)) = true
    ∧ (((fhHeld 1 9216).dev.port 2).ingress.map (fun x => x.2.length)).sum + 64 ≤ 262144
    ∧ 262144 < (((fhHeld 29 9212).dev.port 2).ingress.map (fun x => x.2.length)).sum + 64 := by decide +kernel
/-- An arrival of port 2 for a queue with room, and for a full queue that drops (R381). -/
def arrS (pi : Nat) : State := fhnS 1 (fun (d : Dev) =>
  let d : Dev := d.setQueue 9 { enabled := true, post := true, ring := poolBase + 0x1000, log2n := 4, ckind := 1, pi := BitVec.ofNat 32 pi, ci := 3 }
  { d with fhn := { d.fhn with arrivals := [⟨2, 9, zeros 32⟩] } })
theorem witness_arrivals : let p := fun s : State => (s.dev.post (.fronthaul 2) true 9 (zeros 32) none).2
    (arrS 4).dev.fhn.arrivals = [] ++ (⟨2, 9, zeros 32⟩ : Arrival) :: [] ∧ (arrS 4).dev.q.held = []
      ∧ p (arrS 4) ≠ .dropped ∧ p (arrS 19) = .dropped ∧ ((arrS 19).dev.queue 9).isFull = true
      ∧ ((arrS 19).dev.queue 9).enabled = true := by decide +kernel
/-- Links that change and do not; rules that may be committed and one with a reserved bit. -/
theorem witness_links : ((fhnS 1 id).dev.port 2).up = true ∧ ({ ((fhnS 1 id).dev.port 2) with fault := true } : FhPort).up = false
    ∧ (lit.dev.port 2).up ≠ ({ lit.dev.port 2 with align := true, lock := true } : FhPort).up := by decide +kernel
theorem witness_rules : (∀ r : Nat, r < 256 → ruleOk (lit.dev.stagedRule r) = true)
    ∧ ruleOk ((lit.dev.setRegN (fhnBase + 0x20000 + 32 * 255) 0x8100).stagedRule 255) = false := by decide +kernel

/-- Launch queue 3 of port 2 with a head of 64 bytes, and a head with a reserved KIND (R388, R389). -/
def launchDesc (kind time : Nat) : List Byte := blank 32 [(0, 8, time), (8, 1, kind), (14, 2, 64), (24, 8, poolBase + 0x1000)]
def headS (mode : Nat) (up : Bool) (b : List Byte) (f : Dev → Dev) : State := fhnS mode (fun d => f (
  ((d.setRegN (fhnBase + 0x10C) (2 ^ 31 + 9 + 2 * 2 ^ 18)).setHead 3 (some b)).setPort 2 { align := true, lock := true, off := !up }))
def launched (s : State) : Option (List Byte) :=
  let f := (s.dev.setHead 3 none).launchFrame 2 (launchDesc 0 0)
  (f.1.fhProtect 2 false f.2).2
def served (s : State) (b : List Byte) : Bool := decide (s.dev.lq 3 = some (9, 2) ∧ s.dev.fhHead 3 = some b
  ∧ s.dev.headDue b = true ∧ (lTime b = 0 ∨ launchOk b = false ∨ s.dev.time.locked = true ∨ (s.dev.port 2).up = false))
theorem witness_launches : let sv := fun (s : State) (b : List Byte) => served s b = true
    sv (headS 1 true (launchDesc 0 0) id) (launchDesc 0 0) ∧ launchOk (launchDesc 0 0) = true
      ∧ sv (headS 1 true (launchDesc 3 0) id) (launchDesc 3 0) ∧ launchOk (launchDesc 3 0) = false
      ∧ sv (headS 1 false (launchDesc 0 5) id) (launchDesc 0 5) ∧ (headS 1 true (launchDesc 0 0) id).dev.fhnOn = true
      ∧ (launched (headS 1 true (launchDesc 0 0) id)).map (fun b => b.length) = some 64 ∧ launched (headS 9 true (launchDesc 0 0) id) = none := by
  decide +kernel
/-- A late head, in a locked device; a gated one (R391). -/
def lateS (locked : Bool) : State := headS 1 true (launchDesc 0 5) (fun d => { d with
  time := { d.time with base := 10 ^ 9 * 2 ^ 32, state := if locked then .locked else .freeRun } })
theorem witness_late : (lateS true).dev.time.locked = true ∧ (lateS false).dev.time.locked = false
    ∧ (lateS true).dev.headDue (launchDesc 0 5) = true ∧ lTime (launchDesc 0 5) ≠ 0
    ∧ lTime (launchDesc 0 5) + (lateS true).dev.regN (fhnBase + 0x20) < (lateS true).dev.now := by decide +kernel
/-- Receive channels: none, one with the SCI, and eight others (R393). -/
def scS (n : Nat) : State := fhnS 1 (fun d => d.setPort 2 { rxScs := (List.range n).map (fun i => ⟨BitVec.ofNat 64 i, 0, []⟩) })
theorem witness_associations : (∃ c : RxSc, c ∈ ((scS 2).dev.port 2).rxScs ∧ c.sci = 1)
    ∧ (∀ c : RxSc, c ∈ ((scS 7).dev.port 2).rxScs → c.sci ≠ 77) ∧ ((scS 7).dev.port 2).rxScs.length < 8
    ∧ (∀ c : RxSc, c ∈ ((scS 8).dev.port 2).rxScs → c.sci ≠ 77) ∧ 8 ≤ ((scS 8).dev.port 2).rxScs.length :=
  ⟨⟨⟨1, 0, []⟩, by decide +kernel⟩, by decide +kernel⟩

/-! ### Time (DeviceTime) -/

/-- A loop in a state that measures by register (`src` 0) or pulse (1), with its limits set and the offset that MEAS gives;
all comparisons of MeasurementsSteerRule are written out for it. -/
def timeS (st : TState) (src : Nat) (ofs : Nat) (f : Dev → Dev) : State := withDev (fun d => f { ((((d.setRegN (tmuBase + 4) (1 + 2 * src)).setRegN
  (tmuBase + 0x80) 1000).setRegN (tmuBase + 0x84) 100000).setRegN (tmuBase + 0x90) 1000) with
  time := { d.time with state := st, refclk := true, stepGen := 2, measOfs := ofs, stepPending := false } })
def jumps (s : State) : Bool := let t := s.dev.time
  decide (t.state = .freeRun ∨ (t.state = .coarse ∧ (toSigned 64 t.measOfs).natAbs ≤ s.dev.tmuReg 0x84 * 65536))
def beyond (s : State) : Bool := decide (s.dev.tmuReg 0x80 * 65536 < (toSigned 64 s.dev.time.measOfs).natAbs)
theorem witness_measure : let s := timeS .freeRun 0 5 id
    s.dev.pwr.mode ≠ 0 ∧ b2n (bit (s.dev.tmuReg 4) 1) = 0 ∧ bit (s.dev.tmuReg 4) 0 = true ∧ fld (2 ^ 29 + 1000000) 31 28 = s.dev.time.stepGen
      ∧ s.dev.time.refclk = true ∧ jumps s = true ∧ jumps (timeS .coarse 0 (2 ^ 32) id) = true ∧ jumps (timeS .coarse 0 (2 ^ 33) id) = false
      ∧ beyond (timeS .coarse 0 (2 ^ 33) id) = true ∧ b2n (bit ((timeS .freeRun 1 5 id).dev.tmuReg 4) 1) = 1
      ∧ (∀ st : TState, st ∈ [.acquiring, .locked, .holdover, .expired] → jumps (timeS st 0 65536000 id) = false
        ∧ beyond (timeS st 0 65536000 id) = false ∧ beyond (timeS st 0 65536001 id) = true)
      ∧ bit ((timeS .freeRun 0 5 (fun d => d.setRegN (tmuBase + 4) 0)).dev.tmuReg 4) 0 = false ∧ s.dev.pins.b1 = true
      ∧ (timeS .locked 0 5 (fun d => { d with pins := { d.pins with b1 := false } })).dev.pins.b1 = false := by decide +kernel
/-- A pending step; measurement, hold-over and pulse limits that have run out and that have not. -/
def waitS (st : TState) (raw : Nat) : State := timeS st 0 5 (fun d => { (d.setRegN (tmuBase + 0xA0) 500).setRegN (tmuBase + 0xA4) 10 with
  time := { d.time with state := st, raw := raw, holdRaw := raw, stepPending := decide (raw ≠ 0), stepHeld := -3, ppsMissed := false, ppsHigh := true } })
def dues (s : State) : List Bool := let t := s.dev.time
  [decide (t.state = .locked ∧ s.dev.tmuReg 0xA0 ≤ (t.raw - t.lastMeas) * 1000 / s.dev.fref),
    decide (t.state = .holdover ∧ s.dev.tmuReg 0xA4 * s.dev.fref ≤ t.holdRaw),
    decide (t.ppsMissed = false ∧ 3 * s.dev.fref ≤ 2 * (t.raw - t.lastPpsIn)), t.stepPending,
    decide (t.ppsHigh = true ∧ 1000 * (s.dev.tmuReg 0xAC % 2 ^ 20) ≤ (t.raw - t.ppsRaw) * 10 ^ 9 / s.dev.fref)]
theorem witness_limits : dues (waitS .locked 0) = [false, false, false, false, false]
    ∧ dues (waitS .locked (10 ^ 10)) = [true, false, true, true, true]
    ∧ dues (waitS .holdover (10 ^ 10)) = [false, true, true, true, true] := by decide +kernel

/-- REFCLK lost; PPS_OUT and TDD in their conditions and outside; tables staged, armed and due (R413, R420 to R427). -/
def outS (ref : Bool) (armed : Option TddTab) (commit : Int) : State := timeS .locked 0 5 (fun d => { (d.setRegN (tmuBase + 4) 5).setRegN
  (tmuBase + 0xAC) (2 ^ 24 + 5) with time := { d.time with refclk := ref, tddArmed := armed, tddCommit := commit, tddAct := { period := 10 ^ 7 } } })
theorem witness_outputs : let d := (outS true none 0).dev
    d.time.refclk = true ∧ (outS false none 0).dev.time.refclk = false ∧ d.time.lossR < 2 ^ 48 ∧ d.time.rtc + 1 < 2 ^ 48
      ∧ (bit (d.tmuReg 0xAC) 24 = true ∧ d.time.state = .locked ∧ d.now % 10 ^ 9 < d.tickNs)
      ∧ (bit (d.tmuReg 4) 2 = true ∧ d.pwr.mode = 5 ∧ 0 < d.time.tddAct.period) ∧ bit (lit.dev.tmuReg 4) 2 = false
      ∧ d.time.tddArmed = none ∧ d.tddStaged.ok = false
      ∧ (outS true (some {}) (-10 ^ 11)).dev.time.tddCommit ≤ (outS true (some {}) (-10 ^ 11)).dev.frame
      ∧ (outS true (some {}) 5).dev.frame < (outS true (some {}) 5).dev.time.tddCommit
      ∧ ((outS true none 0).dev.setRegN (tmuBase + 0x200) 10000000).tddStaged.ok = true := by decide +kernel

/-! ### Cipher engines (KeysAndSubmissions, CiphersRun) -/

/-- A cipher descriptor: op, flags, slot 7, page 5, LEN 16, operands in Pool (R436). -/
def cphDesc (op flags len : Nat) : List Byte := blank 128 [(0, 4, op + flags), (32, 2, 7), (34, 1, 5), (36, 4, len), (64, 8, poolBase + 0x1000),
  (72, 8, if op ∈ [3, 5, 7, 9] then 0 else poolBase + 0x2000), (88, 8, if op ∈ [2, 3, 5, 7, 9] then poolBase + 0x3000 else 0)]
/-- Page 5 owns slot 7; its FIFO holds `n` submissions of the descriptor at Pool offset 0x4000. -/
def pageS (b : List Byte) (n start limit : Nat) (f : Dev → Dev) : State := withDev (fun d =>
  let d := ((d.setParam 0x70 0x12 7 [5]).setParam 0x70 0x11 20 (leBytes 8 1)).setParam 0x70 1 0 [1]
  let d := ((d.setRegN (cphBase 5 + 0x30) 7).setReg64 (cphBase 5 + 0x40) start).setReg64 (cphBase 5 + 0x48) limit
  let d := (d.setKeySlot 7 { st := 1, ktype := 0, key := zeros 16, limit := 10 }).setCpage 5 { fifo := List.replicate n (poolBase + 0x4000) }
  f { d with mem := d.mem.putBytes (poolBase + 0x4000) b })
theorem witness_keys : let d := (pageS [] 15 1 2 id).dev
    d.cphAdmits .host 5 = false ∧ d.cphAdmits (.core 3) 5 = false ∧ d.cphAdmits .supervisor 5 = true ∧ (d.cpage 5).fifo.length = 15
      ∧ ((pageS [] 16 1 2 id).dev.cpage 5).fifo.length = 16 ∧ d.slotOwner (d.regN (cphBase 5 + 0x30)) = some 5
      ∧ d.slotOwner (d.regN (cphBase 6 + 0x30)) ≠ some 6 ∧ d.reg64 (cphBase 5 + 0x40) < d.reg64 (cphBase 5 + 0x48)
      ∧ (pageS [] 0 2 2 id).dev.reg64 (cphBase 5 + 0x48) ≤ (pageS [] 0 2 2 id).dev.reg64 (cphBase 5 + 0x40)
      ∧ 2 ^ 32 < (pageS [] 0 1 (2 ^ 32 + 1) id).dev.reg64 (cphBase 5 + 0x48) := by decide +kernel

/-- Engine 3 is ready and its queue and the pages hold nothing. -/
theorem witness_cipher_take : let d := (pageS [] 0 1 2 id).dev
    (d.cphOn = true ∧ (d.ceng 3).stopped = false ∧ (d.ceng 3).run = none ∧ d.power (pwrEng 6 3) = .active) ∧ lit.dev.cphOn = false
      ∧ Dev.cphEntryGo ((d.queue (d.par 0x70 2 3)).occ + 1) d 3 (d.par 0x70 2 3) = (d, none)
      ∧ (∀ u : Nat, u < 64 → d.cphOldest u 3 = none) := by decide +kernel

/-- With windows over Pool (the layout of a window parameter is a free value, assumption log 17) page 5's job is the oldest and
passes its checks; without a key it fails. -/
theorem witness_page_job (h : ∀ x : BitVec 64, Config.cphWindow x = (BitVec.ofNat 40 poolBase, 15, true, true)) :
    let d := (pageS (cphDesc 1 0 16) 1 1 2 id).dev
    d.inWindows 5 (poolBase + 0x4000) 128 false = true ∧ d.cphOldest 5 3 = some 0 ∧ d.pageChecks 5 (cphDesc 1 0 16) = none
      ∧ d.pageChecks 5 (cphDesc 0 0 16) = some 0x10 := by
  have hw : ∀ (d : Dev) (p a n : Nat) (w : Bool), d.inWindows p a n w = (decide (n = 0) || (List.range 4).any (fun _ =>
      decide (poolBase ≤ a) && decide (a + n ≤ poolBase + 2 ^ 27) && d.windowPlace a && d.windowPlace (a + n - 1))) := by
    intro d p a n w
    simp only [Dev.inWindows, h]
    cases w <;> rfl
  simp only [Dev.cphOldest, Dev.cphPeek, Dev.pageChecks, Dev.cphExtents, hw]
  exact ⟨by decide +kernel, by decide +kernel, by decide +kernel, by decide +kernel⟩

/-- Every operation on 16 bytes at its key length, and its result written or compared (CiphersRun). -/
def cphS (e : Nat) (j : CJob) : State := withDev (fun d => d.setCeng e { run := some j })
theorem witness_ciphers : ∀ op : Nat, op ∈ [1, 2, 3, 4, 5, 6, 7, 8, 9] → ∀ e : Nat, e ∈ [3, 11] →
    let c := parseCph (cphDesc op (16 * 2 ^ 13 + 16 * b2n (decide (op ∈ [2, 3, 5, 7, 9]))) 16)
    let j : CJob := { bytes := cphDesc op (16 * 2 ^ 13) 16, key := zeros 16, slot := some 7 }
    let d := (cphS e j).dev
    let r := d.cphRead e c.inA c.len
    c.op = op ∧ (d.ceng e).run = some j ∧ (parseCph j.bytes).op = op ∧ (parseCph j.bytes).dir = 0 ∧ (c.dir = 1 ∨ op ∈ [1, 4, 6, 8])
      ∧ r.2.toOption = some (zeros 16) ∧ (op ∈ [2, 3, 5, 7, 9] → (d.cphRead e c.tagA c.tagLen).2.toOption = some (zeros 16))
      ∧ (op ∈ [1, 2, 4, 6, 8] → j.crypt c (zeros 16) ≠ [] ∧ (r.1.busWrite (.cipher e) c.outA (j.crypt c (zeros 16))).2 = .ok) := by
  decide +kernel
/-- A tag that compares equal, of no bytes (R446). -/
theorem witness_tag_passes : let c := parseCph (cphDesc 2 16 16)
    let j : CJob := { bytes := cphDesc 2 16 16, key := zeros 16 }
    let full := j.mac { c with tagLen := 16 } [] (zeros 16)
    c.tagLen = 0 ∧ c.len ≠ 0 ∧ j.step = 0 ∧ c.dir = 1 ∧ ((cphS 11 j).dev.cphRead 11 c.tagA c.tagLen).2.toOption = some [] ∧ full.take 0 = [] :=
  ⟨by decide +kernel, by decide +kernel, rfl, by decide +kernel, by decide +kernel, rfl⟩
theorem witness_cipher_completion : ((cphS 3 {}).dev.ceng 3).run.map (fun j => j.status) = some none
    ∧ ((cphS 3 { status := some (0, none) }).dev.ceng 3).run = some { status := some (0, none) } := by decide +kernel

/-! ### Power (ModesChange, UnitsSleepAndWake) -/

/-- A calm device in a mode, with changes. -/
def powS (m : Nat) (f : PowerState → PowerState) : State := withDev (fun d => { d with pwr := f { mode := m } })
def calmB (d : Dev) : Bool := decide (d.sup.ready = true ∧ d.pwr.dormStep = none ∧ d.pwr.leaving = false ∧ d.cal.trimRun = none
  ∧ d.upd.goal = 0)
theorem calm_of {d : Dev} (h : calmB d = true) : d.calm := by
  simp only [calmB, decide_eq_true_eq] at h
  exact h
theorem witness_calm : ∀ m : Nat, m < 8 → (powS m id).dev.calm ∧ (powS m id).dev.pwr.mode = m ∧ (powS m id).dev.sup.slot.isSome = true := by
  have h : ∀ m : Nat, m < 8 → calmB (powS m id).dev = true ∧ (powS m id).dev.pwr.mode = m ∧ (powS m id).dev.sup.slot.isSome = true := by
    decide +kernel
  exact fun m hm => ⟨calm_of (h m hm).1, (h m hm).2⟩
/-- Dormant refused and not, at each step; a wake source in Dormant; a run of trims in Maintenance; leaving (R456 to R470). -/
theorem witness_dormant : (∀ n : Nat, n ∈ [1, 2, 3] → (powS 3 (fun p => { p with dormStep := some n })).dev.dormRefuser = none)
    ∧ (powS 3 id).dev.dormRefuser = none ∧ ({ (powS 3 id).dev with upd := { owner := 1 } } : Dev).dormRefuser = some 1
    ∧ (powS 2 (fun p => { p with wakeSrc := some 1 })).dev.time.refclk = true ∧ (powS 2 (fun p => { p with wakeSrc := some 1 })).dev.pwr.wakeStuck = false
    ∧ (powS 4 (fun p => { p with leaving := true })).dev.upd.goal = 0 := by decide +kernel
/-- Automatic Lean: on, busy above and below its limits, quiet for its time (R461). -/
def autoS (m : Nat) (q : Option Nat) (raw : Nat) : State := withDev (fun d => { ((d.setParam 0x10 2 0 [1]).setParam 0x10 3 0 [60]).setParam 0x10 4 0 [40] with
  pwr := { mode := m, quietFrom := q }, time := { d.time with raw := raw } })
theorem witness_auto : let d := (autoS 5 (some 0) (10 ^ 13)).dev
    d.par 0x10 2 0 ≠ 0 ∧ d.inTransition = false ∧ d.upd.goal = 0 ∧ lit.dev.par 0x10 2 0 = 0
      ∧ d.par 0x10 3 0 * 100 < 100 * 61 ∧ ¬ d.par 0x10 3 0 * 100 < 100 * 60 ∧ 100 * 39 < d.par 0x10 4 0 * 100 ∧ ¬ 100 * 40 < d.par 0x10 4 0 * 100
      ∧ 10 ^ 6 * d.par 0x10 5 0 ≤ d.nsSince 0 ∧ (autoS 5 none 0).dev.pwr.quietFrom = none ∧ (autoS 4 none 0).dev.pwr.mode = 4 := by decide +kernel

/-- Units: idle and not, napping, entering Doze at each step, dozing with a wake request (R462 to R466). -/
def unitS (m : Nat) (f : Dev → Dev) : State := withDev (fun d => f { d with pwr := { mode := m } })
def entryS (u passed : Nat) : State := unitS 5 (fun d => { d with pwr := { d.pwr with entering := [{ unit := u, passed := passed, before := .active }] } })
theorem witness_nap : let d := (unitS 5 id).dev
    isDozeUnit 258 = true ∧ d.power 258 = .active ∧ d.unitIdle 258 = true ∧ d.par 0x10 0x10 0 ≤ (10 ^ 9 : BitVec 32).toNat
      ∧ isCoreUnit 40 = true ∧ ((unitS 5 (fun d => d.setPower 258 .nap)).dev.power 258 = .nap)
      ∧ (unitS 5 (fun d => (d.setPower 258 .nap).setEng 0 2 { run := some {} })).dev.unitIdle 258 = false := by decide +kernel
theorem witness_doze : let d := (unitS 3 id).dev
    d.dozeCheck 258 = none ∧ d.farEnough 258 = true ∧ d.mayDoze 258 = true ∧ d.entryOf 258 = none ∧ (unitS 6 id).dev.pwr.mode = 6
      ∧ (∀ p : Nat, p ∈ [1, 2, 3, 4] → ((entryS 258 p).dev.entryOf 258).map (fun e => e.passed) = some p)
      ∧ (entryS 258 1).dev.dozeCheck 258 = none
      ∧ ((entryS 258 1).dev.setEng 0 2 { run := some {} }).dozeCheck 258 ≠ none := by decide +kernel
theorem witness_wake : let s := unitS 5 (fun d => (d.setPower 258 .doze).setEng 0 2 { run := some {} })
    isDozeUnit 258 = true ∧ s.dev.unitIdle 258 = false ∧ s.dev.power 258 = .doze ∧ s.dev.entryOf 258 = none
      ∧ lit.dev.wakeAsked 258 = false ∧ lit.dev.arrivalNear 258 = false ∧ lit.dev.unitIdle 258 = true ∧ lit.dev.marginTargets = [] := by decide +kernel
def srcS (m on : Nat) (f : PowerState → PowerState) : State := (powS m f).withDev (((powS m f).dev.setParam 0x10 0x40 0 [BitVec.ofNat 8 on]).setParam 0x10 0x41 0 (zeros 8))
theorem witness_sources : ∀ src : Nat, src ∈ [1, 2] → bit ((srcS 2 3 id).dev.par 0x10 0x40 0) (src - 1) = true
    ∧ bit ((srcS 2 0 id).dev.par 0x10 0x40 0) (src - 1) = false
    ∧ (srcS 2 3 id).dev.par 0x10 0x41 0 ≤ (srcS 2 3 id).dev.time.rtc ∧ lit.dev.time.rtc < lit.dev.par 0x10 0x41 0
    ∧ (srcS 3 3 (fun p => { p with dormStep := some 1 })).dev.pwr.dormStep.isSome = true
    ∧ (srcS 2 3 id).dev.pwr.wakeSrc = none ∧ (srcS 2 3 (fun p => { p with wakeSrc := some 1 })).dev.pwr.wakeSrc.isSome = true := by decide +kernel

/-! ### Sensors, regulators and calibration (SensingAndCalibration) -/

/-- Temperatures: all cool, one at the trip point, in tenths of a degree (R472). -/
theorem witness_sensors : (List.replicate 64 (500 : Int)).length = 64 ∧ (List.replicate 16 750).length = 16 ∧ lit.dev.sensorOn 5 = true
    ∧ (-440 ≤ (1216 : Int) ∧ (1216 : Int) ≤ 1400) ∧ lit.dev.pwr.thermTrip = false
    ∧ (∀ n : Nat, n < 64 → lit.dev.sensorOn n = true) := by decide +kernel
theorem witness_regulators : let d := lit.dev.setParam 0x10 0x20 7 [9]
    d.par 0x10 0x20 7 ≠ 0 ∧ (∀ q : Nat, q < 7 → (0x80 : BitVec 8).getLsbD q = true → d.par 0x10 0x20 q = 0) ∧ (0x80 : BitVec 8).getLsbD 7 = true
      ∧ 25 < ((700 : Int) - 726).natAbs ∧ ¬ 25 < ((700 : Int) - 725).natAbs := by decide +kernel
/-- Targets that run and rest, due for a run or a forced step and not (R486 to R493). -/
def calS (k : Nat) (run : Bool) : State := withDev (fun d => { d.setCalTarget k { d.calTarget k with running := run, inUse := true } with time := { d.time with raw := 10 ^ 15 } })
theorem witness_calibration : (∀ k : Nat, k ∈ [0, 12, 36] → ((calS k true).dev.calTarget k).running = true ∧ ((calS k false).dev.calTarget k).running = false)
    ∧ 10 ^ 6 * (calS 12 true).dev.par 0x11 0x12 0 ≤ (calS 12 true).dev.nsSince ((calS 12 true).dev.calTarget 12).due
    ∧ lit.dev.nsSince (lit.dev.calTarget 12).due < 10 ^ 6 * lit.dev.par 0x11 0x12 0
    ∧ (calS 0 false).dev.par 0x11 0x11 0 ≠ 0 ∧ 10 ^ 9 * (calS 0 false).dev.par 0x11 0x11 0 ≤ (calS 0 false).dev.nsSince ((calS 0 false).dev.calTarget 0).began
    ∧ ((calS 0 false).dev.calTarget 0).inUse = true := by decide +kernel

/-! ### The access protocol (NapAnswers) -/

/-- Messages: a header and records (R501, R502). -/
def msgOf (op flags sess seq : Nat) (rs : List NapRec) : List Byte := napHeader op flags sess seq 0 rs.length ++ rs.flatMap NapRec.bytes
def setRec : NapRec := ⟨0x80, 0, 0x21, 3, 0, leBytes 4 61⟩
/-- A session of a kind: opened, authenticated, or with MAC. -/
def sessS (m : Nat) (xs : List Session) (blk : List (Nat × Nat)) : State := withDev (fun d => { d with
  pwr := { mode := m }, sup := { d.sup with sessions := xs, blocked := blk, creds := [(1, leBytes 32 7)] } })
def opened : Session := { id := 0x100, src := 5, asked := 1, chal := leBytes 16 9 }
def member : Session := { id := 0x100, src := 5, priv := 1, authed := true, seq := 6, lastReq := [1] }
theorem witness_nap_bare : (sessS 5 [] []).dev.napServed = true ∧ (sessS 2 [] []).dev.napServed = false
    ∧ (msgOf 4 0 0x100 7 []).length = 16 ∧ (msgOf 4 0 0x100 7 [])[1]? = some (BitVec.ofNat 8 4) ∧ (sessS 5 [] []).dev.upd.recovery = false
    ∧ (sessS 5 [] [(5, 0)]).dev.expireSessions.isBlocked 5 = true ∧ (sessS 5 [] []).dev.expireSessions.isBlocked 5 = false
    ∧ napParse (zeros 2 ++ zeros 14) = none ∧ napParse (msgOf 4 0 0x100 7 []) = some ⟨4, 0, 0x100, 7, [], false⟩ := by decide +kernel
/-- OPEN with room and with sixteen sessions open; no session and an open one. -/
theorem witness_nap_open : napParse (msgOf 1 0 0 1 []) = some ⟨1, 0, 0, 1, [], false⟩
    ∧ (sessS 5 [] []).dev.expireSessions.sup.sessions.length < 16 ∧ 16 ≤ (sessS 5 (List.replicate 16 member) []).dev.expireSessions.sup.sessions.length
    ∧ (sessS 5 [opened] []).dev.session 0x101 = none ∧ (sessS 5 [opened] []).dev.session 0x100 = some opened := by decide +kernel
/-- AUTH with the credential's MAC, whatever bytes it has, and a session of two earlier failures (R504). -/
def authMsg (mac : List Byte) : List Byte := msgOf 2 0 0x100 1 [⟨0, 0, 0, 9, 0, blobValue 0 16 mac⟩]
theorem beN_length : ∀ n v : Nat, (beN n v).length = n
  | 0, _ => rfl
  | n + 1, v => by rw [beN, List.length_append, beN_length n]; rfl
theorem credMac_length (k m : List Byte) : (credMac k m).length = 16 := by simp [credMac, ofNats, beN_length]
theorem authMsg_parse (mac : List Byte) (h : mac.length = 16) :
    napParse (authMsg mac) = some ⟨2, 0, 0x100, 1, [⟨0, 0, 0, 9, 0, blobValue 0 16 mac⟩], false⟩ := by
  match mac, h with
  | [b0, b1, b2, b3, b4, b5, b6, b7, b8, b9, b10, b11, b12, b13, b14, b15], _ =>
    simp [authMsg, msgOf, napHeader, NapRec.bytes, napRecord, leBytes, blobValue, pad8, napParse, parseRecs, leAt, leNat, opCount, up8, slice,
      recOk, zeros]
theorem witness_nap_auth : let k := Tab.get (fun _ => zeros 32) (sessS 5 [opened] []).dev.sup.creds 1
    let mac := credMac k opened.proof
    opened.authed = false ∧ k.any (fun b => decide (b ≠ 0)) = true ∧ segData (blobValue 0 16 mac) = mac ∧ mac.length = 16
      ∧ napParse (authMsg mac) = some ⟨2, 0, 0x100, 1, [⟨0, 0, 0, 9, 0, blobValue 0 16 mac⟩], false⟩
      ∧ (Tab.get (fun _ => zeros 32) (sessS 5 [opened] []).dev.sup.creds 0).any (fun b => decide (b ≠ 0)) = false :=
  ⟨by decide +kernel, by decide +kernel, rfl, credMac_length _ _, authMsg_parse _ (credMac_length _ _), by decide +kernel⟩
/-- Requests of an authenticated session: the next SEQ, the one answered last, another; a SET that succeeds and
one that fails (R503 to R506). -/
theorem witness_nap_operate : let y := (sessS 5 [member] []).sys
    let e := y.operate ⟨0x100, 1⟩ none 0x11 [setRec] 1400
    let b := y.operate ⟨0x100, 1⟩ none 0x11 [{ setRec with ty := 4 }] 1400
    (napParse (msgOf 0x11 0 0x100 7 [setRec])).map (fun m => (m.op, m.sess, m.seq, m.recs)) = some (0x11, 0x100, 7, [setRec])
      ∧ member.authed = true ∧ 7 = (member.seq + 1) % 2 ^ 32 ∧ e.2.1 = 0 ∧ e.1.dev.sup.starts = y.dev.sup.starts ∧ b.2.1 = 4 := by decide +kernel
theorem witness_nap_mac (x : Session) (m : List Byte) : macOk x (m ++ napMac x.key m) = true := by
  have h : (napMac x.key m).length = 16 := by simp [napMac, ofNats, beN_length]
  simp [macOk, h]

/-! ### The host and profiles (HostAndProfiles) -/

/-- A host link that is up, with sessions and blocks that have run out and that have not. -/
def hostS (raw : Nat) : State := withDev (fun d => { d with
  sup := { d.sup with linkUp := true, sessions := [{ id := 0x100, valid := 0 }, { id := 0x101, valid := raw }], blocked := [(3, 0), (4, raw)] }
  time := { d.time with raw := raw } })
theorem witness_host : let d := (hostS (2 ^ 40)).dev
    (sixty ≤ d.nsSince 0 ∧ d.nsSince (2 ^ 40) < sixty) ∧ d.hostLinked = true ∧ lit.dev.hostLinked = false
      ∧ (5 - d.reg (supBase + 0x24)).toNat ≤ ((d.setRegN (supBase + 0x20) 5).reg (supBase + 0x20) - d.reg (supBase + 0x24)).toNat
      ∧ ¬ (6 - d.reg (supBase + 0x24)).toNat ≤ ((d.setRegN (supBase + 0x20) 5).reg (supBase + 0x20) - d.reg (supBase + 0x24)).toNat
      ∧ d.bar4Addr 0x8000000 = none ∧ d.bar4Addr 0x7FFFFFF = some (poolBase + 0x7FFFFFF)
      ∧ (d.memRead .host (poolBase + 0x1000) 8).2 = .ok (zeros 8) ∧ (d.memWrite .host (poolBase + 0x1000) [1, 2]).2 = .ok
      ∧ d.sup.ready = true ∧ 16 ≤ 16 + 2 ^ 20 % 2 ^ 14 ∧ ¬ 8193 % 2 ^ 14 ≤ 8192 := by decide +kernel
/-- A profile image whose records cannot be taken, and one with none; loads closed and open (R514, R515). -/
def profImage (count : Nat) : List Byte := blank 48 [(0, 2, 1), (12, 4, count)] ++ zeros 5076
theorem witness_profiles : profHeaderOk (profImage 0) 0 = true ∧ profHeaderOk (profImage 0) 1 = false
    ∧ (sessS 3 [] []).dev.rwsClosed = false ∧ (sessS 5 [] []).dev.rwsClosed = true
    ∧ (sessS 3 [] []).dev.profValues (profImage 1) = none ∧ ((sessS 3 [] []).dev.profValues (profImage 0)).isSome = true := by decide +kernel

/-! ### Update (UpdatesKeepTheirOrder) -/

/-- A session's update in a state, of an owner and a target, with a trial or not. -/
def bcbT (trial : Bool) : Bcb := { supTrial := if trial then 1 else 0xFF, cfgTrial := if trial then 1 else 0xFF, boots := b2n trial }
def updS (m st owner target got : Nat) (trial locked : Bool) : State :=
  let s := withDev (fun d => { d with
    pwr := { mode := m }, upd := { state := st, owner := owner, target := target, got := got, checked := trial, trial := trial }
    sup := { d.sup with sessions := [{ id := 0x100, src := 5, priv := 1, authed := true }, { id := 0x101, src := 5, authed := true }] }
    time := { d.time with state := if locked then .locked else .freeRun } })
  { s with vault := { bcb0 := some (bcbT trial) } }
theorem witness_update : let s := updS 3 1 0x100 5 0 false true
    let d := s.dev
    d.powered = true ∧ d.upd.recovery = false ∧ d.updRefused 0x100 = 0 ∧ d.updRefused 0x101 = 9 ∧ d.updRefused 0x102 = 0x11
      ∧ d.upd.owner = 0x100 ∧ (updS 3 0 0 0 0 false true).dev.upd.owner = 0 ∧ s.vault.bcb.trial = none
      ∧ (updS 3 7 0 0 0 true true).vault.bcb.trial.isSome = true ∧ (updS 3 7 0 0 0 true true).dev.upd.checked = true
      ∧ (updS 3 7 0 0 0 true true).vault.bcb.supTrial ≠ 0xFF ∧ d.inTransition = false
      ∧ s.vault.roomOf 5 = 2 ^ 20 ∧ expectedLen 5 (s.vault.staged 5) = 5124 ∧ (updS 3 1 0x100 5 5124 false true).dev.upd.got = 5124
      ∧ s.vault.verifyTarget 5 ≠ 0 ∧ s.vault.freeOtp = some 0 ∧ (zeros 60).length = 60
      ∧ (d.memRead .supervisor (poolBase + 0x1000) 16).2 = .ok (zeros 16) := by decide +kernel
theorem witness_activate_times : let d := (updS 3 2 0x100 4 0 false true).dev
    nsOf80 (leBytes 10 (0 : BitVec 80).toNat) = 0 ∧ nsOf80 (leBytes 10 (5 * 2 ^ 48)) = 5 ∧ nsOf80 (leBytes 10 5) = 5 * 10 ^ 9
      ∧ 5 < d.now + 10 ^ 9 ∧ d.now + 10 ^ 9 ≤ 5 * 10 ^ 9 ∧ d.time.locked = true ∧ (updS 3 2 0x100 4 0 false false).dev.time.locked = false := by
  decide +kernel

/-! ### Resets and boot (ResetsAndBoot) -/

/-- The pins held and released, Boot complete, Fault Hold, a schedule that is due and one that was missed, a trial that ran out. -/
def schedS (t : Nat) (now : Nat) : State :=
  let s := updS 3 5 (2 ^ 32 - 1) t 0 false true
  { s.withDev { s.dev with time := { s.dev.time with base := now * 2 ^ 32 } } with
    vault := { bcb0 := some { bcbT false with schedTarget := t, schedTime := leBytes 10 60 } } }
theorem witness_resets : State.reset.dev.pins.porst = true ∧ lit.dev.pins.porst = false ∧ lit.dev.pins.sysrst = false
    ∧ (powS 1 id).dev.mem.filled = true ∧ (powS 1 id).dev.upd.recovery = false ∧ (powS 1 id).dev.sup.ready = true
    ∧ (powS 7 id).dev.powered = true ∧ (powS 7 id).dev.obs.copying = false ∧ (powS 7 id).dev.pwr.thermTrip = false
    ∧ keptInSysrst (benBase 0 + 0x24) = false := by decide +kernel
theorem witness_schedule : let s := schedS 4 (61 * 10 ^ 9)
    nsOf80 s.vault.bcb.schedTime ≤ s.dev.now ∧ s.dev.now ≤ s.sys.windowEnd ∧ s.dev.time.locked = true ∧ s.dev.upd.state = 5
      ∧ s.dev.inTransition = false ∧ (schedS 5 (200 * 10 ^ 9)).sys.windowEnd < (schedS 5 (200 * 10 ^ 9)).dev.now
      ∧ 600 * 10 ^ 9 ≤ (hostS (2 ^ 50)).dev.nsSince 0 ∧ lit.dev.nsSince 0 < 600 * 10 ^ 9 := by decide +kernel

/-! ### Observation and pins (ObservationActs) -/

/-- A trace sink with a batch and without one; fault records; a dump to copy. -/
def obsS (sink n : Nat) (copying : Bool) : State := withDev (fun d => { (((d.setRegN (obsBase + 4) sink).setRegN (obsBase + 0x28) 14).setRegN (memBase + 0x20) 6) with
  pwr := { mode := 7 }
  obs := { d.obs with
    fifo := List.replicate n ⟨0, 2, 3, 4⟩
    copying := copying
    fatal := [⟨0x81, 12, 0, 0⟩]
    faults := [{ time := 1, sev := 2, rep := 0, detail := 3, seq := 7, code := 0x86, cls := 3, num := 4, acked := false }] } })
theorem witness_observe : let d := (obsS 1 32 true).dev
    d.powered = true ∧ lit.dev.clocked = true ∧ d.regN (obsBase + 4) % 4 = 1 ∧ 32 ≤ d.obs.fifo.length ∧ d.obs.full = false
      ∧ (obsS 1 3 false).dev.batchDue = false ∧ (obsS 2 3 false).dev.regN (obsBase + 4) % 4 = 2 ∧ d.obs.fatal ≠ []
      ∧ (d.obs.faults[0]?).map (fun r => r.seq) = some 7 ∧ d.pwr.thermTrip = false ∧ lit.dev.obs.fatal = []
      ∧ (d.memRead .supervisor d.dumpBase (ceilDiv d.obs.dumpLen 65536 * 65536)).2 = .ok [] := by decide +kernel

/-! ### The whole machine -/

/-- The queue: a command in front (StepFront), none (CommandsComplete); flash and OTP at reset (FlashAndOtpOnlyGrow). -/
theorem witness_queue_front : ({ lit with pending := [.wakeNPulseEnd] } : State).pending = .wakeNPulseEnd :: [] ∧ lit.pending = []
    ∧ Instr.wakeNPulseEnd.wf = true ∧ mayChangeVault .wakeNPulseEnd = false := by decide +kernel
theorem witness_sound : State.reset.vault.sound ∧ Sys2Proof.Machine.step State.reset = .next (State.reset.withDev State.reset.dev.refTick) :=
  ⟨⟨rfl, rfl, by decide +kernel, fun b h => by rcases h with h | h <;> cases h⟩, rfl⟩

/-! ### Values worked out by hand from the rules or known from the standards that they name -/

/-- ALU ADD of s6 = 0x100 and s8 = 32 into s1 (R89), and MOVW of 0xFFFF: what is on its way to the register file. -/
theorem test_alu_adds : ((after (.alu 11 (word 0 0 1 6 8 0)) coreS).dev.core 11).inflight.map (fun e => e.wr) = [.s false 1 0x120] := by decide +kernel
/-- CRC24A (R155) of the bits 1 and 10, by hand, and its known check value of the digits 1 to 9. -/
theorem test_crc24a : crcOf 24 0x864CFB false [0x80] 1 = 0x864CFB ∧ crcOf 24 0x864CFB false [0x80] 2 = 0x8AD50D
    ∧ crcOf 24 0x864CFB false [0x31, 0x32, 0x33, 0x34, 0x35, 0x36, 0x37, 0x38, 0x39] 72 = 0xCDE703 := by decide +kernel
/-- The check value of CRC-32 (IEEE 802.3) of the digits 1 to 9, as the FCS stores it. -/
theorem test_fcs : fcsOf [0x31, 0x32, 0x33, 0x34, 0x35, 0x36, 0x37, 0x38, 0x39] = leBytes 4 0xCBF43926 := by decide +kernel
/-- The Pool reads back what was written, beside zeros. -/
theorem test_pool : (after (.memoryRead .smilda (BitVec.ofNat 40 (poolBase + 0x10)) 4)
    (after (.memoryWrite .smilda (BitVec.ofNat 40 (poolBase + 0x11)) [7, 9]) lit)).reply = .read (.ok [0, 7, 9, 0]) := by decide +kernel
/-- Nothing answers between the regions (R8). -/
theorem test_hole : (after (.memoryRead .smilda 0x3000000000 4) lit).reply = .read (.decode 0x3000000000) := by decide +kernel
/-- The identification code (R571) after IDCODE. -/
theorem test_idcode : (after (.idcode true) State.reset).dev.pins.jtagData = 0x71920FD3 := by decide +kernel
/-- A word spells no command, since the table gives no bits. -/
theorem test_no_words : decodeTableWord 32 0 = none ∧ State.withFetchWord lit 32 0 = lit := ⟨rfl, rfl⟩

end Sys2Proof.Tests
end

section
/-!
PROOFS. Writes of one register word: an aligned word of four bytes over the global map, the windows of the engines, and the
plain write rules of R8 and R9.
-/
namespace Sys2Proof.Machine

/-! ### An aligned word is written whole -/

@[simp] theorem leBytes_length (n v : Nat) : (leBytes n v).length = n := by
  induction n generalizing v with
  | zero => rfl
  | succ n ih => simp [leBytes, ih]

/-- Little-endian bytes hold the number's low bytes. -/
theorem leNat_leBytes (n v : Nat) : leNat (leBytes n v) = v % 256 ^ n := by
  induction n generalizing v with
  | zero => simp [leBytes, leNat, Nat.mod_one]
  | succ n ih =>
    rw [leBytes, leNat, ih, BitVec.toNat_ofNat, Nat.pow_succ' (m := 256), Nat.mod_mul]

theorem leAt_leBytes_word (v : BitVec 32) : leAt (leBytes 4 v.toNat) 0 4 = v.toNat := by
  rw [leAt, List.drop_zero, List.take_of_length_le (Nat.le_of_eq (leBytes_length 4 _)), leNat_leBytes]
  exact Nat.mod_eq_of_lt v.isLt

/-- Four bytes at a word address write that word and nothing else. -/
theorem Dev.windowWrite_word (d : Dev) (ag : Agent) (a : Nat) (v : BitVec 32) (ha : a % 4 = 0) :
    d.windowWrite ag a (leBytes 4 v.toNat) = d.wordWrite ag a v := by
  have hfirst : ceilDiv a 4 * 4 = a := by simp only [ceilDiv]; omega
  simp [Dev.windowWrite, hfirst, leAt_leBytes_word]

theorem Dev.busWrite_word (d : Dev) (ag : Agent) (a : Nat) (v : BitVec 32) (ha : a % 4 = 0) (hwin : inWindow a = true)
    (hpost : touchesPost a 4 = false) :
    (d.busWrite ag a (leBytes 4 v.toNat)).1 = (d.wakeFor a).wordWrite ag a v := by
  simp [Dev.busWrite, hwin, hpost, Dev.windowWrite_word _ _ _ _ ha]

/-! ### REGISTER_WRITE of one word, by its sender -/

theorem exec_registerWrite_word (s : State) (ag : Agent) (a : BitVec 40) (v : BitVec 32) (hag : ag.ok = true) :
    exec (.registerWrite ag a (leBytes 4 v.toNat)) s = s.storeBy ag a.toNat (leBytes 4 v.toNat) :=
  checked_on _ _ (by simp [hag, ← List.length_eq_zero_iff])

/-- An agent's aligned word in a register window, off QMG_POST: the device is woken for it, and the word is written. -/
theorem registerWrite_goes (s : State) (ag : Agent) (a : BitVec 40) (v : BitVec 32) (hon : s.dev.powered = true)
    (hag : ag.ok = true) (hne : ag ≠ .host) (ha : a.toNat % 4 = 0) (hwin : inWindow a.toNat = true)
    (hpost : touchesPost a.toNat 4 = false) :
    s.goes (.registerWrite ag a (leBytes 4 v.toNat)) ((s.dev.wakeFor a.toNat).wordWrite ag a.toNat v) := by
  rw [State.goes, exec_registerWrite_word s ag a v hag, State.storeBy, if_neg hne, fabric_on _ _ hon,
    Dev.busWrite_word _ _ _ _ ha hwin hpost]

theorem Sys.bar0Write_unlinked (y : Sys) (off : Nat) (bs : List Byte) (h : y.dev.hostLinked = false) :
    y.bar0Write off bs = y := by
  simp [Sys.bar0Write, h]

/-- The host's write over a link that is down changes nothing. -/
theorem registerWrite_host_unlinked (s : State) (a : BitVec 40) (v : BitVec 32) (hon : s.dev.powered = true)
    (hlink : s.dev.hostLinked = false) : exec (.registerWrite .host a (leBytes 4 v.toNat)) s = .next s := by
  rw [exec_registerWrite_word s .host a v rfl, State.storeBy, if_pos rfl, served_on _ _ hon,
    Sys.bar0Write_unlinked _ _ _ hlink, State.withSys_self]

/-! ### The windows of the engines -/

/-- The first windows of the beam, coding and transform engines (R200, R241, R272). -/
def engineBases : List Nat := [benBase 0, decBase 0, encBase 0, codecBase, xfuBase 0]

/-- The window of a register's place is one of the map's, and holds the address. -/
theorem regPlace_win {a : Nat} {p : RegPlace} (h : regPlace a = some p) :
    p.win ∈ regWins ∧ p.win.base ≤ a ∧ a < p.win.base + p.win.span * p.win.copies := by
  unfold regPlace at h
  split at h
  · cases h
  next w hw =>
    dsimp only at h
    split at h
    · cases h
    · cases h
      have hin := List.find?_some hw
      simp only [Bool.and_eq_true, decide_eq_true_eq] at hin
      exact ⟨List.mem_of_find?_eq_some hw, hin⟩

/-- The engines' windows lie in spans of R19, above the queue manager's and below the cipher pages. -/
theorem engineWindows_placed : ∀ w ∈ regWins, w.base ∈ engineBases →
    (∃ sp ∈ windowSpans, sp.1 ≤ w.base ∧ w.base + w.span * w.copies ≤ sp.1 + sp.2)
      ∧ qmgBase + 0x100 ≤ w.base ∧ w.base + w.span * w.copies ≤ cphBase 0 := by decide

/-- An address of an engine's register is in a window, off QMG_POST and off the cipher pages. -/
theorem engine_address {a : Nat} {p : RegPlace} (h : regPlace a = some p) (he : p.win.base ∈ engineBases) :
    inWindow a = true ∧ touchesPost a 4 = false ∧ pageAt a = none := by
  obtain ⟨hmem, hlo, hhi⟩ := regPlace_win h
  obtain ⟨⟨sp, hsp, hsplo, hsphi⟩, hqmg, hcph⟩ := engineWindows_placed p.win hmem he
  refine ⟨?_, ?_, ?_⟩
  · rw [inWindow, List.any_eq_true]
    exact ⟨sp, hsp, by simp only [Bool.and_eq_true, decide_eq_true_eq]; omega⟩
  · have habove : ¬ a < qmgBase + 0x100 := by omega
    simp [touchesPost, habove]
  · have hbelow : ¬ (cphBase 0 ≤ a ∧ a < cphBase 64) := by omega
    exact if_neg hbelow

/-! ### What a word write does -/

/-- A word that no map names ignores the write (R10). -/
theorem Dev.wordWrite_unmapped (d : Dev) (ag : Agent) (a : Nat) (v : BitVec 32) (hpage : d.pageRefuses ag a = false)
    (h : regPlace a = none) : d.wordWrite ag a v = d := by
  simp [Dev.wordWrite, hpage, h]

/-- Apart from CTRL and QUEUE, an engine's registers follow the plain rules. -/
theorem Dev.engWrite_plain (d : Dev) (cls : Nat) (p : RegPlace) (a : Nat) (v : BitVec 32) (hctrl : p.off ≠ 4)
    (hqueue : p.off ≠ 0x20) : d.engWrite cls p a v = d.plainWrite p a v := by
  simp [Dev.engWrite, hctrl, hqueue]

/-- A word of an engine's window is written by the rule of its class, the plain one for all but CTRL and QUEUE. -/
theorem Dev.wordWrite_engine (d : Dev) (ag : Agent) (v : BitVec 32) {a : Nat} {p : RegPlace} (h : regPlace a = some p)
    (he : p.win.base ∈ engineBases) (hctrl : p.off ≠ 4) (hqueue : p.off ≠ 0x20) :
    d.wordWrite ag a v = d.plainWrite p a v := by
  have hpage : d.pageRefuses ag a = false := by
    obtain ⟨-, -, hno⟩ := engine_address h he
    simp [Dev.pageRefuses, hno]
  have heng := fun cls => Dev.engWrite_plain d cls p a v hctrl hqueue
  simp only [engineBases, List.mem_cons, List.not_mem_nil, or_false] at he
  simp only [Dev.wordWrite, hpage, h, heng]
  rcases he with hb | hb | hb | hb | hb <;> rw [hb] <;> rfl

theorem Dev.plainWrite_rw (d : Dev) (p : RegPlace) (a : Nat) (v : BitVec 32) (h : p.row.acc = .rw) :
    d.plainWrite p a v = d.setReg a (v &&& p.mask) := by
  simp [Dev.plainWrite, h]

theorem Dev.plainWrite_w1c (d : Dev) (p : RegPlace) (a : Nat) (v : BitVec 32) (h : p.row.acc = .w1c) :
    d.plainWrite p a v = d.setReg a (d.reg a &&& ~~~(v &&& p.mask)) := by
  simp [Dev.plainWrite, h]

theorem Dev.plainWrite_ignored (d : Dev) (p : RegPlace) (a : Nat) (v : BitVec 32) (hrw : p.row.acc ≠ .rw)
    (hw1c : p.row.acc ≠ .w1c) : d.plainWrite p a v = d := by
  unfold Dev.plainWrite
  split
  next h => exact absurd h hrw
  next h => exact absurd h hw1c
  next => rfl

/-- An agent's write of an engine's register other than CTRL and QUEUE is the plain write on the woken device. -/
theorem registerWrite_engine_goes (s : State) (ag : Agent) (a : BitVec 40) (v : BitVec 32) (hon : s.dev.powered = true)
    (hag : ag.ok = true) (hne : ag ≠ .host) (ha : a.toNat % 4 = 0) {p : RegPlace} (hp : regPlace a.toNat = some p)
    (he : p.win.base ∈ engineBases) (hctrl : p.off ≠ 4) (hqueue : p.off ≠ 0x20) :
    s.goes (.registerWrite ag a (leBytes 4 v.toNat)) ((s.dev.wakeFor a.toNat).plainWrite p a.toNat v) := by
  obtain ⟨hwin, hpost, -⟩ := engine_address hp he
  rw [← Dev.wordWrite_engine _ ag v hp he hctrl hqueue]
  exact registerWrite_goes s ag a v hon hag hne ha hwin hpost

/-- Settles O36: an engine's word goes through the window's write to its plain rule, an unmapped word is ignored, and a host
without a link reaches nothing. -/
theorem registerWrites : Obligations.RegisterWrites := by
  intro s ag a v hon hag
  refine ⟨?_, ?_, ?_⟩
  · intro hne ha p hp he hctrl hqueue
    have hgo := registerWrite_engine_goes s ag a v hon hag hne ha hp he hctrl hqueue
    refine ⟨fun hrw => ?_, fun hw1c => ?_, fun hrw hw1c => ?_⟩
    · rwa [Dev.plainWrite_rw _ _ _ _ hrw] at hgo
    · rwa [Dev.plainWrite_w1c _ _ _ _ hw1c] at hgo
    · rwa [Dev.plainWrite_ignored _ _ _ _ hrw hw1c] at hgo
  · intro hne ha hwin hnone hpost hpage
    have hgo := registerWrite_goes s ag a v hon hag hne ha hwin hpost
    rwa [Dev.wordWrite_unmapped _ _ _ _ hpage hnone] at hgo
  · rintro rfl hlink
    exact registerWrite_host_unlinked s a v hon hlink

end Sys2Proof.Machine
end

section
/-!
PROOFS. MEMORY_READ and MEMORY_WRITE over Pool, holes and DDR5 with its combining buffer, and the flush of a full octet
(R15, R18, R342, R349, R350).
-/
namespace Sys2Proof.Machine

/-! ### An access and its pieces by line -/

/-- Pieces that follow each other from offset `k` to the end of an access of `n` bytes at `a`, each within one line. -/
def Tiles (a n : Nat) : Nat → List (Nat × Nat) → Prop
  | k, [] => k = n
  | k, p :: ps => p.1 = k ∧ 0 < p.2 ∧ (a + k) % 64 + p.2 ≤ 64 ∧ k + p.2 ≤ n ∧ Tiles a n (k + p.2) ps

/-- From a line's start on, whole lines and a last part reach the end. -/
theorem tiles_lines (a n m k : Nat) (hm : ceilDiv (n - k) 64 = m) (hk : (a + k) % 64 = 0) (hkn : k ≤ n) :
    Tiles a n k ((List.range m).map (fun i => (k + 64 * i, min 64 (n - k - 64 * i)))) := by
  induction m generalizing k with
  | zero =>
    simp only [ceilDiv] at hm
    simp only [List.range_zero, List.map_nil, Tiles]
    omega
  | succ m ih =>
    simp only [ceilDiv] at hm
    rw [List.range_succ_eq_map, List.map_cons, List.map_map]
    refine ⟨by simp, by dsimp only; omega, by dsimp only; omega, by dsimp only; omega, ?_⟩
    by_cases hlast : n - k ≤ 64
    · obtain rfl : m = 0 := by omega
      simp only [List.range_zero, List.map_nil, Tiles]
      omega
    · have hnext : k + min 64 (n - k - 64 * 0) = k + 64 := by omega
      have hrest := ih (k + 64) (by simp only [ceilDiv]; omega) (by omega) (by omega)
      have hshift : (fun i => (k + 64 * i, min 64 (n - k - 64 * i))) ∘ Nat.succ
          = fun i => (k + 64 + 64 * i, min 64 (n - (k + 64) - 64 * i)) := by
        funext i
        simp only [Function.comp_apply, Nat.succ_eq_add_one, Prod.mk.injEq]
        omega
      dsimp only
      rw [hnext, hshift]
      exact hrest

/-- The pieces of an access tile it. -/
theorem tiles_linePieces (a n : Nat) : Tiles a n 0 (linePieces a n) := by
  unfold linePieces
  by_cases hn : n = 0
  · simp [hn, Tiles]
  · dsimp only
    rw [if_neg hn]
    refine ⟨rfl, by dsimp only; omega, by dsimp only; omega, by dsimp only; omega, ?_⟩
    dsimp only
    rw [Nat.zero_add]
    by_cases hlast : n ≤ 64 - a % 64
    · have hfirst : min n (64 - a % 64) = n := by omega
      have hnone : ceilDiv (n - n) 64 = 0 := by rw [Nat.sub_self]; decide
      rw [hfirst, hnone]
      rfl
    · exact tiles_lines a n _ _ rfl (by omega) (by omega)

/-- One piece of a read joins its bytes to those before it. -/
def readPiece (ag : Agent) (a : Nat) (acc : Dev × RResp) (p : Nat × Nat) : Dev × RResp :=
  match acc with
  | (d, .ok bs) =>
    match d.readLine ag (a + p.1) p.2 with
    | (d, .ok more) => (d, .ok (bs ++ more))
    | (d, e) => (d, e)
  | other => other

/-- One piece of a write keeps the first failure. -/
def writePiece (ag : Agent) (a : Nat) (bs : List Byte) (acc : Dev × WResp) (p : Nat × Nat) : Dev × WResp :=
  match acc.1.writeLine ag (a + p.1) ((bs.drop p.1).take p.2) with
  | (d, w) => (d, if acc.2 = .ok then w else acc.2)

theorem memRead_pieces (d : Dev) (ag : Agent) (a n : Nat) :
    d.memRead ag a n = (linePieces a n).foldl (readPiece ag a) (d, .ok []) := rfl

theorem memWrite_pieces (d : Dev) (ag : Agent) (a : Nat) (bs : List Byte) :
    d.memWrite ag a bs = (linePieces a bs.length).foldl (writePiece ag a bs) (d, .ok) := rfl

theorem readPiece_ok (d d' : Dev) (ag : Agent) (a k n : Nat) (bs more : List Byte)
    (h : d.readLine ag (a + k) n = (d', .ok more)) : readPiece ag a (d, .ok bs) (k, n) = (d', .ok (bs ++ more)) := by
  simp [readPiece, h]

theorem writePiece_eq (d d' : Dev) (ag : Agent) (a k n : Nat) (bs : List Byte) (w r : WResp)
    (h : d.writeLine ag (a + k) ((bs.drop k).take n) = (d', r)) :
    writePiece ag a bs (d, w) (k, n) = (d', if w = .ok then r else w) := by
  simp [writePiece, h]

/-- A read within one line is that line's read. -/
theorem memRead_one_line (d : Dev) (ag : Agent) (a n : Nat) (hn : n ≠ 0) (h : a % 64 + n ≤ 64) :
    d.memRead ag a n = d.readLine ag a n := by
  rw [memRead_pieces, linePieces_one a n hn h, List.foldl_cons, List.foldl_nil]
  unfold readPiece
  dsimp only
  rw [Nat.add_zero]
  rcases d.readLine ag a n with ⟨d', _ | _ | _⟩ <;> rfl

/-- A write within one line is that line's write. -/
theorem memWrite_one_line (d : Dev) (ag : Agent) (a : Nat) (bs : List Byte) (hn : bs.length ≠ 0)
    (h : a % 64 + bs.length ≤ 64) : d.memWrite ag a bs = d.writeLine ag a bs := by
  rcases hline : d.writeLine ag a bs with ⟨d', r⟩
  have hpiece : d.writeLine ag (a + 0) ((bs.drop 0).take bs.length) = (d', r) := by
    rw [Nat.add_zero, List.drop_zero, List.take_length, hline]
  rw [memWrite_pieces, linePieces_one a _ hn h, List.foldl_cons, List.foldl_nil, writePiece_eq d d' ag a 0 _ bs .ok r hpiece,
    if_pos rfl]

/-! ### Commands on the bus -/

theorem exec_memoryRead (s : State) (ag : Agent) (a : BitVec 40) (n : Fin 257) (hon : s.dev.powered = true)
    (hag : ag.ok = true) : exec (.memoryRead ag a n) s = .next { s with
      dev := (s.dev.busRead ag a.toNat n).1, reply := .read (s.dev.busRead ag a.toNat n).2 } := by
  refine (checked_on _ _ hag).trans ?_
  rw [State.readBy, if_pos hon]

theorem exec_memoryWrite (s : State) (ag : Agent) (a : BitVec 40) (bs : List Byte) (hon : s.dev.powered = true)
    (hag : ag.ok = true) (hne : 1 ≤ bs.length) (hle : bs.length ≤ 256) : exec (.memoryWrite ag a bs) s = .next { s with
      dev := (s.dev.busWrite ag a.toNat bs).1, reply := .write (s.dev.busWrite ag a.toNat bs).2 } := by
  have hsome : bs ≠ [] := List.ne_nil_of_length_pos hne
  refine (checked_on _ _ (by simp [hag, hle, hsome])).trans ?_
  rw [State.writeBy, if_pos hon]

/-- Outside the register windows a read is the memories'. -/
theorem busRead_memory (d : Dev) (ag : Agent) (a n : Nat) (hwake : d.wakeFor a = d) (hwin : inWindow a = false) :
    d.busRead ag a n = d.memRead ag a n := by
  simp [Dev.busRead, hwake, hwin]

/-- Outside the register windows a write is the memories'. -/
theorem busWrite_memory (d : Dev) (ag : Agent) (a : Nat) (bs : List Byte) (hwake : d.wakeFor a = d)
    (hwin : inWindow a = false) : d.busWrite ag a bs = d.memWrite ag a bs := by
  simp [Dev.busWrite, hwake, hwin]

/-! ### Pool -/

/-- A range of Pool whose banks are not retired (R15, R361). -/
def Dev.poolOpen (d : Dev) (a n : Nat) : Prop :=
  poolBase ≤ a ∧ a + n ≤ poolBase + 0x8000000
    ∧ ∀ x : Nat, a ≤ x → x < a + n → bit (d.regN (memBase + 0x50)) ((x - poolBase) / 0x800000) = false

theorem Dev.poolOpen.start {d : Dev} {a n : Nat} (h : d.poolOpen a n) (hn : 1 ≤ n) :
    poolBase ≤ a ∧ a < poolBase + 0x8000000 := by
  obtain ⟨hlo, hend, -⟩ := h
  omega

theorem inWindow_pool (a : Nat) (hhi : a < poolBase + 0x8000000) : inWindow a = false := by
  simp only [inWindow, windowSpans, List.any_eq_false, List.mem_cons, List.not_mem_nil, or_false, Bool.and_eq_true,
    decide_eq_true_eq, forall_eq_or_imp, forall_eq, poolBase, smdBase, qmgBase, bmvBase, benBase, cphBase, fhnBase, tmuBase,
    memBase, pwrBase, obsBase] at hhi ⊢
  omega

theorem wakeFor_pool (d : Dev) (a : Nat) (hlo : poolBase ≤ a) (hhi : a < poolBase + 0x8000000) : d.wakeFor a = d := by
  have hnone : unitAt a = none := by
    simp only [poolBase] at hlo hhi
    have hcluster : ¬ (0x100000000 ≤ a ∧ a < 0x118000000) := by omega
    simp [unitAt, hcluster, benBase, decBase, encBase, codecBase, xfuBase, wbuGBase, wbuRBase, bmvBase]
    omega
  simp [Dev.wakeFor, hnone]

theorem locate_pool (d : Dev) (ag : Agent) (a n x : Nat) (h : d.poolOpen a n) (hlo : a ≤ x) (hhi : x < a + n) :
    d.locate ag x = (.pool, x) := by
  obtain ⟨hbase, hend, hbank⟩ := h
  have hbit := hbank x hlo hhi
  have hin : poolBase ≤ x ∧ x < poolBase + 0x8000000 := by omega
  have hlocal : ¬ x < 0x50000 := by simp only [poolBase] at hin; omega
  have hcluster : ¬ (0x100000000 ≤ x ∧ x < 0x100000000 + 24 * 0x1000000) := by simp only [poolBase] at hin; omega
  unfold Dev.locate
  rw [if_neg hlocal, if_neg hcluster, if_pos hin, hbit]
  rfl

theorem bytes_add (m : MemState) (a k n : Nat) : m.bytes a k ++ m.bytes (a + k) n = m.bytes a (k + n) := by
  simp [MemState.bytes, List.range_add, Function.comp_def, Nat.add_assoc]

/-- Pieces that each answer the stored bytes and change nothing answer all of them. -/
theorem readPieces_stored (d : Dev) (ag : Agent) (a n k : Nat) (ps : List (Nat × Nat)) (ht : Tiles a n k ps)
    (hline : ∀ j m : Nat, j + m ≤ n → 0 < m → (a + j) % 64 + m ≤ 64 →
      d.readLine ag (a + j) m = (d, .ok (d.mem.bytes (a + j) m))) :
    ps.foldl (readPiece ag a) (d, .ok (d.mem.bytes a k)) = (d, .ok (d.mem.bytes a n)) := by
  induction ps generalizing k with
  | nil =>
    obtain rfl : k = n := ht
    rfl
  | cons p ps ih =>
    obtain ⟨j, m⟩ := p
    obtain ⟨rfl, hpos, hfit, hle, hrest⟩ := ht
    rw [List.foldl_cons, readPiece_ok d d ag a _ _ _ _ (hline _ m hle hpos hfit), bytes_add]
    exact ih _ hrest

/-- A read of open, undamaged Pool answers the stored bytes and changes nothing (R342). -/
theorem memRead_pool (d : Dev) (ag : Agent) (a n : Nat) (hopen : d.poolOpen a n) (hquiet : d.mem.quietAt a n) :
    d.memRead ag a n = (d, .ok (d.mem.bytes a n)) := by
  rw [memRead_pieces]
  refine readPieces_stored d ag a n 0 _ (tiles_linePieces a n) fun j m hle hpos hfit => ?_
  rw [← memRead_one_line d ag (a + j) m (by omega) hfit]
  exact memRead_quiet d ag (a + j) m (a + j) .pool (by omega) hfit
    (locate_pool d ag a n _ hopen (by omega) (by omega)) rfl rfl (hquiet _ (by omega) (by omega))

/-! ### A write of on-chip lines without damage (R349) -/

/-- `d'` is `d` with `bs` stored at `a`: other bytes, undamaged lines, and all registers but the count of partial writes
stand. -/
structure Dev.Stores (d d' : Dev) (a : Nat) (bs : List Byte) : Prop where
  stored : d.mem.StoredAt d'.mem a bs
  quiet : ∀ l : Nat, d.mem.lineQuiet l = true → d'.mem.lineQuiet l = true
  frame : ∃ m r, d' = { d with mem := m, regs := r }
  reg : ∀ x : Nat, x ≠ memCnt 9 → x ≠ memCnt 9 + 4 → d'.reg x = d.reg x

theorem Dev.Stores.nil (d : Dev) (a : Nat) : d.Stores d a [] where
  stored := fun x => by rw [if_neg (by simp)]
  quiet := fun _ h => h
  frame := ⟨_, _, rfl⟩
  reg := fun _ _ _ => rfl

theorem StoredAt_append {m m1 m2 : MemState} {a : Nat} {xs ys : List Byte} (h1 : m.StoredAt m1 a xs)
    (h2 : m1.StoredAt m2 (a + xs.length) ys) : m.StoredAt m2 a (xs ++ ys) := by
  intro x
  rw [h2 x, h1 x, List.length_append]
  by_cases hsecond : a + xs.length ≤ x ∧ x < a + xs.length + ys.length
  · rw [if_pos hsecond, if_pos (by omega), List.getD_eq_getElem?_getD, List.getD_eq_getElem?_getD,
      List.getElem?_append_right (by omega), Nat.sub_sub]
  · by_cases hfirst : a ≤ x ∧ x < a + xs.length
    · rw [if_neg hsecond, if_pos hfirst, if_pos (by omega), List.getD_eq_getElem?_getD, List.getD_eq_getElem?_getD,
        List.getElem?_append_left (by omega)]
    · rw [if_neg hsecond, if_neg hfirst, if_neg (by omega)]

theorem Dev.Stores.append {d d1 d2 : Dev} {a : Nat} {xs ys : List Byte} (h1 : d.Stores d1 a xs)
    (h2 : d1.Stores d2 (a + xs.length) ys) : d.Stores d2 a (xs ++ ys) where
  stored := StoredAt_append h1.stored h2.stored
  quiet := fun l h => h2.quiet l (h1.quiet l h)
  frame := by
    obtain ⟨m1, r1, rfl⟩ := h1.frame
    obtain ⟨m2, r2, rfl⟩ := h2.frame
    exact ⟨m2, r2, rfl⟩
  reg := fun x hlo hhi => (h2.reg x hlo hhi).trans (h1.reg x hlo hhi)

/-- A store keeps the retirement register of the banks. -/
theorem Dev.Stores.poolOpen {d d' : Dev} {a b n : Nat} {bs : List Byte} (h : d.Stores d' a bs) (hopen : d.poolOpen b n) :
    d'.poolOpen b n := by
  have hreg : d'.regN (memBase + 0x50) = d.regN (memBase + 0x50) :=
    congrArg BitVec.toNat (h.reg _ (by decide) (by decide))
  rw [Dev.poolOpen, hreg]
  exact hopen

@[simp] theorem byte_resign (m : MemState) (l x : Nat) (old : BitVec 64) : (m.resign l old).byte x = m.byte x := by
  unfold MemState.resign
  split <;> rfl

@[simp] theorem lineQuiet_resign (m : MemState) (l x : Nat) (old : BitVec 64) :
    (m.resign l old).lineQuiet x = m.lineQuiet x := by
  unfold MemState.resign
  split <;> rfl

theorem putBytes_frame (m : MemState) (a : Nat) (bs : List Byte) :
    m.putBytes a bs = { m with data := (m.putBytes a bs).data } := by
  induction bs generalizing m a with
  | nil => rfl
  | cons b bs ih =>
    rw [MemState.putBytes, ih]
    rfl

theorem padTo_self (n : Nat) (bs : List Byte) (h : bs.length = n) : padTo n bs = bs := by
  subst h
  simp [padTo, zeros]

theorem byte_storeLine (m : MemState) (l x : Nat) (bs : List Byte) (h : bs.length = 64) :
    (m.storeLine l bs).byte x = if 64 * l ≤ x ∧ x < 64 * l + 64 then bs.getD (x - 64 * l) 0 else m.byte x := by
  have hput := byte_putBytes m (64 * l) x bs
  rw [h] at hput
  rw [MemState.storeLine, byte_resign, padTo_self 64 bs h]
  exact hput

theorem lineQuiet_iff (m : MemState) (l : Nat) :
    m.lineQuiet l = true ↔ m.bad l = 0 ∧ m.chk l = 0 ∧ m.syndrome l = 0 := by
  simp only [MemState.lineQuiet, Bool.and_eq_true, decide_eq_true_eq, and_assoc]

/-- A stored line has correct checks, and the other lines' checks are as before. -/
theorem lineQuiet_storeLine (m : MemState) (l x : Nat) (bs : List Byte) (h : m.lineQuiet x = true) :
    (m.storeLine l bs).lineQuiet x = true := by
  rw [lineQuiet_iff] at h
  rw [MemState.storeLine, lineQuiet_resign, putBytes_frame, lineQuiet_iff]
  simp only [MemState.bad, MemState.chk, MemState.syndrome, MemState.setBad, MemState.setSyn, MemState.setChk,
    Tab.get_put] at h ⊢
  by_cases hx : x = l
  · simp [hx]
  · simpa only [if_neg hx] using h

theorem bytes_length (m : MemState) (a n : Nat) : (m.bytes a n).length = n := by simp [MemState.bytes]

theorem getD_bytes (m : MemState) (a n i : Nat) (h : i < n) : (m.bytes a n).getD i 0 = m.byte (a + i) := by
  simp [MemState.bytes, h]

theorem spliceAt_length (old bs : List Byte) (off : Nat) (h : off + bs.length ≤ old.length) :
    (spliceAt old off bs).length = old.length := by
  simp only [spliceAt, List.length_take, List.length_append, List.length_drop]
  omega

/-- Bytes spliced into a line stand in it, and the rest of the line stays. -/
theorem getD_spliceAt (old bs : List Byte) (off i : Nat) (h : off + bs.length ≤ old.length) (hi : i < old.length) :
    (spliceAt old off bs).getD i 0 = if off ≤ i ∧ i < off + bs.length then bs.getD (i - off) 0 else old.getD i 0 := by
  have hoff : min off old.length = off := by omega
  simp only [spliceAt, List.getD_eq_getElem?_getD, List.getElem?_take, List.getElem?_append, List.length_append,
    List.length_take, List.getElem?_drop, hoff, if_pos hi]
  by_cases hbefore : i < off
  · rw [if_pos (by omega), if_pos hbefore, if_pos hbefore, if_neg (by omega)]
  · by_cases hin : i < off + bs.length
    · rw [if_pos hin, if_neg hbefore, if_pos ⟨by omega, hin⟩]
    · rw [if_neg hin, if_neg (by omega), show off + bs.length + (i - (off + bs.length)) = i by omega]

/-- A whole line with correct checks stores its bytes. -/
theorem stores_storeLine (d : Dev) (l : Nat) (bs : List Byte) (h : bs.length = 64) :
    d.Stores (({ d with mem := d.mem.storeLine l bs } : Dev).unfilter (64 * l)) (64 * l) bs where
  stored := fun x => by
    rw [h]
    exact byte_storeLine d.mem l x bs h
  quiet := fun x hq => lineQuiet_storeLine d.mem l x bs hq
  frame := ⟨_, _, rfl⟩
  reg := fun _ _ _ => rfl

/-- Counting a partial write changes no byte. -/
theorem stores_bump (d : Dev) (a : Nat) : d.Stores (d.bump (memCnt 9)) a [] where
  stored := (Dev.Stores.nil d a).stored
  quiet := fun _ h => h
  frame := ⟨_, _, rfl⟩
  reg := fun x hlo hhi => Dev.reg_bump_other d (memCnt 9) x hlo hhi

/-- A line whose bytes are its old ones but for `bs` stores just `bs`. -/
theorem Dev.Stores.splice {d d' : Dev} {l off : Nat} {bs : List Byte} (hfit : off + bs.length ≤ 64)
    (h : d.Stores d' (64 * l) (spliceAt (d.mem.bytes (64 * l) 64) off bs)) : d.Stores d' (64 * l + off) bs where
  quiet := h.quiet
  frame := h.frame
  reg := h.reg
  stored := fun x => by
    have hlen := bytes_length d.mem (64 * l) 64
    rw [h.stored x, spliceAt_length _ _ _ (by omega), hlen]
    by_cases hline : 64 * l ≤ x ∧ x < 64 * l + 64
    · rw [if_pos hline, getD_spliceAt _ _ _ _ (by omega) (by omega), getD_bytes _ _ _ _ (by omega), Nat.sub_sub,
        show 64 * l + (x - 64 * l) = x by omega]
      split
      · rw [if_pos (by omega)]
      · rw [if_neg (by omega)]
    · rw [if_neg hline, if_neg (by omega)]

/-- A write within an undamaged on-chip line stores its bytes; a partial one is merged and counted (R349). -/
theorem writeSram_quiet (d : Dev) (ag : Agent) (r : Region) (l off : Nat) (bs : List Byte) (hfit : off + bs.length ≤ 64)
    (hq : d.mem.lineQuiet l = true) :
    ∃ d' : Dev, d.writeSram ag r l off bs = (d', true) ∧ d.Stores d' (64 * l + off) bs := by
  unfold Dev.writeSram
  by_cases hwhole : bs.length = 64
  · obtain rfl : off = 0 := by omega
    rw [if_pos hwhole]
    exact ⟨_, rfl, stores_storeLine d l bs hwhole⟩
  · rw [if_neg hwhole]
    simp only [Dev.bump_mem, lineQuiet_decode _ _ hq, Dev.ceLine]
    refine ⟨_, rfl, Dev.Stores.splice hfit ?_⟩
    have hlen := spliceAt_length (d.mem.bytes (64 * l) 64) bs off (by rw [bytes_length]; exact hfit)
    rw [bytes_length] at hlen
    exact (stores_bump d (64 * l)).append (stores_storeLine (d.bump (memCnt 9)) l _ hlen)

theorem writeLine_pool (d : Dev) (ag : Agent) (a : Nat) (bs : List Byte) (hloc : d.locate ag a = (.pool, a))
    (hfit : a % 64 + bs.length ≤ 64) (hq : d.mem.lineQuiet (a / 64) = true) :
    ∃ d' : Dev, d.writeLine ag a bs = (d', .ok) ∧ d.Stores d' a bs := by
  obtain ⟨d', hw, hst⟩ := writeSram_quiet d ag .pool (a / 64) (a % 64) bs hfit hq
  rw [Nat.div_add_mod] at hst
  refine ⟨d', ?_, hst⟩
  simp [Dev.writeLine, hloc, hw]

/-- Pieces of a write to open, undamaged Pool store their bytes one after the other. -/
theorem writePieces_pool (d d1 : Dev) (ag : Agent) (a k : Nat) (bs : List Byte) (ps : List (Nat × Nat))
    (hopen : d.poolOpen a bs.length) (hquiet : d.mem.quietAt a bs.length) (hk : k ≤ bs.length)
    (ht : Tiles a bs.length k ps) (hst : d.Stores d1 a (bs.take k)) :
    ∃ d' : Dev, ps.foldl (writePiece ag a bs) (d1, .ok) = (d', .ok) ∧ d.Stores d' a bs := by
  induction ps generalizing d1 k with
  | nil =>
    obtain rfl : k = bs.length := ht
    rw [List.take_length] at hst
    exact ⟨d1, rfl, hst⟩
  | cons p ps ih =>
    obtain ⟨j, n⟩ := p
    obtain ⟨rfl, hpos, hfit, hle, hrest⟩ := ht
    dsimp only at hpos hfit hle hrest hst hk
    have hlen : ((bs.drop j).take n).length = n := by simp; omega
    have hloc := locate_pool d1 ag a bs.length (a + j) (hst.poolOpen hopen) (by omega) (by omega)
    have hq := hst.quiet _ (hquiet (a + j) (by omega) (by omega))
    obtain ⟨d2, hw, hst2⟩ := writeLine_pool d1 ag (a + j) ((bs.drop j).take n) hloc (by omega) hq
    have hall : d.Stores d2 a (bs.take (j + n)) := by
      rw [List.take_add]
      refine hst.append ?_
      rwa [List.length_take_of_le hk]
    rw [List.foldl_cons, writePiece_eq d1 d2 ag a j n bs .ok .ok hw]
    exact ih d2 _ hle hrest hall

/-- A write to open, undamaged Pool is answered OK and stores its bytes. -/
theorem memWrite_pool (d : Dev) (ag : Agent) (a : Nat) (bs : List Byte) (hopen : d.poolOpen a bs.length)
    (hquiet : d.mem.quietAt a bs.length) : ∃ d' : Dev, d.memWrite ag a bs = (d', .ok) ∧ d.Stores d' a bs := by
  rw [memWrite_pieces]
  exact writePieces_pool d d ag a 0 bs _ hopen hquiet (Nat.zero_le _) (tiles_linePieces a _) (Dev.Stores.nil d a)

/-! ### Addresses that nothing covers (R18) -/

theorem locate_hole (d : Dev) (ag : Agent) (a : Nat) (hlo : poolBase + 0x8000000 ≤ a) (hhi : a < ddrBase)
    (hwin : inWindow a = false) : d.locate ag a = (.hole, a) := by
  have hpool : ¬ (poolBase ≤ a ∧ a < poolBase + 0x8000000) := by omega
  have hddr : ¬ (ddrBase ≤ a ∧ a < ddrBase + d.visible) := by omega
  simp only [poolBase] at hlo
  have hlocal : ¬ a < 0x50000 := by omega
  have hcluster : ¬ (0x100000000 ≤ a ∧ a < 0x100000000 + 24 * 0x1000000) := by omega
  unfold Dev.locate
  rw [if_neg hlocal, if_neg hcluster, if_neg hpool, hwin, if_neg Bool.false_ne_true, if_neg hddr]

theorem readLine_hole (d : Dev) (ag : Agent) (a p n : Nat) (h : d.locate ag a = (.hole, p)) :
    d.readLine ag a n = (d, .decode a) := by
  simp [Dev.readLine, h]

theorem writeLine_hole (d : Dev) (ag : Agent) (a p : Nat) (bs : List Byte) (h : d.locate ag a = (.hole, p)) :
    d.writeLine ag a bs = (d, .decode a) := by
  simp [Dev.writeLine, h]

/-- Once a piece of a read has failed, its answer stands. -/
theorem readPieces_failed (d : Dev) (ag : Agent) (a b : Nat) (ps : List (Nat × Nat)) :
    ps.foldl (readPiece ag a) (d, .decode b) = (d, .decode b) := by
  induction ps with
  | nil => rfl
  | cons p ps ih => exact ih

/-- Pieces of a write that reach no memory change nothing, and the failure noted stands. -/
theorem writePieces_failed (d : Dev) (ag : Agent) (a b : Nat) (bs : List Byte) (ps : List (Nat × Nat))
    (h : ∀ p ∈ ps, d.locate ag (a + p.1) = (.hole, a + p.1)) :
    ps.foldl (writePiece ag a bs) (d, .decode b) = (d, .decode b) := by
  induction ps with
  | nil => rfl
  | cons p ps ih =>
    obtain ⟨hp, hps⟩ := List.forall_mem_cons.mp h
    rw [List.foldl_cons, writePiece_eq d d ag a _ _ bs _ _ (writeLine_hole d ag _ _ _ hp)]
    exact ih hps

/-- The pieces of an access that is not empty begin with its first byte. -/
theorem linePieces_first (a n : Nat) (hn : n ≠ 0) : ∃ (m : Nat) (ps : List (Nat × Nat)), linePieces a n = (0, m) :: ps := by
  unfold linePieces
  dsimp only
  rw [if_neg hn]
  exact ⟨_, _, rfl⟩

theorem tiles_bounded (a n k : Nat) (ps : List (Nat × Nat)) (h : Tiles a n k ps) : ∀ p ∈ ps, p.1 < n := by
  induction ps generalizing k with
  | nil => simp
  | cons p ps ih =>
    obtain ⟨rfl, hpos, -, hle, hrest⟩ := h
    exact List.forall_mem_cons.mpr ⟨by omega, ih _ hrest⟩

theorem memRead_hole (d : Dev) (ag : Agent) (a n : Nat) (hn : n ≠ 0) (h : d.locate ag a = (.hole, a)) :
    d.memRead ag a n = (d, .decode a) := by
  obtain ⟨m, ps, hps⟩ := linePieces_first a n hn
  have hfirst : readPiece ag a (d, .ok []) (0, m) = (d, .decode a) := by simp [readPiece, readLine_hole d ag a a m h]
  rw [memRead_pieces, hps, List.foldl_cons, hfirst]
  exact readPieces_failed d ag a a ps

theorem memWrite_hole (d : Dev) (ag : Agent) (a : Nat) (bs : List Byte) (hn : bs.length ≠ 0)
    (h : ∀ i : Nat, i < bs.length → d.locate ag (a + i) = (.hole, a + i)) : d.memWrite ag a bs = (d, .decode a) := by
  obtain ⟨m, ps, hps⟩ := linePieces_first a bs.length hn
  have hin := tiles_bounded a _ 0 _ (tiles_linePieces a bs.length)
  rw [hps] at hin
  obtain ⟨h0, hrest⟩ := List.forall_mem_cons.mp hin
  rw [memWrite_pieces, hps, List.foldl_cons, writePiece_eq d d ag a 0 m bs _ _ (writeLine_hole d ag _ _ _ (h 0 h0)),
    if_pos rfl]
  exact writePieces_failed d ag a _ bs ps fun p hp => h p.1 (hrest p hp)

/-! ### Bytes of a combining-buffer entry (R350) -/

theorem get_foldl_put (g : Nat → Option Byte) (t : Tab (Option Byte)) (o n j : Nat) :
    Tab.get (fun _ => none) ((List.range n).foldl (fun t i => Tab.put (fun _ => none) t (o + i) (g i)) t) j
      = if o ≤ j ∧ j < o + n then g (j - o) else Tab.get (fun _ => none) t j := by
  induction n with
  | zero => rw [if_neg (by omega)]; rfl
  | succ n ih =>
    rw [List.range_succ, List.foldl_append, List.foldl_cons, List.foldl_nil, Tab.get_put, ih]
    by_cases hlast : j = o + n
    · rw [if_pos hlast, if_pos (by omega), hlast, Nat.add_sub_cancel_left]
    · rw [if_neg hlast]
      exact ite_congr (propext (by omega)) (fun _ => rfl) (fun _ => rfl)

/-- An entry after agent `q` wrote `bs` to the octet's bytes from `o` on. -/
def CombEntry.written (e : CombEntry) (q o : Nat) (bs : List Byte) : CombEntry := { e with
  req := q
  bytes := (List.range bs.length).foldl (fun t i => Tab.put (fun _ => none) t (o + i) (some (bs.getD i 0))) e.bytes }

theorem CombEntry.byte_written (e : CombEntry) (q o j : Nat) (bs : List Byte) :
    (e.written q o bs).byte j = if o ≤ j ∧ j < o + bs.length then some (bs.getD (j - o) 0) else e.byte j :=
  get_foldl_put (fun i => some (bs.getD i 0)) e.bytes o bs.length j

/-- A line of an entry is full when each of its bytes has been written. -/
theorem CombEntry.count_full (e : CombEntry) (u : Nat) (h : ∀ i : Nat, i < 64 → (e.byte (64 * u + i)).isSome = true) :
    e.count u = 64 := by
  rw [CombEntry.count, List.filter_eq_self.mpr fun i hi => h i (List.mem_range.mp hi), List.length_range]

@[simp] theorem CombEntry.overlay_length (e : CombEntry) (u : Nat) (bs : List Byte) : (e.overlay u bs).length = 64 := by
  simp [CombEntry.overlay]

theorem CombEntry.getD_overlay (e : CombEntry) (u i : Nat) (bs : List Byte) (h : i < 64) :
    (e.overlay u bs).getD i 0 = (e.byte (64 * u + i)).getD (bs.getD i 0) := by
  simp [CombEntry.overlay, h]

/-- A line written whole is full and is what the entry gives for it. -/
theorem CombEntry.count_written (e : CombEntry) (q u : Nat) (bs : List Byte) (h : bs.length = 64) :
    (e.written q (64 * u) bs).count u = 64 := by
  refine CombEntry.count_full _ u fun i hi => ?_
  rw [CombEntry.byte_written, if_pos (by omega)]
  rfl

theorem CombEntry.overlay_written (e : CombEntry) (q u : Nat) (bs old : List Byte) (h : bs.length = 64) :
    (e.written q (64 * u) bs).overlay u old = bs := by
  refine List.ext_getElem (by simp [h]) fun i hi hj => ?_
  have hbyte := CombEntry.getD_overlay (e.written q (64 * u) bs) u i old (by omega)
  rw [CombEntry.byte_written, if_pos (by omega), Nat.add_sub_cancel_left, Option.getD_some] at hbyte
  rwa [List.getD_eq_getElem?_getD, List.getD_eq_getElem?_getD, List.getElem?_eq_getElem hi, List.getElem?_eq_getElem hj,
    Option.getD_some, Option.getD_some] at hbyte

/-! ### A write into the combining buffer, and a read of what it holds (R350) -/

/-- Where each entry of octet `oct` is replaced by its image, and one exists, an image is what is found. -/
theorem find?_octet_map (es : List CombEntry) (oct : Nat) (f : CombEntry → CombEntry) (hf : ∀ e, (f e).octet = e.octet)
    (hmem : ∃ e ∈ es, e.octet = oct) :
    ∃ e, (es.map (fun e => if e.octet = oct then f e else e)).find? (fun e => e.octet = oct) = some (f e) := by
  induction es with
  | nil => simp at hmem
  | cons e es ih =>
    by_cases h : e.octet = oct
    · exact ⟨e, by simp [h, hf]⟩
    · simpa [h] using ih (by simpa [h] using hmem)

/-- The device once its full buffer has evicted the entry allocated first (R350). -/
def Dev.combRoom (d : Dev) : Dev :=
  if d.mem.comb.length ≥ 64 then
    match d.mem.comb.head? with
    | some e => d.flushEntry e
    | none => d
  else d

/-- A write goes into each entry of its octet, and there is one: a new one where none was. -/
theorem comb_writeDdr (d : Dev) (ag : Agent) (l off : Nat) (bs : List Byte) :
    ∃ es : List CombEntry, (∃ e ∈ es, e.octet = l / 8) ∧ (d.writeDdr ag l off bs).mem.comb
      = es.map (fun e => if e.octet = l / 8 then e.written ag.word (64 * (l % 8) + off) bs else e) := by
  unfold Dev.writeDdr
  dsimp only
  cases h : d.mem.combOf (l / 8) with
  | some e => exact ⟨d.mem.comb, ⟨e, List.mem_of_find?_eq_some h, by simpa using List.find?_some h⟩, rfl⟩
  | none =>
    exact ⟨d.combRoom.mem.comb ++ [⟨l / 8, [], d.combRoom.time.raw, ag.word⟩], ⟨_, List.mem_concat_self, rfl⟩, rfl⟩

/-- After a write the entry of its octet holds the bytes written. -/
theorem combOf_writeDdr (d : Dev) (ag : Agent) (l off : Nat) (bs : List Byte) :
    ∃ e : CombEntry, (d.writeDdr ag l off bs).mem.combOf (l / 8) = some (e.written ag.word (64 * (l % 8) + off) bs) := by
  obtain ⟨es, hmem, hcomb⟩ := comb_writeDdr d ag l off bs
  rw [MemState.combOf, hcomb]
  exact find?_octet_map es _ (fun e => e.written ag.word (64 * (l % 8) + off) bs) (fun _ => rfl) hmem

/-- A read of a line that the buffer holds whole gives the buffered bytes. -/
theorem readDdr_full (d : Dev) (ag : Agent) (l : Nat) (e : CombEntry) (he : d.mem.combOf (l / 8) = some e)
    (hfull : e.count (l % 8) = 64) : d.readDdr ag l = (d, .ok (e.overlay (l % 8) [])) := by
  simp [Dev.readDdr, he, hfull]

/-- A DDR5 line written whole reads as written. -/
theorem readDdr_writeDdr (d : Dev) (ag : Agent) (l : Nat) (bs : List Byte) (h : bs.length = 64) :
    ((d.writeDdr ag l 0 bs).readDdr ag l).2 = .ok bs := by
  obtain ⟨e, he⟩ := combOf_writeDdr d ag l 0 bs
  rw [Nat.add_zero] at he
  rw [readDdr_full _ ag l _ he (e.count_written _ _ bs h), e.overlay_written _ _ bs [] h]

theorem locate_ddr (d : Dev) (ag : Agent) (a : Nat) (hlo : ddrBase ≤ a) (hhi : a < ddrBase + d.visible)
    (hfilled : d.mem.filled = true) (hpage : d.pageRetired a = false) (hwin : inWindow a = false) :
    d.locate ag a = (.ddr, a) := by
  have hddr : ddrBase ≤ a ∧ a < ddrBase + d.visible := ⟨hlo, hhi⟩
  simp only [ddrBase] at hlo
  have hlocal : ¬ a < 0x50000 := by omega
  have hcluster : ¬ (0x100000000 ≤ a ∧ a < 0x100000000 + 24 * 0x1000000) := by omega
  have hpool : ¬ (poolBase ≤ a ∧ a < poolBase + 0x8000000) := by simp only [poolBase]; omega
  unfold Dev.locate
  rw [if_neg hlocal, if_neg hcluster, if_neg hpool, hwin, if_neg Bool.false_ne_true, if_pos hddr, hfilled, hpage]
  rfl

theorem writeLine_ddr (d : Dev) (ag : Agent) (a : Nat) (bs : List Byte) (h : d.locate ag a = (.ddr, a)) :
    d.writeLine ag a bs = (d.writeDdr ag (a / 64) (a % 64) bs, .ok) := by
  simp [Dev.writeLine, h]

/-! ### The flush of a full octet (R350) -/

/-- A full entry's line goes to the stored bytes. -/
def CombEntry.putLine (e : CombEntry) (m : MemState) (u : Nat) : MemState :=
  (m.putBytes (64 * (8 * e.octet + u)) (e.overlay u [])).setBad (8 * e.octet + u) 0

theorem CombEntry.putLine_comb (e : CombEntry) (m : MemState) (u : Nat) : (e.putLine m u).comb = m.comb := by
  rw [CombEntry.putLine, putBytes_frame]
  rfl

theorem byte_setBad (m : MemState) (l x : Nat) (v : BitVec 64) : (m.setBad l v).byte x = m.byte x := rfl

theorem CombEntry.byte_putLine (e : CombEntry) (m : MemState) (u x : Nat) : (e.putLine m u).byte x =
    if 512 * e.octet + 64 * u ≤ x ∧ x < 512 * e.octet + 64 * (u + 1) then (e.byte (x - 512 * e.octet)).getD 0
    else m.byte x := by
  rw [CombEntry.putLine, byte_setBad, byte_putBytes, CombEntry.overlay_length]
  by_cases hin : 512 * e.octet + 64 * u ≤ x ∧ x < 512 * e.octet + 64 * (u + 1)
  · rw [if_pos hin, if_pos (by omega), CombEntry.getD_overlay _ _ _ _ (by omega), List.getD_nil,
      show 64 * u + (x - 64 * (8 * e.octet + u)) = x - 512 * e.octet by omega]
  · rw [if_neg hin, if_neg (by omega)]

theorem CombEntry.putLines_comb (e : CombEntry) (m : MemState) (us : List Nat) : (us.foldl e.putLine m).comb = m.comb := by
  induction us generalizing m with
  | nil => rfl
  | cons u us ih => rw [List.foldl_cons, ih, CombEntry.putLine_comb]

theorem CombEntry.byte_putLines (e : CombEntry) (m : MemState) (n x : Nat) :
    ((List.range n).foldl e.putLine m).byte x =
      if 512 * e.octet ≤ x ∧ x < 512 * e.octet + 64 * n then (e.byte (x - 512 * e.octet)).getD 0 else m.byte x := by
  induction n with
  | zero => rw [if_neg (by omega)]; rfl
  | succ n ih =>
    rw [List.range_succ, List.foldl_append, List.foldl_cons, List.foldl_nil, CombEntry.byte_putLine, ih]
    by_cases hlast : 512 * e.octet + 64 * n ≤ x ∧ x < 512 * e.octet + 64 * (n + 1)
    · rw [if_pos hlast, if_pos (by omega)]
    · rw [if_neg hlast]
      exact ite_congr (propext (by omega)) (fun _ => rfl) (fun _ => rfl)

/-- The cached check line of an octet is clean (R351). -/
def MemState.cleanCheckLine (m : MemState) (oct : Nat) : MemState :=
  { m with clc := m.clc.map fun c => if c.octet = oct then { c with dirty := false } else c }

/-- The combining buffer without the entry of an octet. -/
def MemState.dropComb (m : MemState) (oct : Nat) : MemState :=
  { m with comb := m.comb.filter (fun y => decide (y.octet ≠ oct)) }

/-- A full entry leaves the buffer, and its lines are stored with correct checks. -/
def MemState.storeOctet (m : MemState) (e : CombEntry) : MemState :=
  ((((List.range 8).foldl e.putLine (m.dropComb e.octet)).setSyn (8 * e.octet) 0).setChk (8 * e.octet) 0).cleanCheckLine
    e.octet

theorem cleanCheckLine_comb (m : MemState) (oct : Nat) : (m.cleanCheckLine oct).comb = m.comb := rfl
theorem setSyn_comb (m : MemState) (g : Nat) (v : BitVec 512) : (m.setSyn g v).comb = m.comb := rfl
theorem setChk_comb (m : MemState) (g : Nat) (v : BitVec 64) : (m.setChk g v).comb = m.comb := rfl
theorem byte_cleanCheckLine (m : MemState) (oct x : Nat) : (m.cleanCheckLine oct).byte x = m.byte x := rfl
theorem byte_dropComb (m : MemState) (oct x : Nat) : (m.dropComb oct).byte x = m.byte x := rfl
theorem byte_setSyn (m : MemState) (g x : Nat) (v : BitVec 512) : (m.setSyn g v).byte x = m.byte x := rfl
theorem byte_setChk (m : MemState) (g x : Nat) (v : BitVec 64) : (m.setChk g v).byte x = m.byte x := rfl

theorem storeOctet_comb (m : MemState) (e : CombEntry) :
    (m.storeOctet e).comb = m.comb.filter (fun y => decide (y.octet ≠ e.octet)) := by
  rw [MemState.storeOctet, cleanCheckLine_comb, setChk_comb, setSyn_comb, CombEntry.putLines_comb, MemState.dropComb]

/-- The octet's bytes are the entry's, and all others stay. -/
theorem byte_storeOctet (m : MemState) (e : CombEntry) (x : Nat) : (m.storeOctet e).byte x =
    if 512 * e.octet ≤ x ∧ x < 512 * e.octet + 512 then (e.byte (x - 512 * e.octet)).getD 0 else m.byte x := by
  rw [MemState.storeOctet, byte_cleanCheckLine, byte_setChk, byte_setSyn, CombEntry.byte_putLines, byte_dropComb]

/-- The flush of a full entry stores its octet, counts it, and clears the octet from the filter of corrections. -/
theorem flushEntry_full (d : Dev) (e : CombEntry) (hfull : ∀ u : Nat, u < 8 → e.count u = 64) :
    d.flushEntry e = (({ d with mem := d.mem.storeOctet e } : Dev).bump (memCnt 10)).unfilter (64 * (8 * e.octet)) := by
  have hall : (List.range 8).all (fun u => decide (e.count u = 64)) = true :=
    List.all_eq_true.mpr fun u hu => decide_eq_true (hfull u (List.mem_range.mp hu))
  unfold Dev.flushEntry
  rw [if_pos hall]
  rfl

theorem unfilter_comb (d : Dev) (a : Nat) : (d.unfilter a).mem.comb = d.mem.comb := rfl
theorem byte_unfilter (d : Dev) (a x : Nat) : (d.unfilter a).mem.byte x = d.mem.byte x := rfl

/-- A flush of the entry that is due. -/
theorem octetFlush_due (d : Dev) (e : CombEntry) (h : d.mem.comb.find? d.octetDue = some e) :
    d.octetFlush = d.flushEntry e := by
  rw [Dev.octetFlush, h]

theorem octetFlush_idle (d : Dev) (h : ∀ e ∈ d.mem.comb, d.octetDue e = false) : d.octetFlush = d := by
  have hnone : d.mem.comb.find? d.octetDue = none := List.find?_eq_none.mpr fun e he => by simp [h e he]
  rw [Dev.octetFlush, hnone]

theorem octetFlush_goes (s : State) (hclk : s.dev.clocked = true) : s.goes .octetFlush s.dev.octetFlush := unit_on s _ hclk

/-! ### The obligation -/

theorem memoryRead_pool (s : State) (ag : Agent) (a : BitVec 40) (n : Fin 257) (hon : s.dev.powered = true)
    (hag : ag.ok = true) (hn : 1 ≤ n.val) (hopen : s.dev.poolOpen a.toNat n) (hquiet : s.dev.mem.quietAt a.toNat n) :
    exec (.memoryRead ag a n) s = .next { s with reply := .read (.ok (s.dev.mem.bytes a.toNat n)) } := by
  obtain ⟨hlo, hhi⟩ := hopen.start hn
  rw [exec_memoryRead s ag a n hon hag, busRead_memory _ _ _ _ (wakeFor_pool _ _ hlo hhi) (inWindow_pool _ hhi),
    memRead_pool _ _ _ _ hopen hquiet]

theorem memoryWrite_pool (s : State) (ag : Agent) (a : BitVec 40) (bs : List Byte) (hon : s.dev.powered = true)
    (hag : ag.ok = true) (hne : 1 ≤ bs.length) (hle : bs.length ≤ 256) (hopen : s.dev.poolOpen a.toNat bs.length)
    (hquiet : s.dev.mem.quietAt a.toNat bs.length) : ∃ d' : Dev,
    exec (.memoryWrite ag a bs) s = .next { s with dev := d', reply := .write .ok } ∧ s.dev.Stores d' a.toNat bs := by
  obtain ⟨hlo, hhi⟩ := hopen.start hne
  obtain ⟨d', hw, hst⟩ := memWrite_pool s.dev ag a.toNat bs hopen hquiet
  refine ⟨d', ?_, hst⟩
  rw [exec_memoryWrite s ag a bs hon hag hne hle, busWrite_memory _ _ _ _ (wakeFor_pool _ _ hlo hhi) (inWindow_pool _ hhi),
    hw]

theorem memoryAccessesRule : MemoryAccessesRule := by
  intro s ag a n bs hon hag hne hle hn
  refine ⟨?_, ?_, ?_⟩
  · rintro ⟨hlo, hend, hbank, hquiet⟩
    exact memoryRead_pool s ag a n hon hag hn ⟨hlo, hend, hbank⟩ hquiet
  · rintro ⟨hlo, hend, hbank, hquiet⟩
    obtain ⟨d', hgo, hst⟩ := memoryWrite_pool s ag a bs hon hag hne hle ⟨hlo, hend, hbank⟩ hquiet
    refine ⟨d', hgo, hst.stored, ?_, hst.reg⟩
    obtain ⟨m, r, rfl⟩ := hst.frame
    rfl
  · intro hlo hhi hwin hwins hwake
    have hhole : ∀ i : Nat, i < 256 → s.dev.locate ag (a.toNat + i) = (.hole, a.toNat + i) := fun i hi =>
      locate_hole _ ag _ (by omega) (by omega) (hwins _ (by omega) (by omega))
    constructor
    · rw [exec_memoryRead s ag a n hon hag, busRead_memory _ _ _ _ hwake hwin,
        memRead_hole _ ag a.toNat n (by omega) (hhole 0 (by omega))]
    · rw [exec_memoryWrite s ag a bs hon hag hne hle, busWrite_memory _ _ _ _ hwake hwin,
        memWrite_hole _ ag _ bs (by omega) fun i hi => hhole i (by omega)]

theorem bufferedWritesAreReadRule : BufferedWritesAreReadRule := by
  intro s ag a bs hon hag hlen
  refine ⟨?_, ?_, ?_⟩
  · intro ha hlo hhi hfilled hpage hwin hwake
    refine ⟨_, ?_, readDdr_writeDdr s.dev ag (a.toNat / 64) bs hlen⟩
    rw [exec_memoryWrite s ag a bs hon hag (by omega) (by omega), busWrite_memory _ _ _ _ hwake hwin,
      memWrite_one_line _ ag _ bs (by omega) (by omega),
      writeLine_ddr _ ag _ bs (locate_ddr _ ag _ hlo (by omega) hfilled hpage hwin), ha]
  · intro hidle hclk
    have hgo := octetFlush_goes s hclk
    rwa [octetFlush_idle s.dev hidle] at hgo
  · intro e hdue hbytes hclk
    have hgo := octetFlush_goes s hclk
    rw [octetFlush_due s.dev e hdue] at hgo
    rw [flushEntry_full s.dev e fun u hu => e.count_full u fun i hi => hbytes _ (by omega)] at hgo
    refine ⟨_, hgo, fun x => ?_, ?_⟩
    · rw [byte_unfilter, Dev.bump_mem, byte_storeOctet]
    · rw [unfilter_comb, Dev.bump_mem, storeOctet_comb]

/-- Settles O37: pieces of a Pool access each answer or store their own bytes, no piece of an access to a hole reaches a
memory, and an entry of the combining buffer gives and flushes the bytes written to it. -/
theorem memoryCommands : Obligations.MemoryCommands := ⟨memoryAccessesRule, bufferedWritesAreReadRule⟩

end Sys2Proof.Machine
end

section
/-!
PROOFS. Operations of the attached units by a core at a bundle boundary: the start of a Level-0 job, TEST and KILL
(R142, R143, R145, R149 to R151, R154, R161, R162).
-/
namespace Sys2Proof.Machine

/-! ### From the command to the operation -/

/-- The meaning of a core operation's command is the core's operation. -/
theorem exec_coreOp {i : Instr} {o : CoreOp} {c : Fin 192} {w : BitVec 32} (h : i.coreOp = some (o, c, w)) (s : State) :
    exec i s = s.coreOp o c w := by
  cases i <;> cases h <;> rfl

/-- The operations of CX0 to CX3 (R139). -/
def cxOps : List CoreOp := [.crcZero, .crcOnes, .test, .kill, .inv, .invh, .demap, .topkLargest, .topkSmallest]

/-- The other units name no operation of the attached units. -/
theorem otherUnits_notCx : ∀ code < 64, ∀ o ∈ cxOps, s0Op code ≠ some o ∧ s1Op code ≠ some o ∧ v0Op code ≠ some o := by
  decide

theorem opUnit_lt (w : Nat) : opUnit w < 4 := Nat.mod_lt _ (by decide)
theorem opCode_lt (w : Nat) : opCode w < 64 := Nat.mod_lt _ (by decide)
theorem opSub_lt (w : Nat) : opSub w < 16 := Nat.mod_lt _ (by decide)

/-- An operation of the attached units is a word of UNIT 3. -/
theorem opUnit_cx {w : Nat} {o : CoreOp} (hop : opOf w = some o) (ho : o ∈ cxOps) : opUnit w = 3 := by
  obtain ⟨h0, h1, h2⟩ := otherUnits_notCx _ (opCode_lt w) o ho
  have hlt := opUnit_lt w
  unfold opOf at hop
  split at hop
  next => exact absurd hop h0
  next => exact absurd hop h1
  next => exact absurd hop h2
  next hne0 hne1 hne2 =>
    have hne : opUnit w ≠ 0 ∧ opUnit w ≠ 1 ∧ opUnit w ≠ 2 := ⟨hne0, hne1, hne2⟩
    omega

theorem opOf_unit3 {w : Nat} (h : opUnit w = 3) : opOf w = v1Op (opCode w) (opSub w) := by
  simp [opOf, h]

/-- What the fields of a word of the attached units say of its operation: FN of a CRC start gives the initial value, FN of a
sort start the order, and TEST is of CX0 or CX3 (R145, R154, R161). -/
def CoreOp.cxFields (o : CoreOp) (code fn : Nat) : Bool :=
  match o with
  | .crcZero => decide (fn < 8)
  | .crcOnes => decide (8 ≤ fn)
  | .topkLargest => decide (fn = 0)
  | .topkSmallest => decide (fn ≠ 0)
  | .test => decide (code = 0x30 ∨ code = 0x33)
  | _ => true

theorem v1Op_cxFields : ∀ code < 64, ∀ fn < 16, (v1Op code fn).all (fun o => o.cxFields code fn) = true := by
  decide +kernel

theorem opOf_cxFields {w : Nat} {o : CoreOp} (hop : opOf w = some o) (ho : o ∈ cxOps) :
    o.cxFields (opCode w) (opSub w) = true := by
  have hall := v1Op_cxFields _ (opCode_lt w) _ (opSub_lt w)
  rwa [← opOf_unit3 (opUnit_cx hop ho), hop] at hall

theorem crcOnes_iff {w : Nat} {o : CoreOp} (hop : opOf w = some o) (ho : o = .crcZero ∨ o = .crcOnes) :
    decide (8 ≤ opSub w) = decide (o = .crcOnes) := by
  have hfields := opOf_cxFields hop (by rcases ho with rfl | rfl <;> decide)
  rcases ho with rfl | rfl <;> simpa [CoreOp.cxFields] using hfields

theorem topkLargest_iff {w : Nat} {o : CoreOp} (hop : opOf w = some o) (ho : o = .topkLargest ∨ o = .topkSmallest) :
    decide (opSub w = 0) = decide (o = .topkLargest) := by
  have hfields := opOf_cxFields hop (by rcases ho with rfl | rfl <;> decide)
  rcases ho with rfl | rfl <;> simpa [CoreOp.cxFields] using hfields

theorem test_unit {w : Nat} (hop : opOf w = some .test) : cxUnit w = 0 ↔ opCode w = 0x30 := by
  have hcode : opCode w = 0x30 ∨ opCode w = 0x33 := by simpa [CoreOp.cxFields] using opOf_cxFields hop (by decide)
  rcases hcode with hc | hc <;> simp [cxUnit, hc]

/-! ### The bundle cycle of an operation of the attached units -/

/-- A core in the issue of a bundle of one operation: the word is its bundle, and the pc stands past it. -/
def Core.passing (k : Core) (w : BitVec 32) : Core := { k.withOp w with pc := k.pc + 4 }

/-- A core between bundles with nothing in flight and no imprecise exception recorded. -/
structure Core.Boundary (k : Core) : Prop where
  bundle   : k.bundle = []
  inflight : k.inflight = []
  impPend  : k.impPend = none

theorem Calm.boundary {d : Dev} {c : Nat} (h : Calm d c) : (d.core c).Boundary := ⟨h.bundle, h.inflight, h.impPend⟩

theorem Core.Boundary.setCr {k : Core} (h : k.Boundary) (o : Nat) (v : BitVec 32) : (k.setCr o v).Boundary :=
  ⟨h.bundle, h.inflight, h.impPend⟩

/-- The rest of the bundle cycle after an operation has exposed its results: the cycle is counted and the bundle is gone. -/
theorem cycle_ends (d : Dev) (c : Nat) (k : Core) (w : BitVec 32) (wrs : List RegWr) (h : k.Boundary) :
    ((exposeAll c 1 wrs (d.setCore c (k.passing w))).tick c).settleCore c
      = d.setCore c (k.issued (wrs.map (fun x => (1, x)))) := by
  obtain ⟨hb, hi, himp⟩ := h
  rw [exposeAll_eq, tick_eq, settle_eq]
  · congr 1
    simp [Core.passing, Core.withOp, Core.issued, hb, hi, Core.bank, Function.comp_def]
  · exact himp
  · simp [Core.passing, Core.withOp, hi]

/-- The same for an operation that exposes none. -/
theorem cycle_ends_bare (d : Dev) (c : Nat) (k : Core) (w : BitVec 32) (h : k.Boundary) :
    ((d.setCore c (k.passing w)).tick c).settleCore c = d.setCore c (k.issued []) :=
  cycle_ends d c k w [] h

/-- No operation of the attached units must be alone in its bundle (R92, R134). -/
theorem cxOps_shareBundle : ∀ o ∈ cxOps, o ≠ .take ∧ o ≠ .reti ∧ o ≠ .rpt ∧ o ≠ .rptr ∧ o ≠ .lv := by decide

theorem opRun_cx (d : Dev) (c pc next : Nat) (k : Core) (w : Nat) (o : CoreOp) (hop : opOf w = some o) (ho : o ∈ cxOps)
    (hruns : k.runs w = true) : d.opRun c pc next k w = (d, cxRun c pc k w) := by
  have hunit := opUnit_cx hop ho
  simp only [cxOps, List.mem_cons, List.not_mem_nil, or_false] at ho
  rcases ho with rfl | rfl | rfl | rfl | rfl | rfl | rfl | rfl | rfl <;> simp [Dev.opRun, hruns, hunit, hop]

theorem opExc_cx (k : Core) (w : Nat) (o : CoreOp) (hop : opOf w = some o) (ho : o ∈ cxOps) (hexc : cxExc k w = none) :
    opExc k w = none := by
  simp only [cxOps, List.mem_cons, List.not_mem_nil, or_false] at ho
  rcases ho with rfl | rfl | rfl | rfl | rfl | rfl | rfl | rfl | rfl <;> simp [opExc, hop, hexc]

/-- A bundle of one operation of the attached units that executes and raises no exception: what it does once the pc has moved,
then the rest of the cycle. -/
theorem coreOp_cx (d : Dev) (c : Nat) (w : BitVec 32) (o : CoreOp) (h : Calm d c) (hop : opOf w.toNat = some o)
    (hend : opEnd w.toNat = true) (hf : fieldsOk w.toNat = true) (ho : o ∈ cxOps) (hruns : (d.core c).runs w.toNat = true)
    (hexc : cxExc (d.core c) w.toNat = none) :
    d.coreOp c w = ((cxRun c (d.core c).pc.toNat ((d.core c).withOp w) w.toNat
      (d.setCore c ((d.core c).passing w))).tick c).settleCore c := by
  have hrun := fun e : Dev => opRun_cx e c (d.core c).pc.toNat ((d.core c).pc.toNat + 4) ((d.core c).withOp w) w.toNat o hop
    ho hruns
  have hpc : ((d.core c).withOp w).pc = (d.core c).pc := rfl
  rw [coreOp_exec d c w o h hop hend hf (cxOps_shareBundle o ho) (opExc_cx ((d.core c).withOp w) w.toNat o hop ho hexc)]
  simp only [hpc, hrun, Dev.core_setCore_same, Dev.setCore_setCore, pc_next]
  rfl

/-- The same bundle given by a command. -/
theorem exec_cx (s : State) (c : Nat) (w : BitVec 32) (o : CoreOp) (h : Ready1 s c w o) (hr : Ready1.Runs s c w)
    (ho : o ∈ cxOps) (hexc : cxExc (s.dev.core c) w.toNat = none) :
    s.coreOp o c w = .next (s.withDev (((cxRun c (s.dev.core c).pc.toNat ((s.dev.core c).withOp w) w.toNat
      (s.dev.setCore c ((s.dev.core c).passing w))).tick c).settleCore c)) := by
  rw [coreOp_ready s c w o h, coreOp_cx _ _ _ o h.calm h.op h.last h.legal ho hr hexc]

/-! ### Counters of a core, and its Level-0 jobs -/

/-- A core whose counter of busy starts or of squashed operations has been raised (R162). -/
def Core.counted (k : Core) (o n : Nat) : Core := k.setCr o (k.cr o + BitVec.ofNat 32 n)

theorem Core.Boundary.counted {k : Core} (h : k.Boundary) (o n : Nat) : (k.counted o n).Boundary := h.setCr _ _

theorem coreCount_busy (d : Dev) (c n : Nat) :
    d.coreCount c 2 n = (d.catCount (0xA00 + 4 * c + 2) n).setCore c ((d.core c).counted 0x114 n) := rfl

theorem coreCount_squash (d : Dev) (c n : Nat) :
    d.coreCount c 3 n = (d.catCount (0xA00 + 4 * c + 3) n).setCore c ((d.core c).counted 0x118 n) := rfl

theorem catCount_setCore (d : Dev) (c i n : Nat) (k : Core) :
    (d.setCore c k).catCount i n = (d.catCount i n).setCore c k := rfl

theorem setAttached_setCore (d : Dev) (c i : Nat) (k : Core) (x : Attached) :
    (d.setCore c k).setAttached i x = (d.setAttached i x).setCore c k := rfl

theorem used_setCore (d : Dev) (c : Nat) (k : Core) : (d.setCore c k).used = d.used.setCore c k := rfl

theorem Core.passing_setCr (k : Core) (w v : BitVec 32) (o : Nat) : (k.passing w).setCr o v = (k.setCr o v).passing w := rfl

theorem Core.passing_counted (k : Core) (w : BitVec 32) (o n : Nat) :
    (k.passing w).counted o n = (k.counted o n).passing w := rfl

theorem Core.cr_setCr_other (k : Core) {o p : Nat} (v : BitVec 32) (h : p ≠ o) : (k.setCr o v).cr p = k.cr p :=
  Tab.get_put_other _ _ _ h

theorem Dev.crcBusy_eq (d : Dev) (c : Nat) :
    d.crcBusy c = decide ((d.attached (c / 8)).crc.map (fun j => j.core) = some c) := by
  unfold Dev.crcBusy
  cases (d.attached (c / 8)).crc <;> simp

theorem Dev.sortBusy_eq (d : Dev) (c : Nat) :
    d.sortBusy c = decide ((d.attached (c / 8)).sort.map (fun j => j.core) = some c) := by
  unfold Dev.sortBusy
  cases (d.attached (c / 8)).sort <;> simp

/-! ### Starts -/

/-- A region within the core's data memory raises no ACCESS (R143). -/
theorem outsideAlias_inside {a n : Nat} (h : a + n ≤ 0x40000) : outsideAlias a n = none := by
  simp [outsideAlias, h]

/-- A CRC start with operands in range raises no exception (R143, R154). -/
theorem crcExc_none (k : Core) (w : Nat) (h1 : 1 ≤ k.sN (opB w)) (h2 : k.sN (opB w) ≤ 65536)
    (hsrc : k.sN (opA w) + (k.sN (opB w) + 7) / 8 ≤ 0x40000) (hdst : k.sN (opB w + 1) + 4 ≤ 0x40000)
    (halign : k.sN (opB w + 1) % 4 = 0) : crcExc k w = none := by
  simp [crcExc, startExc, h1, h2, halign, ceilDiv, outsideAlias_inside hsrc, outsideAlias_inside hdst]

/-- A sort start with operands in range, aligned and apart raises no exception (R143, R161). -/
theorem sortExc_none (k : Core) (w n kk : Nat) (hb : k.sN (opB w) = n + 65536 * kk) (hn1 : 1 ≤ n) (hn2 : n ≤ 4096)
    (hk1 : 1 ≤ kk) (hk2 : kk ≤ 64) (hsa : k.sN (opA w) % 8 = 0) (hda : k.sN (opB w + 1) % 8 = 0)
    (hsrc : k.sN (opA w) + 8 * n ≤ 0x40000) (hdst : k.sN (opB w + 1) + 8 * kk ≤ 0x40000)
    (hapart : k.sN (opA w) + 8 * n ≤ k.sN (opB w + 1) ∨ k.sN (opB w + 1) + 8 * kk ≤ k.sN (opA w)) : sortExc k w = none := by
  have hcount : k.sN (opB w) % 8192 = n := by omega
  have hkk : fld (k.sN (opB w)) 22 16 = kk := by simp only [fld, Nat.shiftRight_eq_div_pow]; omega
  have hlow : fld (k.sN (opB w)) 15 13 = 0 := by simp only [fld, Nat.shiftRight_eq_div_pow]; omega
  have hhigh : fld (k.sN (opB w)) 31 23 = 0 := by simp only [fld, Nat.shiftRight_eq_div_pow]; omega
  have hover : ¬ (k.sN (opA w) < k.sN (opB w + 1) + 8 * kk ∧ k.sN (opB w + 1) < k.sN (opA w) + 8 * n) := by omega
  simp [sortExc, startExc, hcount, hkk, hlow, hhigh, hover, hn1, hn2, hk1, hk2, hsa, hda, outsideAlias_inside hsrc,
    outsideAlias_inside hdst]

theorem Core.Boundary.accepts {k : Core} (h : k.Boundary) (status : Nat) : (k.accepts status).Boundary :=
  (h.setCr _ _).setCr _ _

/-- Another control register than those written keeps its value, so an acceptance counts from the old count. -/
theorem Core.passing_accepts (k : Core) (w : BitVec 32) (status : Nat) (h : status ≠ 0x110) :
    ((k.passing w).setCrN status 0).setCr 0x110 (((k.passing w).setCrN status 0).cr 0x110 + 1)
      = (k.accepts status).passing w := by
  rw [Core.setCrN, Core.passing_setCr, Core.passing_setCr, Core.accepts, ← Core.cr_setCr_other k 0 h.symm]
  rfl

/-- A refused start answers all ones, and the refusal is counted (R142, R162). -/
theorem startBusy_cycle (d : Dev) (c : Nat) (w : BitVec 32) (h : Calm d c) :
    ((startBusy c ((d.core c).withOp w) w.toNat (d.setCore c ((d.core c).passing w))).tick c).settleCore c
      = (d.coreCount c 2 1).setCore c (((d.coreCount c 2 1).core c).issued [(d.core c).putP (cxPD w.toNat) true]) := by
  simp only [startBusy, coreCount_busy, catCount_setCore, Dev.core_setCore_same, Dev.setCore_setCore, Core.passing_counted]
  exact cycle_ends _ c _ w [(d.core c).wrP (cxPD w.toNat) (allBits true)] (h.boundary.counted _ _)

/-- An accepted start answers 0 and puts its job on the unit; the status register is cleared and the acceptance counted
(R142, R162). -/
theorem startOk_cycle (d : Dev) (c u : Nat) (w : BitVec 32) (x : Attached) (h : Calm d c) (hu : cxStatus u ≠ 0x110) :
    ((startOk c ((d.core c).withOp w) w.toNat u x (d.setCore c ((d.core c).passing w))).tick c).settleCore c
      = (d.setAttached (c / 8) x).setCore c
          (((d.core c).accepts (cxStatus u)).issued [(d.core c).putP (cxPD w.toNat) false]) := by
  simp only [startOk, setAttached_setCore, Dev.core_setCore_same, Dev.setCore_setCore, Core.passing_accepts _ _ _ hu]
  exact cycle_ends _ c _ w [(d.core c).wrP (cxPD w.toNat) (allBits false)] (h.boundary.accepts _)

/-- The job of a CRC start (R154). -/
def Core.crcJob (k : Core) (c w : Nat) : CrcJob :=
  { core := c, poly := opSub w % 8, ones := decide (8 ≤ opSub w), src := k.sN (opA w), nbits := k.sN (opB w),
    dst := k.sN (opB w + 1), bank := k.bank, eopc := k.pc.toNat }

/-- The job of a sort start (R161). -/
def Core.sortJob (k : Core) (c w : Nat) : SortJob :=
  { core := c, largest := decide (opSub w = 0), src := k.sN (opA w), count := k.sN (opB w) % 8192,
    k := fld (k.sN (opB w)) 22 16, dst := k.sN (opB w + 1), bank := k.bank, eopc := k.pc.toNat }

theorem crcStart_busy (d : Dev) (c pc : Nat) (k : Core) (w : Nat) (h : (d.attached (c / 8)).crc.isSome = true) :
    crcStart c pc k w d = startBusy c k w d := by
  obtain ⟨j, hj⟩ := Option.isSome_iff_exists.mp h
  simp only [crcStart, hj]

theorem crcStart_free (d : Dev) (c : Nat) (k : Core) (w : BitVec 32) (h : (d.attached (c / 8)).crc = none) :
    crcStart c k.pc.toNat (k.withOp w) w.toNat d
      = startOk c (k.withOp w) w.toNat 0 { d.attached (c / 8) with crc := some (k.crcJob c w.toNat) } d := by
  simp only [crcStart, h]
  rfl

theorem sortStart_busy (d : Dev) (c pc : Nat) (k : Core) (w : Nat) (h : (d.attached (c / 8)).sort.isSome = true) :
    sortStart c pc k w d = startBusy c k w d := by
  obtain ⟨j, hj⟩ := Option.isSome_iff_exists.mp h
  simp only [sortStart, hj]

theorem sortStart_free (d : Dev) (c : Nat) (k : Core) (w : BitVec 32) (h : (d.attached (c / 8)).sort = none) :
    sortStart c k.pc.toNat (k.withOp w) w.toNat d
      = startOk c (k.withOp w) w.toNat 3 { d.attached (c / 8) with sort := some (k.sortJob c w.toNat) } d := by
  simp only [sortStart, h]
  rfl

/-- The machine after a start that its unit refused, and after one that it accepted with the units as `x`. -/
def State.startRefused (s : State) (c : Nat) (w : BitVec 32) : State :=
  s.withDev ((s.dev.coreCount c 2 1).setCore c
    (((s.dev.coreCount c 2 1).core c).issued [(s.dev.core c).putP (cxPD w.toNat) true]))
def State.startTaken (s : State) (c u : Nat) (w : BitVec 32) (x : Attached) : State :=
  s.withDev ((s.dev.setAttached (c / 8) x).setCore c
    (((s.dev.core c).accepts (cxStatus u)).issued [(s.dev.core c).putP (cxPD w.toNat) false]))

theorem coreOp_refused (s : State) (c : Nat) (w : BitVec 32) (o : CoreOp) (h : Ready1 s c w o) (hr : Ready1.Runs s c w)
    (ho : o ∈ cxOps) (hexc : cxExc (s.dev.core c) w.toNat = none)
    (hrun : cxRun c (s.dev.core c).pc.toNat ((s.dev.core c).withOp w) w.toNat (s.dev.setCore c ((s.dev.core c).passing w))
      = startBusy c ((s.dev.core c).withOp w) w.toNat (s.dev.setCore c ((s.dev.core c).passing w))) :
    s.coreOp o c w = .next (s.startRefused c w) := by
  rw [exec_cx s c w o h hr ho hexc, hrun, startBusy_cycle _ _ _ h.calm, State.startRefused]

theorem coreOp_taken (s : State) (c u : Nat) (w : BitVec 32) (o : CoreOp) (x : Attached) (h : Ready1 s c w o)
    (hr : Ready1.Runs s c w) (ho : o ∈ cxOps) (hexc : cxExc (s.dev.core c) w.toNat = none) (hu : cxStatus u ≠ 0x110)
    (hrun : cxRun c (s.dev.core c).pc.toNat ((s.dev.core c).withOp w) w.toNat (s.dev.setCore c ((s.dev.core c).passing w))
      = startOk c ((s.dev.core c).withOp w) w.toNat u x (s.dev.setCore c ((s.dev.core c).passing w))) :
    s.coreOp o c w = .next (s.startTaken c u w x) := by
  rw [exec_cx s c w o h hr ho hexc, hrun, startOk_cycle _ _ _ _ _ h.calm hu, State.startTaken]

theorem coreOp_crcStart (s : State) (c : Nat) (w : BitVec 32) (o : CoreOp) (h : Ready1 s c w o) (hr : Ready1.Runs s c w)
    (ho : o = .crcZero ∨ o = .crcOnes) (hexc : crcExc (s.dev.core c) w.toNat = none) :
    ((s.dev.attached (c / 8)).crc.isSome = true → s.coreOp o c w = .next (s.startRefused c w))
    ∧ ((s.dev.attached (c / 8)).crc = none → s.coreOp o c w = .next (s.startTaken c 0 w
        { s.dev.attached (c / 8) with crc := some ((s.dev.core c).crcJob c w.toNat) })) := by
  have hmem : o ∈ cxOps := by rcases ho with rfl | rfl <;> decide
  have hcx : cxExc (s.dev.core c) w.toNat = none := by rcases ho with rfl | rfl <;> simp [cxExc, h.op, hexc]
  have hrun : ∀ pc k, cxRun c pc k w.toNat = crcStart c pc k w.toNat := fun pc k => by
    rcases ho with rfl | rfl <;> simp [cxRun, h.op]
  refine ⟨fun hbusy => coreOp_refused s c w o h hr hmem hcx ?_,
    fun hfree => coreOp_taken s c 0 w o _ h hr hmem hcx (by decide) ?_⟩
  · rw [hrun, crcStart_busy _ _ _ _ _ (by rwa [Dev.attached_setCore])]
  · rw [hrun, crcStart_free _ _ _ _ (by rwa [Dev.attached_setCore]), Dev.attached_setCore]

theorem coreOp_sortStart (s : State) (c : Nat) (w : BitVec 32) (o : CoreOp) (h : Ready1 s c w o) (hr : Ready1.Runs s c w)
    (ho : o = .topkLargest ∨ o = .topkSmallest) (hexc : sortExc (s.dev.core c) w.toNat = none) :
    ((s.dev.attached (c / 8)).sort.isSome = true → s.coreOp o c w = .next (s.startRefused c w))
    ∧ ((s.dev.attached (c / 8)).sort = none → s.coreOp o c w = .next (s.startTaken c 3 w
        { s.dev.attached (c / 8) with sort := some ((s.dev.core c).sortJob c w.toNat) })) := by
  have hmem : o ∈ cxOps := by rcases ho with rfl | rfl <;> decide
  have hcx : cxExc (s.dev.core c) w.toNat = none := by rcases ho with rfl | rfl <;> simp [cxExc, h.op, hexc]
  have hrun : ∀ pc k, cxRun c pc k w.toNat = sortStart c pc k w.toNat := fun pc k => by
    rcases ho with rfl | rfl <;> simp [cxRun, h.op]
  refine ⟨fun hbusy => coreOp_refused s c w o h hr hmem hcx ?_,
    fun hfree => coreOp_taken s c 3 w o _ h hr hmem hcx (by decide) ?_⟩
  · rw [hrun, sortStart_busy _ _ _ _ _ (by rwa [Dev.attached_setCore])]
  · rw [hrun, sortStart_free _ _ _ _ (by rwa [Dev.attached_setCore]), Dev.attached_setCore]

/-! ### TEST, and the starts' obligation -/

/-- TEST answers whether the unit of its code holds a job of the core (R145). -/
theorem coreOp_test (s : State) (c : Nat) (w : BitVec 32) (h : Ready1 s c w .test) (hr : Ready1.Runs s c w) :
    s.coreOp .test c w = .next (s.issues c [(s.dev.core c).putP (cxPD w.toNat)
      (if cxUnit w.toNat = 0 then s.dev.crcBusy c else s.dev.sortBusy c)]) := by
  have hexc : cxExc (s.dev.core c) w.toNat = none := by simp [cxExc, h.op]
  have hcycle := cycle_ends s.dev c (s.dev.core c) w [(s.dev.core c).wrP (cxPD w.toNat)
    (allBits (if cxUnit w.toNat = 0 then s.dev.crcBusy c else s.dev.sortBusy c))] h.calm.boundary
  rw [exec_cx s c w .test h hr (by decide) hexc]
  simp only [cxRun, h.op, Dev.crcBusy_eq, Dev.sortBusy_eq, Dev.attached_setCore] at hcycle ⊢
  exact congrArg _ (congrArg _ hcycle)

/-- Settles O17: a start whose operands raise no exception is refused or taken as the unit is busy or free, and TEST reads the
unit of its code. -/
theorem levelZeroStarts : Obligations.LevelZeroStarts := by
  intro s i o c w hi h hr k n g a b dst crcJob sortJob busy takes
  rw [exec_coreOp hi]
  refine ⟨?_, ?_, ?_⟩
  · intro ho hb1 hb2 hsrc hdst halign
    have hexc := crcExc_none k n hb1 hb2 hsrc hdst halign
    have hjob : k.crcJob c n = crcJob := by rw [Core.crcJob, crcOnes_iff h.op ho]; rfl
    rw [← hjob]
    exact coreOp_crcStart s c w o h hr ho hexc
  · intro ho count kk hb hn1 hn2 hk1 hk2 hsa hda hsrc hdst hapart
    have hexc := sortExc_none k n count kk hb hn1 hn2 hk1 hk2 hsa hda hsrc hdst hapart
    have hkk : fld (k.sN (opB n)) 22 16 = kk := by simp only [fld, Nat.shiftRight_eq_div_pow]; rfl
    have hjob : k.sortJob c n = sortJob count kk := by rw [Core.sortJob, topkLargest_iff h.op ho, hkk]; rfl
    rw [← hjob]
    exact coreOp_sortStart s c w o h hr ho hexc
  · rintro rfl
    have hcode := test_unit h.op
    rw [coreOp_test s c w h hr, Dev.crcBusy_eq, Dev.sortBusy_eq]
    simp only [hcode]
    rfl

/-! ### KILL -/

/-- The job of a core on a Level-0 unit is in progress. -/
def Dev.levelZeroBusy (d : Dev) (c u : Nat) : Bool := if u = 0 then d.crcBusy c else d.sortBusy c

/-- The attached units without the job of a Level-0 unit, and with that job marked as squashed too late (R151). -/
def Attached.without (g : Attached) (u : Nat) : Attached := if u = 0 then { g with crc := none } else { g with sort := none }
def Attached.marked (g : Attached) (u : Nat) : Attached :=
  if u = 0 then { g with crc := g.crc.map (fun j => { j with late := true }) }
  else { g with sort := g.sort.map (fun j => { j with late := true }) }

theorem squashL0_idle (d : Dev) (c u : Nat) (h : d.levelZeroBusy c u = false) : d.squashL0 c u = d := by
  rw [Dev.levelZeroBusy] at h
  simp [Dev.squashL0, h]

/-- A squash that comes in time removes the job and is noted and counted; one that does not marks the job (R150, R151). -/
theorem squashL0_busy (d : Dev) (c u : Nat) (h : d.levelZeroBusy c u = true) :
    d.squashL0 c u = ((d.used.setAttached (c / 8) ((d.attached (c / 8)).without u)).setCore c
        ((d.core c).setCr (cxStatus u) 5)).coreCount c 3 1
      ∨ d.squashL0 c u = d.used.setAttached (c / 8) ((d.attached (c / 8)).marked u) := by
  rw [Dev.levelZeroBusy] at h
  simp only [Dev.squashL0, h, Bool.not_true, Bool.false_eq_true, if_false]
  by_cases hlate : d.freeBelow 2 = 1
  · right
    rw [if_pos hlate, Attached.marked]
    split <;> rfl
  · left
    rw [if_neg hlate]
    rfl

/-- A core with nothing outstanding has nothing to squash on a Level-1 unit. -/
theorem squashL1_none (d : Dev) (c u : Nat) (k : Core) (h : k.outst = []) : (d.setCore c k).squashL1 c u = d.setCore c k := by
  simp only [Dev.squashL1, Core.cxOuts, Dev.core_setCore_same, Dev.setCore_setCore, h, List.filter_nil, List.length_nil,
    Dev.squashCount, if_true]
  congr 1
  cases k
  simp_all

/-- A KILL that executes squashes in its bundle cycle. -/
theorem coreOp_kill (s : State) (c : Nat) (w : BitVec 32) (h : Ready1 s c w .kill) (hr : Ready1.Runs s c w) :
    s.coreOp .kill c w = .next (s.withDev
      ((((s.dev.setCore c ((s.dev.core c).passing w)).killUnit c (cxUnit w.toNat)).tick c).settleCore c)) := by
  have hexc : cxExc (s.dev.core c) w.toNat = none := by simp [cxExc, h.op]
  rw [exec_cx s c w .kill h hr (by decide) hexc]
  simp only [cxRun, h.op]

/-- KILL on a unit of Level 1, where the core has nothing outstanding. -/
theorem coreOp_kill_levelOne (s : State) (c : Nat) (w : BitVec 32) (h : Ready1 s c w .kill) (hr : Ready1.Runs s c w)
    (hu : ¬ (cxUnit w.toNat = 0 ∨ cxUnit w.toNat = 3)) : s.coreOp .kill c w = .next (s.issues c []) := by
  rw [coreOp_kill s c w h hr, Dev.killUnit, if_neg hu, squashL1_none _ c _ ((s.dev.core c).passing w) h.calm.outst,
    cycle_ends_bare _ _ _ _ h.calm.boundary]
  rfl

theorem levelZeroBusy_setCore (d : Dev) (c j u : Nat) (k : Core) :
    (d.setCore j k).levelZeroBusy c u = d.levelZeroBusy c u := rfl

/-- KILL on a Level-0 unit without a job of the core. -/
theorem coreOp_kill_idle (s : State) (c : Nat) (w : BitVec 32) (h : Ready1 s c w .kill) (hr : Ready1.Runs s c w)
    (hu : cxUnit w.toNat = 0 ∨ cxUnit w.toNat = 3) (hidle : s.dev.levelZeroBusy c (cxUnit w.toNat) = false) :
    s.coreOp .kill c w = .next (s.issues c []) := by
  rw [coreOp_kill s c w h hr, Dev.killUnit, if_pos hu, squashL0_idle _ _ _ (by rwa [levelZeroBusy_setCore]),
    cycle_ends_bare _ _ _ _ h.calm.boundary]
  rfl

/-- The machine after a bundle that left the core's registers as in `d`. -/
def State.passed (s : State) (c : Nat) (d : Dev) : State := s.withDev (d.setCore c ((d.core c).issued []))

/-- KILL on a Level-0 unit with a job of the core: squashed in time and counted, or marked. -/
theorem coreOp_kill_busy (s : State) (c : Nat) (w : BitVec 32) (h : Ready1 s c w .kill) (hr : Ready1.Runs s c w)
    (hu : cxUnit w.toNat = 0 ∨ cxUnit w.toNat = 3) (hbusy : s.dev.levelZeroBusy c (cxUnit w.toNat) = true) :
    s.coreOp .kill c w = .next (s.passed c (((s.dev.used.setAttached (c / 8)
        ((s.dev.attached (c / 8)).without (cxUnit w.toNat))).setCore c
          ((s.dev.core c).setCr (cxStatus (cxUnit w.toNat)) 5)).coreCount c 3 1))
      ∨ s.coreOp .kill c w = .next (s.passed c (s.dev.used.setAttached (c / 8)
        ((s.dev.attached (c / 8)).marked (cxUnit w.toNat)))) := by
  rw [coreOp_kill s c w h hr, Dev.killUnit, if_pos hu]
  rcases squashL0_busy (s.dev.setCore c ((s.dev.core c).passing w)) c (cxUnit w.toNat)
    (by rwa [levelZeroBusy_setCore]) with hsq | hsq
  · left
    simp only [hsq, State.passed, coreCount_squash, catCount_setCore, setAttached_setCore, used_setCore, Dev.core_setCore_same,
      Dev.setCore_setCore, Dev.attached_setCore, Core.passing_setCr, Core.passing_counted]
    rw [cycle_ends_bare _ _ _ _ ((h.calm.boundary.setCr _ _).counted _ _)]
  · right
    simp only [hsq, State.passed, setAttached_setCore, used_setCore, Dev.attached_setCore]
    rw [cycle_ends_bare _ _ _ _ h.calm.boundary]
    rfl

theorem levelZeroBusy_crc (d : Dev) (c : Nat) :
    d.levelZeroBusy c 0 = decide ((d.attached (c / 8)).crc.map (fun j => j.core) = some c) := d.crcBusy_eq c

theorem levelZeroBusy_sort (d : Dev) (c : Nat) :
    d.levelZeroBusy c 3 = decide ((d.attached (c / 8)).sort.map (fun j => j.core) = some c) := d.sortBusy_eq c

/-- Settles O18: the code of a KILL gives its unit, and whether that unit holds a job of the core decides what it does. -/
theorem killSquashesOwnWork : Obligations.KillSquashesOwnWork := by
  intro s c w h hr code g after ends
  have hexec : exec (.kill c w) s = s.coreOp .kill c w := exec_coreOp rfl s
  have hunit : cxUnit w.toNat = code % 4 := rfl
  refine ⟨?_, ?_, ?_, ?_, ?_⟩
  · intro hcode
    rw [hexec]
    exact coreOp_kill_levelOne s c w h hr (by omega)
  · intro hcode hother
    have hu : cxUnit w.toNat = 0 := by omega
    have hidle : s.dev.levelZeroBusy c 0 = false := by
      rw [levelZeroBusy_crc]
      simpa using hother
    rw [hexec]
    exact coreOp_kill_idle s c w h hr (.inl hu) (by rwa [hu])
  · intro hcode hother
    have hu : cxUnit w.toNat = 3 := by omega
    have hidle : s.dev.levelZeroBusy c 3 = false := by
      rw [levelZeroBusy_sort]
      simpa using hother
    rw [hexec]
    exact coreOp_kill_idle s c w h hr (.inr hu) (by rwa [hu])
  · intro j hcode hj hown
    have hu : cxUnit w.toNat = 0 := by omega
    have hbusy : s.dev.levelZeroBusy c 0 = true := by
      rw [levelZeroBusy_crc]
      exact decide_eq_true (by rw [hj, ← hown]; rfl)
    have hmark : g.marked 0 = { g with crc := some { j with late := true } } := by
      simp [Attached.marked, hj]
    have hends := coreOp_kill_busy s c w h hr (.inl hu) (by rwa [hu])
    rw [hu, hmark, ← hexec] at hends
    exact hends
  · intro j hcode hj hown
    have hu : cxUnit w.toNat = 3 := by omega
    have hbusy : s.dev.levelZeroBusy c 3 = true := by
      rw [levelZeroBusy_sort]
      exact decide_eq_true (by rw [hj, ← hown]; rfl)
    have hmark : g.marked 3 = { g with sort := some { j with late := true } } := by
      simp [Attached.marked, hj]
    have hends := coreOp_kill_busy s c w h hr (.inr hu) (by rwa [hu])
    rw [hu, hmark, ← hexec] at hends
    exact hends

end Sys2Proof.Machine
end

section
/-!
PROOFS. Results of the attached units: accesses of a core's data memory over several lines, the result of a Level-1 operation,
and the end of a Level-0 job (R16, R141, R144, R146, R154, R161).
-/
namespace Sys2Proof.Machine

/-! ### Reads and writes of a core's data memory that holds no damage -/

/-- The low addresses of a core whose cluster is not retired reach its own data memory (R16). -/
theorem locate_data (d : Dev) (c a : Nat) (ha : a < 0x40000) (hc : bit (d.regN (memBase + 0x54)) (c / 8) = false) :
    d.locate (.core c) a = (.ldm, lmBase c + a) := by
  have hlocal : a < 0x50000 := by omega
  unfold Dev.locate
  rw [if_pos hlocal]
  dsimp only
  rw [hc, if_neg Bool.false_ne_true, if_pos ha]

/-- Pieces that each answer the bytes stored from `p` on and change nothing answer all of them. -/
theorem readPieces_mapped (d : Dev) (ag : Agent) (a p n k : Nat) (ps : List (Nat × Nat)) (ht : Tiles a n k ps)
    (hline : ∀ j m : Nat, j + m ≤ n → 0 < m → (a + j) % 64 + m ≤ 64 →
      d.readLine ag (a + j) m = (d, .ok (d.mem.bytes (p + j) m))) :
    ps.foldl (readPiece ag a) (d, .ok (d.mem.bytes p k)) = (d, .ok (d.mem.bytes p n)) := by
  induction ps generalizing k with
  | nil =>
    obtain rfl : k = n := ht
    rfl
  | cons q ps ih =>
    obtain ⟨j, m⟩ := q
    obtain ⟨rfl, hpos, hfit, hle, hrest⟩ := ht
    rw [List.foldl_cons, readPiece_ok d d ag a _ _ _ _ (hline _ m hle hpos hfit), bytes_add]
    exact ih _ hrest

/-- A core's read of its undamaged data memory answers the stored bytes and changes nothing (R16, R342). -/
theorem memRead_data (d : Dev) (c a n : Nat) (hin : a + n ≤ 0x40000) (hc : bit (d.regN (memBase + 0x54)) (c / 8) = false)
    (hquiet : d.mem.quietAt (lmBase c + a) n) : d.memRead (.core c) a n = (d, .ok (d.mem.bytes (lmBase c + a) n)) := by
  rw [memRead_pieces]
  refine readPieces_mapped d (.core c) a (lmBase c + a) n 0 _ (tiles_linePieces a n) fun j m hle hpos hfit => ?_
  have hbase := lmBase_mod c
  have hloc := locate_data d c (a + j) (by omega) hc
  have hline := hquiet (lmBase c + a + j) (by omega) (by omega)
  rw [← Nat.add_assoc] at hloc
  rw [← memRead_one_line d (.core c) (a + j) m (by omega) hfit]
  exact memRead_quiet d (.core c) (a + j) m _ .ldm (by omega) hfit hloc (by omega) rfl hline

/-- A write within an undamaged line of data memory stores its bytes. -/
theorem writeLine_data (d : Dev) (ag : Agent) (a p : Nat) (bs : List Byte) (hloc : d.locate ag a = (.ldm, p))
    (hfit : p % 64 + bs.length ≤ 64) (hq : d.mem.lineQuiet (p / 64) = true) :
    ∃ d' : Dev, d.writeLine ag a bs = (d', .ok) ∧ d.Stores d' p bs := by
  obtain ⟨d', hw, hst⟩ := writeSram_quiet d ag .ldm (p / 64) (p % 64) bs hfit hq
  rw [Nat.div_add_mod] at hst
  refine ⟨d', ?_, hst⟩
  simp [Dev.writeLine, hloc, hw]

/-- A store keeps the retirement register of the clusters. -/
theorem Dev.Stores.clusters {d d' : Dev} {a : Nat} {bs : List Byte} (h : d.Stores d' a bs) :
    d'.regN (memBase + 0x54) = d.regN (memBase + 0x54) :=
  congrArg BitVec.toNat (h.reg _ (by decide) (by decide))

/-- Pieces of a core's write to its undamaged data memory store their bytes one after the other. -/
theorem writePieces_data (d d1 : Dev) (c a k : Nat) (bs : List Byte) (ps : List (Nat × Nat)) (hin : a + bs.length ≤ 0x40000)
    (hc : bit (d.regN (memBase + 0x54)) (c / 8) = false) (hquiet : d.mem.quietAt (lmBase c + a) bs.length)
    (hk : k ≤ bs.length) (ht : Tiles a bs.length k ps) (hst : d.Stores d1 (lmBase c + a) (bs.take k)) :
    ∃ d' : Dev, ps.foldl (writePiece (.core c) a bs) (d1, .ok) = (d', .ok) ∧ d.Stores d' (lmBase c + a) bs := by
  induction ps generalizing d1 k with
  | nil =>
    obtain rfl : k = bs.length := ht
    rw [List.take_length] at hst
    exact ⟨d1, rfl, hst⟩
  | cons p ps ih =>
    obtain ⟨j, n⟩ := p
    obtain ⟨rfl, hpos, hfit, hle, hrest⟩ := ht
    dsimp only at hpos hfit hle hrest hst hk
    have hbase := lmBase_mod c
    have hlen : ((bs.drop j).take n).length = n := by simp; omega
    have hloc := locate_data d1 c (a + j) (by omega) (by rw [hst.clusters]; exact hc)
    have hq := hst.quiet _ (hquiet (lmBase c + a + j) (by omega) (by omega))
    rw [← Nat.add_assoc] at hloc
    obtain ⟨d2, hw, hst2⟩ := writeLine_data d1 (.core c) (a + j) _ ((bs.drop j).take n) hloc (by omega) hq
    have hall : d.Stores d2 (lmBase c + a) (bs.take (j + n)) := by
      rw [List.take_add]
      refine hst.append ?_
      rwa [List.length_take_of_le hk]
    rw [List.foldl_cons, writePiece_eq d1 d2 (.core c) a j n bs .ok .ok hw]
    exact ih d2 _ hle hrest hall

/-- A core's write to its undamaged data memory is answered OK and stores its bytes (R16, R349). -/
theorem memWrite_data (d : Dev) (c a : Nat) (bs : List Byte) (hin : a + bs.length ≤ 0x40000)
    (hc : bit (d.regN (memBase + 0x54)) (c / 8) = false) (hquiet : d.mem.quietAt (lmBase c + a) bs.length) :
    ∃ d' : Dev, d.memWrite (.core c) a bs = (d', .ok) ∧ d.Stores d' (lmBase c + a) bs := by
  rw [memWrite_pieces]
  exact writePieces_data d d c a 0 bs _ hin hc hquiet (Nat.zero_le _) (tiles_linePieces a _) (Dev.Stores.nil d _)

/-! ### Results that arrive at a core between bundles -/

/-- A core that has been given no operation has no bundle to try again. -/
theorem retryIssue_noBundle (d : Dev) (c : Nat) (h : (d.core c).bundle = []) : d.retryIssue c = d := by
  have hnone : (d.core c).complete = false := by simp [Core.complete, Core.words, h]
  simp [Dev.retryIssue, hnone]

/-- Writes of registers one after the other are writes of the core. -/
theorem foldl_writeReg (d : Dev) (c : Nat) (k : Core) (wrs : List RegWr) :
    wrs.foldl (fun (d : Dev) wr => d.setCore c ((d.core c).writeReg wr)) (d.setCore c k)
      = d.setCore c (wrs.foldl Core.writeReg k) := by
  induction wrs generalizing k with
  | nil => rfl
  | cons wr wrs ih => rw [List.foldl_cons, Dev.core_setCore_same, Dev.setCore_setCore, ih, List.foldl_cons]

@[simp] theorem Core.writeReg_bundle (k : Core) (wr : RegWr) : (k.writeReg wr).bundle = k.bundle := by
  cases wr <;> rfl

theorem foldl_writeReg_bundle (k : Core) (wrs : List RegWr) : (wrs.foldl Core.writeReg k).bundle = k.bundle := by
  induction wrs generalizing k with
  | nil => rfl
  | cons wr wrs ih => rw [List.foldl_cons, ih, Core.writeReg_bundle]

/-- The oldest result of a Level-1 unit writes what it owes and leaves the scoreboard (R141). -/
theorem deliverL1_oldest (d : Dev) (c u : Nat) (o : Outst) (rest : List Outst) (hb : (d.core c).bundle = [])
    (hi : (d.core c).inflight = []) (ho : (d.core c).outst = o :: rest) (hcx : o.cx = true) (hu : o.unit = u) :
    d.deliverL1 c u false = d.setCore c (o.wrs.foldl Core.writeReg { d.core c with outst := rest }) := by
  have hfirst : takeFirst (fun o : Outst => o.cx && o.unit = u) (d.core c).outst = some (o, rest) := by
    simp [takeFirst, ho, hcx, hu]
  have hland := land_empty d c { d.core c with outst := rest } hi
  have hres : d.levelOneResult c u false = d.setCore c (o.wrs.foldl Core.writeReg { d.core c with outst := rest }) := by
    simp only [Dev.levelOneResult, hfirst, Bool.false_eq_true, if_false, hland, foldl_writeReg]
  rw [Dev.deliverL1, hres, retryIssue_noBundle]
  rw [Dev.core_setCore_same, foldl_writeReg_bundle]
  exact hb

/-! ### The end of a Level-0 job -/

/-- What a Level-0 job leaves when it has ended: the units as `x`, its result stored, and its core's status. -/
structure Dev.JobEnded (d d' : Dev) (g c u : Nat) (late : Bool) (x : Attached) (p : Nat) (bs : List Byte) : Prop where
  stored : d.mem.StoredAt d'.mem p bs
  units : d'.attached g = x
  core : d'.core c = (d.core c).setCr (cxStatus u) (if late then 9 else 1)
  frame : d' = { d with cores := d'.cores, cx := d'.cx, mem := d'.mem, regs := d'.regs }

theorem jobEnded_of_stores {d d1 : Dev} {g c u p : Nat} {late : Bool} {x : Attached} {bs : List Byte}
    (h : (d.setAttached g x).Stores d1 p bs) :
    d.JobEnded (d1.setCore c ((d1.core c).setCr (cxStatus u) (if late then 9 else 1))) g c u late x p bs := by
  obtain ⟨m, r, rfl⟩ := h.frame
  exact ⟨h.stored, Dev.attached_setAttached_same d g x, Dev.core_setCore_same _ _ _, rfl⟩

/-- No bundle waited for the job, so nothing is tried again after it. -/
theorem Dev.JobEnded.retried {d d' : Dev} {g c u p : Nat} {late : Bool} {x : Attached} {bs : List Byte}
    (h : d.JobEnded d' g c u late x p bs) (hb : (d.core c).bundle = []) :
    d.JobEnded (d'.retryIssue c) g c u late x p bs := by
  rwa [retryIssue_noBundle _ _ (by rw [h.core]; exact hb)]

/-- A job whose bytes hold no damage writes its result, and its core's status shows DONE (R144, R146). -/
theorem jobEnd_done (d : Dev) (g c u : Nat) (late bank : Bool) (eopc src n dst m : Nat) (f : List Byte → List Byte)
    (x : Attached) (hc : bit (d.regN (memBase + 0x54)) (c / 8) = false) (hsrc : src + n ≤ 0x40000) (hdst : dst + m ≤ 0x40000)
    (hlen : (f (d.mem.bytes (lmBase c + src) n)).length = m) (hqs : d.mem.quietAt (lmBase c + src) n)
    (hqd : d.mem.quietAt (lmBase c + dst) m) :
    d.JobEnded ((d.setAttached g x).jobEnd c u false late false bank eopc src n dst f) g c u late x (lmBase c + dst)
      (f (d.mem.bytes (lmBase c + src) n)) := by
  subst hlen
  have hread := memRead_data (d.setAttached g x) c src n hsrc hc hqs
  obtain ⟨d1, hw, hst⟩ := memWrite_data (d.setAttached g x) c dst (f (d.mem.bytes (lmBase c + src) n)) hdst hc hqd
  have hstatus : BitVec.ofNat 32 (1 + 8 * b2n late) = if late then 9 else 1 := by cases late <;> rfl
  have hend : (d.setAttached g x).jobEnd c u false late false bank eopc src n dst f
      = d1.setCore c ((d1.core c).setCr (cxStatus u) (if late then 9 else 1)) := by
    simp only [Dev.jobEnd, Bool.false_eq_true, if_false, hread, Dev.setAttached_mem, hw, Dev.jobStatus, Core.setCrN, hstatus]
  rw [hend]
  exact jobEnded_of_stores hst

/-- The end of a CRC job (R146, R154). -/
theorem endL0_crc (d : Dev) (g : Nat) (j : CrcJob) (hj : (d.attached g).crc = some j) (hgone : j.gone = false)
    (hb : (d.core j.core).bundle = []) (hc : bit (d.regN (memBase + 0x54)) (j.core / 8) = false)
    (hsrc : j.src + (j.nbits + 7) / 8 ≤ 0x40000) (hdst : j.dst + 4 ≤ 0x40000)
    (hqs : d.mem.quietAt (lmBase j.core + j.src) ((j.nbits + 7) / 8)) (hqd : d.mem.quietAt (lmBase j.core + j.dst) 4) :
    d.JobEnded (d.endL0 g 0 false) g j.core 0 j.late { d.attached g with crc := none } (lmBase j.core + j.dst)
      (crcResult j (d.mem.bytes (lmBase j.core + j.src) ((j.nbits + 7) / 8))) := by
  have hend : d.endL0 g 0 false = ((d.setAttached g { d.attached g with crc := none }).jobEnd j.core 0 false j.late false
      j.bank j.eopc j.src ((j.nbits + 7) / 8) j.dst (crcResult j)).retryIssue j.core := by
    simp [Dev.endL0, Dev.levelZeroEnd, hj, hgone, ceilDiv]
  rw [hend]
  exact (jobEnd_done d g j.core 0 j.late j.bank j.eopc j.src _ j.dst 4 _ _ hc hsrc hdst (leBytes_length 4 _) hqs hqd).retried hb

theorem length_flatMap_const {α β : Type} (n : Nat) (f : α → List β) (hf : ∀ x, (f x).length = n) (xs : List α) :
    (xs.flatMap f).length = n * xs.length := by
  induction xs with
  | nil => rfl
  | cons x xs ih => rw [List.flatMap_cons, List.length_append, hf, ih, List.length_cons, Nat.mul_succ, Nat.add_comm]

/-- Each of the `k` entries takes two words of the result (R161). -/
theorem sortResult_length (j : SortJob) (bs : List Byte) : (sortResult j bs).length = 8 * j.k := by
  unfold sortResult
  dsimp only
  rw [length_flatMap_const 8, List.length_range]
  intro i
  rw [List.length_append, leBytes_length, leBytes_length]

/-- The end of a sort job (R146, R161). -/
theorem endL0_sort (d : Dev) (g : Nat) (j : SortJob) (hj : (d.attached g).sort = some j) (hgone : j.gone = false)
    (hb : (d.core j.core).bundle = []) (hc : bit (d.regN (memBase + 0x54)) (j.core / 8) = false)
    (hsrc : j.src + 8 * j.count ≤ 0x40000) (hdst : j.dst + 8 * j.k ≤ 0x40000)
    (hqs : d.mem.quietAt (lmBase j.core + j.src) (8 * j.count)) (hqd : d.mem.quietAt (lmBase j.core + j.dst) (8 * j.k)) :
    d.JobEnded (d.endL0 g 3 false) g j.core 3 j.late { d.attached g with sort := none } (lmBase j.core + j.dst)
      (sortResult j (d.mem.bytes (lmBase j.core + j.src) (8 * j.count))) := by
  have hend : d.endL0 g 3 false = ((d.setAttached g { d.attached g with sort := none }).jobEnd j.core 3 false j.late false
      j.bank j.eopc j.src (8 * j.count) j.dst (sortResult j)).retryIssue j.core := by
    simp [Dev.endL0, Dev.levelZeroEnd, hj, hgone]
  rw [hend]
  exact (jobEnd_done d g j.core 3 j.late j.bank j.eopc j.src _ j.dst _ _ _ hc hsrc hdst (sortResult_length j _) hqs
    hqd).retried hb

/-- Settles O20: the oldest Level-1 result is delivered, and a Level-0 job reads and stores undamaged data memory. -/
theorem attachedResultsArrive : Obligations.AttachedResultsArrive := by
  refine ⟨?_, ?_, ?_⟩
  · intro s c demapper o rest k hclk hb hi ho hcx hu
    have hexec : exec (.level1Result c demapper false) s
        = s.unit (fun d => d.deliverL1 c (if demapper then 2 else 1) false) := rfl
    rw [hexec, unit_on _ _ hclk, deliverL1_oldest s.dev c _ o rest hb hi ho hcx hu]
    rfl
  · intro s g j k n hclk hj hgone _ _ hc hb _ hsrc hdst _ hqs hqd
    have hexec : exec (.level0JobEnd g false false) s = s.unit (fun d => d.endL0 g 0 false) := rfl
    have hdone := endL0_crc s.dev g j hj hgone hb hc hsrc hdst hqs hqd
    rw [hexec, unit_on _ _ hclk]
    exact ⟨_, rfl, hdone.stored, by rw [hdone.units], by rw [hdone.units], hdone.core, hdone.frame⟩
  · intro s g j k hclk hj hgone _ _ hc hb _ _ _ _ hsrc hdst hqs hqd
    have hexec : exec (.level0JobEnd g true false) s = s.unit (fun d => d.endL0 g 3 false) := rfl
    have hdone := endL0_sort s.dev g j hj hgone hb hc hsrc hdst hqs hqd
    rw [hexec, unit_on _ _ hclk]
    exact ⟨_, rfl, hdone.stored, by rw [hdone.units], by rw [hdone.units], hdone.core, hdone.frame⟩

end Sys2Proof.Machine
end

section
/-!
PROOFS. One step of an encoder, a decoder and the codec: a job of another code, a failed check, a block that comes late, and a
block whose accesses succeed (R208, R222 to R224, R227, R234).
-/
namespace Sys2Proof.Machine

/-! ### From the command to the unit's step -/

/-- With the clocks running a unit's command goes where its step leads. -/
theorem goes_of_exec_unit {s : State} {i : Instr} {f : Dev → Dev} (hexec : exec i s = s.unit f)
    (hclk : s.dev.clocked = true) : s.goes i (f s.dev) := by
  unfold State.goes
  rw [hexec, unit_on s f hclk]

theorem exec_encode (s : State) (u : Fin 4) (turbo fault : Bool) :
    exec (if turbo then .turboEncode u fault else .ldpcEncode u fault) s
      = s.unit (fun d => d.encodeStep u (if turbo then 1 else 0) fault) := by
  cases turbo <;> rfl

theorem exec_decode (s : State) (u : Fin 12) (turbo fault : Bool) :
    exec (if turbo then .turboDecode u fault else .ldpcDecode u fault) s
      = s.unit (fun d => d.decodeStep u (if turbo then 1 else 0) fault) := by
  cases turbo <;> rfl

theorem exec_codec {i : Instr} {fn : Nat} {fault : Bool} (h : (i, fn) ∈ codecOpRows fault) (s : State) :
    exec i s = s.unit (fun d => d.codecStep fn fault) := by
  simp only [codecOpRows, List.mem_cons, Prod.mk.injEq, List.not_mem_nil, or_false] at h
  obtain ⟨rfl, rfl⟩ | ⟨rfl, rfl⟩ | ⟨rfl, rfl⟩ | ⟨rfl, rfl⟩ | ⟨rfl, rfl⟩ | ⟨rfl, rfl⟩ | ⟨rfl, rfl⟩ | ⟨rfl, rfl⟩ := h
  all_goals rfl

/-! ### The running job -/

@[simp] theorem Dev.setRun_mem (d : Dev) (cls u : Nat) (j : EJob) : (d.setRun cls u j).mem = d.mem := rfl

@[simp] theorem Dev.eng_setRun_same (d : Dev) (cls u : Nat) (j : EJob) :
    (d.setRun cls u j).eng cls u = { d.eng cls u with run := some j } := Dev.eng_setEng_same d cls u _

/-- A job that carries no error status has been stepped to where its own step count stands. -/
theorem steppedTo_setRun (d : Dev) (cls u : Nat) (j : EJob)
    (hok : ∀ (st : Nat) (a : Option Nat), j.status = some (st, a) → st ≤ 1) :
    (d.setRun cls u j).SteppedTo cls u j.step j.status.isSome :=
  ⟨j, by rw [Dev.eng_setRun_same], rfl, rfl, hok⟩

/-- A job that ends, flagged or not, exactly after the last of its `m` blocks. -/
theorem steppedTo_block (d : Dev) (cls u m : Nat) (j : EJob) (flagged : Bool)
    (hj : j.status = if j.step = m then some (b2n flagged, none) else none) :
    (d.setRun cls u j).SteppedTo cls u j.step (decide (j.step = m)) := by
  have hlast : j.status.isSome = decide (j.step = m) := by
    rw [hj]
    split <;> simp [*]
  rw [← hlast]
  refine steppedTo_setRun d cls u j fun st a hst => ?_
  rw [hj] at hst
  split at hst
  · obtain ⟨rfl, -⟩ := Prod.mk.inj (Option.some.inj hst)
    cases flagged <;> decide
  · cases hst

/-! ### Encoders (R223) -/

section
variable {d : Dev} {u code : Nat} {fault : Bool} {j : EJob} (hrun : (d.eng 2 u).run = some j)
include hrun

theorem encodeStep_otherCode (hcode : (parseFec j.bytes).code ≠ code) : d.encodeStep u code fault = d := by
  simp [Dev.encodeStep, hrun, hcode]

theorem encodeStep_fault (hst : j.status = none) (hcode : (parseFec j.bytes).code = code) :
    d.encodeStep u code true = d.setRun 2 u { j with status := some (0x15, none) } := by
  simp [Dev.encodeStep, hrun, hst, hcode]

/-- The next block is read, coded, scrambled if the descriptor says so, and written at its bit position. -/
theorem encodeStep_writes {d1 d2 d3 : Dev} {f : FDesc} {b0 : Nat} {bs : List Byte} {y : List Bool} (hst : j.status = none)
    (hf : parseFec j.bytes = f) (hcode : f.code = code) (hn : f.kin j.step ≠ 0)
    (hb0 : f.ibit + ((List.range j.step).map f.kin).sum = b0)
    (hread : d.busRead (.encoder u) (f.src + b0 / 8) (ceilDiv (b0 % 8 + f.kin j.step) 8) = (d1, .ok bs))
    (hcoded : d1.encodeBits f j.step (((bitsOf bs).drop (b0 % 8)).take (f.kin j.step)) = (d2, y))
    (hw : d2.writeBits (.encoder u) f.out (f.obit + f.eBefore j.step)
      (if f.scr then xorBits y (goldSeq f.cinit (f.soff + f.eBefore j.step) (f.e j.step)) else y) = (d3, none)) :
    (d.encodeStep u code false).mem = d3.mem
      ∧ (d.encodeStep u code false).SteppedTo 2 u (j.step + 1) (decide (j.step + 1 = f.ncb)) := by
  have hstep : d.encodeStep u code false = (d3.bump (engCnt 2 u 3)).setRun 2 u { j with
      step := j.step + 1, pos := (j.step + 1) % 128, status := if j.step + 1 = f.ncb then some (0, none) else none } := by
    simp only [Dev.encodeStep, hrun, hst, hf, hcode, hb0, hn, hread, hcoded, hw, Option.isSome_none, Bool.false_eq_true,
      ne_eq, not_true_eq_false, decide_false, Bool.or_self, if_false]
  rw [hstep]
  exact ⟨rfl, steppedTo_block _ 2 u f.ncb _ false rfl⟩

end

/-! ### Decoders (R208 to R222) -/

/-- CODE is 0 for LDPC alone (R204). -/
theorem code_eq_zero_iff {f : FDesc} {turbo : Bool} (h : f.code = if turbo then 1 else 0) : f.code = 0 ↔ turbo = false := by
  rw [h]
  cases turbo <;> decide

/-- The LLRs of block `r` as they enter its buffer: descrambled, and for LDPC deinterleaved (R206, R208). -/
def FDesc.llrs (f : FDesc) (r : Nat) (bs : List Byte) : List Int :=
  let l := bs.map llrOf
  let l := if f.scr then descramble (goldSeq f.cinit (f.soff + f.eBefore r) (f.e r)) l else l
  if f.code = 0 then bitDeinterleave (qmOrder f.qm) 0 l else l

/-- The buffer of block `r` with nothing stored before (R209, R211). -/
def FDesc.buffer (f : FDesc) (r : Nat) (bs : List Byte) : Array Int :=
  combine f.ncbuf {} (accumulate f.ncbuf (f.positions r) (f.llrs r bs))

/-- The buffer positions that block `r` receives (R208). -/
def FDesc.received (f : FDesc) (r : Nat) : List Nat := (List.range f.ncbuf).filter (fun k => (f.positions r).contains k)

/-- The decoder that the descriptor's CODE names. -/
def Dev.decodeBits (d : Dev) (f : FDesc) (r : Nat) (acc : Array Int) (received : List Nat) (cap : Nat) : Dev × CbOut :=
  if f.code = 0 then d.ldpcDecode f acc received cap else d.turboDecode f r acc received cap

/-- Counting a decoded block leaves memory alone and moves the job on by one block (R219, R240). -/
theorem cbDone_steps (d : Dev) (u : Nat) (f : FDesc) (j : EJob) (o : CbOut) (erased : Bool) :
    (d.cbDone u f j o erased).mem = d.mem
      ∧ (d.cbDone u f j o erased).SteppedTo 1 u (j.step + 1) (decide (j.step + 1 = f.ncb)) := by
  constructor
  · simp only [Dev.cbDone, Dev.setRun_mem, apply_ite Dev.mem, Dev.bump_mem, Dev.bumpBy_mem, ite_self]
  · unfold Dev.cbDone
    exact steppedTo_block _ 1 u f.ncb _ _ rfl

/-- Without storing and results a block's output is written and the block counted. -/
theorem cbWrite_plain {d d1 : Dev} {u r : Nat} {f : FDesc} {j : EJob} {o : CbOut} (acc : Array Int) (s : List Nat)
    (erased : Bool) (hstore : f.store = 0) (hresult : f.result = 0)
    (hw : d.writeMany (.decoder u) [(f.out + r * f.ostride, bitsBytes o.bits)] = (d1, none)) :
    d.cbWrite u f j r o acc s erased = d1.cbDone u f j o erased := by
  simp [Dev.cbWrite, hw, hstore, hresult]

/-- Without combining, storing and results a block is read, decoded, written and counted. -/
theorem codeBlock_plain {d d1 d2 d3 : Dev} {u r : Nat} {f : FDesc} {j : EJob} {bs : List Byte} {o : CbOut}
    (hcomb : f.comb = false) (hstore : f.store = 0) (hresult : f.result = 0)
    (hread : d.busRead (.decoder u) (f.src + f.eBefore r) (f.e r) = (d1, .ok bs))
    (hdec : (d1.bumpBy (engCnt 1 u 8) 0).decodeBits f r (f.buffer r bs) (f.received r) j.cap = (d2, o))
    (hw : d2.writeMany (.decoder u) [(f.out + r * f.ostride, bitsBytes o.bits)] = (d3, none)) :
    d.codeBlock u f j r = d3.cbDone u f j o false := by
  simp only [Dev.decodeBits, FDesc.buffer, FDesc.llrs, FDesc.received] at hdec
  simp only [Dev.codeBlock, hread, hcomb, hstore, hdec, Bool.false_eq_true, if_false, Nat.zero_ne_one]
  exact cbWrite_plain _ _ false hstore hresult hw

section
variable {d : Dev} {u code : Nat} {fault : Bool} {j : EJob} (hrun : (d.eng 1 u).run = some j)
include hrun

theorem decodeStep_otherCode (hcode : (parseFec j.bytes).code ≠ code) : d.decodeStep u code fault = d := by
  simp [Dev.decodeStep, hrun, hcode]

theorem decodeStep_late (hst : j.status = none) (hcode : (parseFec j.bytes).code = code)
    (hlate : (parseFec j.bytes).late = true ∧ (parseFec j.bytes).deadline ≤ d.now) :
    d.decodeStep u code fault = d.fecSkip u (parseFec j.bytes) j j.step := by
  simp [Dev.decodeStep, hrun, hst, hcode, hlate]

theorem decodeStep_onTime (hst : j.status = none) (hcode : (parseFec j.bytes).code = code)
    (hlate : ¬ ((parseFec j.bytes).late = true ∧ (parseFec j.bytes).deadline ≤ d.now)) :
    d.decodeStep u code false = d.codeBlock u (parseFec j.bytes) j j.step := by
  simp [Dev.decodeStep, hrun, hst, hcode, hlate]

end

/-- Skipping the blocks of a job without results changes its status and nothing else of the engine (R222). -/
theorem fecSkip_eng (d : Dev) (u r : Nat) (f : FDesc) (j : EJob) (hresult : f.result = 0) :
    (d.fecSkip u f j r).eng 1 u = { d.eng 1 u with run := some { j with status := some (0x22, none) } } := by
  have hskip : d.fecSkip u f j r
      = (d.bumpBy (engCnt 1 u 9) (f.ncb - r)).setRun 1 u { j with status := some (0x22, none) } := by
    simp [Dev.fecSkip, Dev.writeMany, hresult]
  rw [hskip, Dev.eng_setRun_same, Dev.eng_bumpBy]

/-! ### The codec (R227, R228) -/

/-- The codec counts its job's only block, and the CRC check that it fails, and the job has ended. -/
def Dev.codecDone (d : Dev) (j : EJob) (metric : Nat) (ok bad : Bool) : Dev :=
  let d := d.bump (engCnt 3 0 3)
  let d := if bad then d.bump (engCnt 3 0 7) else d
  d.setRun 3 0 { j with step := 1, pos := 1, failed := b2n ok, crcFail := bad, metric := metric, status := some (b2n bad, none) }

theorem codecDone_steps (d : Dev) (j : EJob) (metric : Nat) (ok bad : Bool) :
    (d.codecDone j metric ok bad).mem = d.mem ∧ (d.codecDone j metric ok bad).SteppedTo 3 0 1 true := by
  constructor
  · simp only [Dev.codecDone, Dev.setRun_mem, apply_ite Dev.mem, Dev.bump_mem, ite_self]
  · unfold Dev.codecDone
    exact steppedTo_block _ 3 0 1 _ bad rfl

section
variable {d : Dev} {fn : Nat} {fault : Bool} {j : EJob} (hrun : (d.eng 3 0).run = some j)
include hrun

theorem codecStep_otherFunction (hfn : (parseCodec j.bytes).fn ≠ fn) : d.codecStep fn fault = d := by
  simp [Dev.codecStep, hrun, hfn]

theorem codecStep_fault (hst : j.status = none) (hfn : (parseCodec j.bytes).fn = fn) :
    d.codecStep fn true = d.setRun 3 0 { j with status := some (0x15, none) } := by
  simp [Dev.codecStep, hrun, hst, hfn]

/-- An encoding job writes the code word of its payload. -/
theorem codecStep_encodes {k : KDesc} {d1 d2 : Dev} {bs : List Byte} {y : List Bool} (hst : j.status = none)
    (hk : parseCodec j.bytes = k) (hfn : k.fn = fn) (heven : fn % 2 = 0)
    (hread : d.busRead (.encoder 4) k.src (if fn % 2 = 1 then k.e else ceilDiv k.a 8) = (d1, .ok bs))
    (hy : k.coded ((bitsOf bs).take k.a) = some y)
    (hw : d1.writeMany (.encoder 4) [(k.out, bitsBytes y)] = (d2, none)) :
    d.codecStep fn false = d2.codecDone j 0 false false := by
  rw [if_neg (by omega)] at hread
  simp [Dev.codecStep, Dev.codecDone, hrun, hst, hk, hfn, heven, hread, hy, hw]

/-- A decoding job writes what it decides, with METRIC and its check result (R228). -/
theorem codecStep_decodes {k : KDesc} {d1 d2 d3 : Dev} {bs : List Byte} {y : List Bool} {ok : Bool} (hst : j.status = none)
    (hk : parseCodec j.bytes = k) (hfn : k.fn = fn) (hodd : fn % 2 = 1)
    (hread : d.busRead (.encoder 4) k.src (if fn % 2 = 1 then k.e else ceilDiv k.a 8) = (d1, .ok bs))
    (hdec : d1.codecDecode k (bs.map llrOf) = (d2, y, ok))
    (hw : d2.writeMany (.encoder 4) [(k.out, bitsBytes y)] = (d3, none)) :
    d.codecStep fn false = d3.codecDone j (codecMetric (bs.map llrOf) k.e) ok (k.hasCrc && !ok) := by
  rw [if_pos hodd] at hread
  simp [Dev.codecStep, Dev.codecDone, hrun, hst, hk, hfn, hodd, hread, hdec, hw]

end

/-! ### The obligation -/

/-- Settles O41: each row is its unit's step; a job of another code is left alone, a failed check and a late block end the job,
and a block whose accesses succeed is written and counted. -/
theorem codingSteps : Obligations.CodingSteps := by
  intro s hclk
  refine ⟨?_, ?_, ?_⟩
  · intro u turbo fault j hrun hst f i b0 n read
    have hgoes : s.goes i (s.dev.encodeStep u (if turbo then 1 else 0) fault) :=
      goes_of_exec_unit (exec_encode s u turbo fault) hclk
    refine ⟨?_, ?_, ?_⟩
    · intro hcode
      rwa [encodeStep_otherCode hrun hcode] at hgoes
    · rintro hcode rfl
      rwa [encodeStep_fault hrun hst hcode] at hgoes
    · rintro bs hcode rfl hn hread coded out w hw
      exact ⟨_, hgoes, encodeStep_writes hrun hst rfl hcode hn rfl (Prod.ext rfl hread) rfl (Prod.ext rfl hw)⟩
  · intro u turbo fault j hrun hst f i r read late
    have hgoes : s.goes i (s.dev.decodeStep u (if turbo then 1 else 0) fault) :=
      goes_of_exec_unit (exec_decode s u turbo fault) hclk
    refine ⟨?_, ?_, ?_⟩
    · intro hcode
      rwa [decodeStep_otherCode hrun hcode] at hgoes
    · intro hcode hlate
      rw [decodeStep_late hrun hst hcode hlate] at hgoes
      exact ⟨hgoes, fecSkip_eng s.dev u r f j⟩
    · rintro bs hcode hlate rfl hcomb hstore hresult hread l0 l1 l pos received acc d1 got w hw
      have hdec : d1.decodeBits f r (f.buffer r bs) (f.received r) j.cap = got := by
        have hl : f.llrs r bs = l := by
          simp only [FDesc.llrs, code_eq_zero_iff hcode]
          cases turbo <;> rfl
        simp only [Dev.decodeBits, FDesc.buffer, hl, code_eq_zero_iff hcode]
        cases turbo <;> rfl
      have hblock := codeBlock_plain (d2 := got.1) (o := got.2) (j := j) hcomb hstore hresult (Prod.ext rfl hread) hdec
        (Prod.ext rfl hw)
      rw [decodeStep_onTime hrun hst hcode hlate, hblock] at hgoes
      exact ⟨_, hgoes, cbDone_steps _ u f j _ _⟩
  · intro i fn fault j hi hrun hst k read
    have hgoes : s.goes i (s.dev.codecStep fn fault) := goes_of_exec_unit (exec_codec hi s) hclk
    refine ⟨?_, ?_, ?_, ?_⟩
    · intro hfn
      rwa [codecStep_otherFunction hrun hfn] at hgoes
    · rintro hfn rfl
      rwa [codecStep_fault hrun hst hfn] at hgoes
    · rintro bs y hfn heven rfl hread hy w hw
      rw [codecStep_encodes hrun hst rfl hfn heven (Prod.ext rfl hread) hy (Prod.ext rfl hw)] at hgoes
      exact ⟨_, hgoes, codecDone_steps _ j _ _ _⟩
    · rintro bs hfn hodd rfl hread got w hw
      rw [codecStep_decodes hrun hst rfl hfn hodd (Prod.ext rfl hread) rfl (Prod.ext rfl hw)] at hgoes
      exact ⟨_, hgoes, codecDone_steps _ j _ _ _⟩

end Sys2Proof.Machine
end

section
/-!
PROOFS. One step of a transform engine, and ABORT: a job of another OP, a failed check, a read that fails, a step whose accesses
succeed, and what a job that ABORT has ended still does (R248, R251, R252, R265, R266, R271).
-/
namespace Sys2Proof.Machine

/-! ### From the command to the unit's step -/

theorem exec_transform {i : Instr} {op : Nat} {u : Fin 8} {fault : Bool} (h : (i, op) ∈ xfuOpRows u fault) (s : State) :
    exec i s = s.unit (fun d => d.xfuStep u op fault) := by
  simp only [xfuOpRows, List.mem_cons, Prod.mk.injEq, List.not_mem_nil, or_false] at h
  obtain ⟨rfl, rfl⟩ | ⟨rfl, rfl⟩ | ⟨rfl, rfl⟩ | ⟨rfl, rfl⟩ | ⟨rfl, rfl⟩ := h
  all_goals rfl

/-! ### One step of the running job -/

/-- A step whose writes have succeeded is counted, and the job moves on by one step (R251, R252, R271). -/
def Dev.xfuDone (d : Dev) (u : Nat) (x : XDesc) (j : EJob) (o : XOut) : Dev :=
  let d := (d.bump (xfuCnt u 3)).bumpBy (xfuCnt u 4) o.samples
  let d := if o.sat then d.bump (xfuCnt u 5) else d
  let n := j.step + 1
  let sat := j.sat || o.sat
  d.setRun 4 u { j with
    step := n, pos := n % x.nant + 2 ^ 8 * (n / x.nant), sat := sat, bins := j.bins ++ o.bins,
    smax := if x.auto then max j.smax o.shift else x.shift,
    status := if n = x.steps then some (b2n sat, none) else none }

/-- What a step's outcome does to the job: an error ends it, and so does a write that fails (R265). -/
def Dev.xfuSettle (d : Dev) (u : Nat) (x : XDesc) (j : EJob) : Except (Nat × Option Nat) XOut → Dev
  | .error e => d.setRun 4 u { j with status := some e }
  | .ok o =>
    match d.writeMany (.xfu u) o.writes with
    | (d, some e) => d.setRun 4 u { j with status := some (e.1, some e.2) }
    | (d, none) => d.xfuDone u x j o

theorem xfuSettle_written {d d1 : Dev} {u : Nat} {o : XOut} (x : XDesc) (j : EJob)
    (hw : d.writeMany (.xfu u) o.writes = (d1, none)) : d.xfuSettle u x j (.ok o) = d1.xfuDone u x j o := by
  simp only [Dev.xfuSettle, hw]

/-- Counting a step leaves memory alone, and the job ends, SATURATED or not, exactly after its last step. -/
theorem xfuDone_steps (d : Dev) (u : Nat) (x : XDesc) (j : EJob) (o : XOut) :
    (d.xfuDone u x j o).mem = d.mem
      ∧ (d.xfuDone u x j o).SteppedTo 4 u (j.step + 1) (decide (j.step + 1 = x.steps)) := by
  constructor
  · simp only [Dev.xfuDone, Dev.setRun_mem, apply_ite Dev.mem, Dev.bump_mem, Dev.bumpBy_mem, ite_self]
  · unfold Dev.xfuDone
    exact steppedTo_block _ 4 u x.steps _ _ rfl

section
variable {d : Dev} {u op : Nat} {fault : Bool} {j : EJob} (hrun : (d.eng 4 u).run = some j)
include hrun

theorem xfuStep_otherOp (hop : (parseXfu j.bytes).op ≠ op) : d.xfuStep u op fault = d := by
  simp [Dev.xfuStep, hrun, hop]

theorem xfuStep_ended (hst : j.status.isSome = true) : d.xfuStep u op fault = d := by
  simp [Dev.xfuStep, hrun, hst]

theorem xfuStep_fault (hst : j.status = none) (hop : (parseXfu j.bytes).op = op) :
    d.xfuStep u op true = d.setRun 4 u { j with status := some (0x15, none) } := by
  simp [Dev.xfuStep, hrun, hst, hop]

/-- Without a failed check the job takes the outcome of its OP's work. -/
theorem xfuStep_works {x : XDesc} (hst : j.status = none) (hx : parseXfu j.bytes = x) (hop : x.op = op) :
    d.xfuStep u op false = (d.xfuWork u x j.step).1.xfuSettle u x j (d.xfuWork u x j.step).2 := by
  subst hx hop
  simp only [Dev.xfuStep, hrun, hst, Option.isSome_none, ne_eq, not_true_eq_false, decide_false, Bool.or_self,
    Bool.false_eq_true, if_false]
  rfl

end

/-! ### A wake leaves memory alone (R466) -/

theorem Dev.setPower_mem (d : Dev) (i : Nat) (p : Power) : (d.setPower i p).mem = d.mem := by
  unfold Dev.setPower
  dsimp only
  split
  · rfl
  · cases d.power i <;> rfl

theorem Dev.undoze_mem (d : Dev) (i : Nat) : (d.undoze i).mem = d.mem := by
  unfold Dev.undoze
  split
  · rfl
  · dsimp only
    split
    · exact List.foldlRecOn (motive := fun d' => d'.mem = d.mem) _ _ (Dev.setPower_mem d i .active)
        (fun d' hd' k _ => (Dev.setPower_mem d' _ _).trans hd')
    · exact Dev.setPower_mem d i .active

theorem Dev.entryRec_mem (d : Dev) (outcome target unit code : Nat) : (d.entryRec outcome target unit code).mem = d.mem := by
  rw [Dev.entryRec, Dev.setReg64_mem, Dev.setReg64_mem]

theorem Dev.dropEntry_mem (d : Dev) (i : Nat) : (d.dropEntry i).mem = d.mem := rfl

theorem Dev.dozeUndo_mem (d : Dev) (e : DozeEntry) (outcome code : Nat) : (d.dozeUndo e outcome code).mem = d.mem := by
  rw [Dev.dozeUndo, Dev.entryRefused, Dev.entryRec_mem, Dev.bump_mem, Dev.bump_mem, Dev.setPower_mem, Dev.dropEntry_mem]

theorem Dev.dozeDone_mem (d : Dev) (i : Nat) : (d.dozeDone i).mem = d.mem := by
  rw [Dev.dozeDone, Dev.entryRec_mem, Dev.bump_mem, Dev.setPower_mem, Dev.dropEntry_mem]

/-- An access to a unit's window wakes the unit, or undoes its entry, without touching memory (R466). -/
theorem Dev.wakeFor_mem (d : Dev) (a : Nat) : (d.wakeFor a).mem = d.mem := by
  unfold Dev.wakeFor
  split
  · rfl
  next i _ =>
    split
    · exact Dev.undoze_mem d i
    · split
      · exact Dev.dozeUndo_mem d _ 1 8
      · rw [Dev.undoze_mem, Dev.dozeDone_mem]

/-! ### ABORT (R266) -/

/-- A job with steps left ends ABORTED, but for the codec's, which is marked (R194, R235, R266). -/
theorem engAbort_running {d : Dev} {cls u : Nat} {j : EJob} (hrun : (d.eng cls u).run = some j) (hst : j.status = none)
    (hcls : cls ≠ 3) : d.engAbort cls u = d.setRun cls u { j with status := some (0x21, none) } := by
  simp [Dev.engAbort, hrun, hst, hcls]

theorem xfuAbort_goes {s : State} {u : Fin 8} (hclk : s.dev.clocked = true) :
    s.goes (.xfuAbort u) ((s.dev.wakeFor (engBase 4 u)).engAbort 4 u) :=
  engReg_on s 4 u (fun d => d.engAbort 4 u) hclk

/-- A unit's command whose effect leaves the device as it is changes nothing, whether the clocks run or not. -/
theorem unit_same {s : State} {f : Dev → Dev} (h : f s.dev = s.dev) : s.unit f = .next s := by
  simp [State.unit, h]

/-! ### The obligations -/

/-- Settles O40: each row is the unit's step; a job of another OP is left alone, a failed check and a failed read end the job,
and a step whose accesses succeed is written and counted. -/
theorem transformSteps : Obligations.TransformSteps := by
  intro s u i op j hclk hi hrun hst x work
  have hgoes : s.goes i (s.dev.xfuStep u op false) := goes_of_exec_unit (exec_transform hi s) hclk
  refine ⟨?_, ?_, ?_, ?_⟩
  · intro hop
    rwa [xfuStep_otherOp hrun hop] at hgoes
  · intro e hop hwork
    rw [xfuStep_works hrun hst rfl hop, hwork] at hgoes
    exact ⟨_, hgoes, rfl, by rw [Dev.xfuSettle, Dev.eng_setRun_same]; rfl⟩
  · intro o hop hwork w hw
    rw [xfuStep_works hrun hst rfl hop, hwork, xfuSettle_written x j (Prod.ext rfl hw)] at hgoes
    exact ⟨_, hgoes, xfuDone_steps _ u x j o⟩
  · intro i' hi' hop
    have hfault : s.goes i' (s.dev.xfuStep u op true) := goes_of_exec_unit (exec_transform hi' s) hclk
    rw [xfuStep_fault hrun hst hop] at hfault
    exact ⟨_, hfault, rfl, by rw [Dev.eng_setRun_same]; rfl⟩

/-- Settles O57: the job of the woken unit ends ABORTED where it stands, and a step of a job that has ended does nothing. -/
theorem transformAbort : Obligations.TransformAbort := by
  intro s u j hclk hrun hst
  have hgoes := xfuAbort_goes (u := u) hclk
  rw [engAbort_running hrun hst (by decide)] at hgoes
  refine ⟨_, hgoes, by rw [Dev.eng_setRun_same], by rw [Dev.setRun_mem, Dev.wakeFor_mem], ?_⟩
  intro i op fault hi
  rw [exec_transform hi]
  exact unit_same (xfuStep_ended (by rw [State.withDev_dev, Dev.eng_setRun_same]) rfl)

end Sys2Proof.Machine
end

section
/-!
PROOFS. What leaves the jobs of the engines and of the burst receivers alone: registers and counters, accesses of memory, trace
and fault records, wakes, and posts (R304, R342 to R351, R358, R466, R508, R541, R544).
-/
namespace Sys2Proof.Machine

/-- The jobs that engines and burst receivers hold. -/
def Dev.unitJobs (d : Dev) : Tab Engine × Tab Receiver4 := (d.engs, d.wbr)

theorem Dev.unitJobs_eq {d d' : Dev} (he : d'.engs = d.engs) (hw : d'.wbr = d.wbr) : d'.unitJobs = d.unitJobs := by
  rw [Dev.unitJobs, he, hw, Dev.unitJobs]

theorem Dev.eng_of_unitJobs {d d' : Dev} (h : d'.unitJobs = d.unitJobs) (cls u : Nat) : d'.eng cls u = d.eng cls u :=
  congrArg (fun x : Tab Engine × Tab Receiver4 => Tab.get (fun _ => ({} : Engine)) x.1 (pwrEng cls u)) h

theorem Dev.genJob_of_unitJobs {d d' : Dev} (h : d'.unitJobs = d.unitJobs) (g k : Nat) : d'.genJob g k = d.genJob g k :=
  congrArg (fun e : Engine => Tab.get (fun _ => none) e.ctx k) (Dev.eng_of_unitJobs h 5 g)

theorem Dev.listen_of_unitJobs {d d' : Dev} (h : d'.unitJobs = d.unitJobs) (r k : Nat) : d'.listen r k = d.listen r k :=
  congrArg (fun x : Tab Engine × Tab Receiver4 =>
    Tab.get (fun _ => none) (Tab.get (fun _ => ({} : Receiver4)) x.2 r).ctx k) h

theorem unitJobs_foldl {α : Type} (f : Dev → α → Dev) (hf : ∀ d x, (f d x).unitJobs = d.unitJobs) (l : List α) (d : Dev) :
    (l.foldl f d).unitJobs = d.unitJobs :=
  List.foldlRecOn (motive := fun d' => d'.unitJobs = d.unitJobs) l f rfl (fun d' hd' x _ => (hf d' x).trans hd')

/-! ### Registers, counters and free values -/

@[simp] theorem unitJobs_setRegN (d : Dev) (a v : Nat) : (d.setRegN a v).unitJobs = d.unitJobs := Dev.unitJobs_eq rfl rfl
@[simp] theorem unitJobs_setReg64 (d : Dev) (a v : Nat) : (d.setReg64 a v).unitJobs = d.unitJobs := Dev.unitJobs_eq rfl rfl
@[simp] theorem unitJobs_bumpBy (d : Dev) (a n : Nat) : (d.bumpBy a n).unitJobs = d.unitJobs := Dev.unitJobs_eq rfl rfl
@[simp] theorem unitJobs_bump (d : Dev) (a : Nat) : (d.bump a).unitJobs = d.unitJobs := Dev.unitJobs_eq rfl rfl
@[simp] theorem unitJobs_bump32 (d : Dev) (a : Nat) : (d.bump32 a).unitJobs = d.unitJobs := Dev.unitJobs_eq rfl rfl
@[simp] theorem unitJobs_setBits (d : Dev) (a m : Nat) : (d.setBits a m).unitJobs = d.unitJobs := Dev.unitJobs_eq rfl rfl
@[simp] theorem unitJobs_engInt (d : Dev) (cls u b : Nat) : (d.engInt cls u b).unitJobs = d.unitJobs := Dev.unitJobs_eq rfl rfl
@[simp] theorem unitJobs_qmgInt (d : Dev) (b : Nat) : (d.qmgInt b).unitJobs = d.unitJobs := Dev.unitJobs_eq rfl rfl
@[simp] theorem unitJobs_setQueue (d : Dev) (n : Nat) (q : Queue) : (d.setQueue n q).unitJobs = d.unitJobs :=
  Dev.unitJobs_eq rfl rfl
@[simp] theorem unitJobs_catCount (d : Dev) (i n : Nat) : (d.catCount i n).unitJobs = d.unitJobs := Dev.unitJobs_eq rfl rfl
@[simp] theorem unitJobs_used (d : Dev) : d.used.unitJobs = d.unitJobs := Dev.unitJobs_eq rfl rfl
@[simp] theorem unitJobs_withMem (d : Dev) (m : MemState) : ({ d with mem := m } : Dev).unitJobs = d.unitJobs :=
  Dev.unitJobs_eq rfl rfl

@[simp] theorem unitJobs_withQ (d : Dev) (q : QueueState) : ({ d with q := q } : Dev).unitJobs = d.unitJobs :=
  Dev.unitJobs_eq rfl rfl

@[simp] theorem unitJobs_withSmd (d : Dev) (x : SmildaState) : ({ d with smd := x } : Dev).unitJobs = d.unitJobs :=
  Dev.unitJobs_eq rfl rfl

@[simp] theorem unitJobs_setRegBytes (d : Dev) (a : Nat) (bs : List Byte) : (d.setRegBytes a bs).unitJobs = d.unitJobs :=
  unitJobs_foldl (fun d i => d.setRegN (a + 4 * i) (leAt bs (4 * i) 4)) (fun d _ => unitJobs_setRegN d _ _) _ d

@[simp] theorem unitJobs_errAddr (d : Dev) (a : Option Nat) : (d.errAddr a).1.unitJobs = d.unitJobs := by
  cases a <;> exact Dev.unitJobs_eq rfl rfl

/-! ### Accesses of memory -/

@[simp] theorem unitJobs_logEvent (d : Dev) (r : Region) (a : Nat) (e : LogEvent) :
    (d.logEvent r a e).unitJobs = d.unitJobs := by
  simp only [Dev.logEvent, apply_ite Dev.unitJobs, unitJobs_setBits, unitJobs_bump, unitJobs_withMem, ite_self]

@[simp] theorem unitJobs_unfilter (d : Dev) (a : Nat) : (d.unfilter a).unitJobs = d.unitJobs := Dev.unitJobs_eq rfl rfl

@[simp] theorem unitJobs_ueLine (d : Dev) (r : Region) (l s q : Nat) : (d.ueLine r l s q).unitJobs = d.unitJobs := by
  simp [Dev.ueLine]

@[simp] theorem unitJobs_ceLine (d : Dev) (r : Region) (l : Nat) (v : Verdict) (s q : Nat) :
    (d.ceLine r l v s q).unitJobs = d.unitJobs := by
  cases v <;> simp [Dev.ceLine, Dev.logGroup]

@[simp] theorem unitJobs_pwPoison (d : Dev) (r : Region) (l q : Nat) : (d.pwPoison r l q).unitJobs = d.unitJobs := by
  simp [Dev.pwPoison, Dev.logPlain]

@[simp] theorem unitJobs_readSram (d : Dev) (ag : Agent) (r : Region) (l : Nat) :
    (d.readSram ag r l).1.unitJobs = d.unitJobs := by
  unfold Dev.readSram
  split <;> simp

@[simp] theorem unitJobs_writeSram (d : Dev) (ag : Agent) (r : Region) (l off : Nat) (bs : List Byte) :
    (d.writeSram ag r l off bs).1.unitJobs = d.unitJobs := by
  unfold Dev.writeSram
  split
  · simp
  · dsimp only
    split <;> simp

@[simp] theorem unitJobs_ueOctet (d : Dev) (l s q : Nat) : (d.ueOctet l s q).unitJobs = d.unitJobs := by
  simp [Dev.ueOctet]

@[simp] theorem unitJobs_ceOctet (d : Dev) (l : Nat) (v : Verdict) (s q : Nat) : (d.ceOctet l v s q).unitJobs = d.unitJobs := by
  cases v <;> simp [Dev.ceOctet, Dev.logGroup]

@[simp] theorem unitJobs_fetchDdr (d : Dev) (l s q : Nat) : (d.fetchDdr l s q).1.unitJobs = d.unitJobs := by
  unfold Dev.fetchDdr
  split
  · rfl
  · split
    · rfl
    · split <;> simp

@[simp] theorem unitJobs_readDdr (d : Dev) (ag : Agent) (l : Nat) : (d.readDdr ag l).1.unitJobs = d.unitJobs := by
  have hf := unitJobs_fetchDdr d l 0 ag.word
  unfold Dev.readDdr
  dsimp only
  split
  · split
    · rfl
    · split <;> simp_all
  · split <;> simp_all

@[simp] theorem unitJobs_clcAccess (d : Dev) (o : Nat) : (d.clcAccess o).unitJobs = d.unitJobs := by
  unfold Dev.clcAccess
  split
  · simp
  · dsimp only
    rw [unitJobs_withMem]
    split <;> simp

@[simp] theorem unitJobs_flushLine (d : Dev) (e : CombEntry) (u : Nat) : (d.flushLine e u).unitJobs = d.unitJobs := by
  have hf := unitJobs_fetchDdr (d.bump (memCnt 9)) (8 * e.octet + u) 2 e.req
  unfold Dev.flushLine
  dsimp only
  split
  · rfl
  · split
    · simp_all
    · split <;> simp_all

@[simp] theorem unitJobs_flushEntry (d : Dev) (e : CombEntry) : (d.flushEntry e).unitJobs = d.unitJobs := by
  unfold Dev.flushEntry
  dsimp only
  split
  · simp
  · rw [unitJobs_unfilter, unitJobs_foldl _ (fun d u => unitJobs_flushLine d e u), unitJobs_clcAccess, unitJobs_withMem]

@[simp] theorem unitJobs_writeDdr (d : Dev) (ag : Agent) (l off : Nat) (bs : List Byte) :
    (d.writeDdr ag l off bs).unitJobs = d.unitJobs := by
  unfold Dev.writeDdr
  dsimp only
  rw [unitJobs_withMem]
  split
  · rfl
  · rw [unitJobs_withMem]
    split
    · split <;> simp
    · rfl

@[simp] theorem unitJobs_readLine (d : Dev) (ag : Agent) (a n : Nat) : (d.readLine ag a n).1.unitJobs = d.unitJobs := by
  have hd := unitJobs_readDdr d ag ((d.locate ag a).2 / 64)
  have hs := fun r => unitJobs_readSram d ag r ((d.locate ag a).2 / 64)
  simp only [Dev.readLine]
  split
  · rfl
  · rfl
  · split <;> simp_all
  · have hline := hs (d.locate ag a).1
    split <;> simp_all

@[simp] theorem unitJobs_writeLine (d : Dev) (ag : Agent) (a : Nat) (bs : List Byte) :
    (d.writeLine ag a bs).1.unitJobs = d.unitJobs := by
  have hs := unitJobs_writeSram d ag (d.locate ag a).1 ((d.locate ag a).2 / 64) ((d.locate ag a).2 % 64) bs
  simp only [Dev.writeLine]
  split
  · rfl
  · rfl
  · exact unitJobs_writeDdr _ _ _ _ _
  · split <;> simp_all

theorem unitJobs_readPiece (ag : Agent) (a : Nat) (acc : Dev × RResp) (p : Nat × Nat) :
    (readPiece ag a acc p).1.unitJobs = acc.1.unitJobs := by
  obtain ⟨d, r⟩ := acc
  cases r with
  | ok bs =>
    have hline := unitJobs_readLine d ag (a + p.1) p.2
    unfold readPiece
    dsimp only
    split <;> simp_all
  | decode x => rfl
  | poison x => rfl

theorem unitJobs_writePiece (ag : Agent) (a : Nat) (bs : List Byte) (acc : Dev × WResp) (p : Nat × Nat) :
    (writePiece ag a bs acc p).1.unitJobs = acc.1.unitJobs :=
  unitJobs_writeLine acc.1 ag (a + p.1) ((bs.drop p.1).take p.2)

@[simp] theorem unitJobs_memRead (d : Dev) (ag : Agent) (a n : Nat) : (d.memRead ag a n).1.unitJobs = d.unitJobs := by
  rw [memRead_pieces]
  exact List.foldlRecOn (motive := fun acc : Dev × RResp => acc.1.unitJobs = d.unitJobs) _ _ rfl
    fun acc hacc p _ => (unitJobs_readPiece ag a acc p).trans hacc

@[simp] theorem unitJobs_memWrite (d : Dev) (ag : Agent) (a : Nat) (bs : List Byte) :
    (d.memWrite ag a bs).1.unitJobs = d.unitJobs := by
  rw [memWrite_pieces]
  exact List.foldlRecOn (motive := fun acc : Dev × WResp => acc.1.unitJobs = d.unitJobs) _ _ rfl
    fun acc hacc p _ => (unitJobs_writePiece ag a bs acc p).trans hacc

/-! ### Trace and fault records -/

@[simp] theorem unitJobs_tracePush (d : Dev) (r : TraceRec) : (d.tracePush r).unitJobs = d.unitJobs := by
  unfold Dev.tracePush
  split <;> exact Dev.unitJobs_eq rfl rfl

@[simp] theorem unitJobs_traceOverflow (d : Dev) : d.traceOverflow.unitJobs = d.unitJobs := by
  unfold Dev.traceOverflow
  split
  · exact unitJobs_tracePush _ _
  · rfl

@[simp] theorem unitJobs_trace (d : Dev) (kind unit data : Nat) : (d.trace kind unit data).unitJobs = d.unitJobs := by
  simp only [Dev.trace, apply_ite Dev.unitJobs, unitJobs_tracePush, unitJobs_traceOverflow, ite_self]

@[simp] theorem unitJobs_engTrace (d : Dev) (cls u : Nat) (j : EJob) (ended : Bool) (status : Nat) :
    (d.engTrace cls u j ended status).unitJobs = d.unitJobs := unitJobs_trace d _ _ _

@[simp] theorem unitJobs_sendMsix (d : Dev) (v : Nat) : (d.sendMsix v).unitJobs = d.unitJobs := by
  unfold Dev.sendMsix
  split <;> exact Dev.unitJobs_eq rfl rfl

@[simp] theorem unitJobs_supInt (d : Dev) (b : Nat) : (d.supInt b).unitJobs = d.unitJobs := by
  simp only [Dev.supInt, apply_ite Dev.unitJobs, unitJobs_sendMsix, unitJobs_setBits, ite_self]

@[simp] theorem unitJobs_ringNotify (d : Dev) (msg : List Byte) : (d.ringNotify msg).unitJobs = d.unitJobs := by
  simp only [Dev.ringNotify, apply_ite Dev.unitJobs, unitJobs_supInt, unitJobs_bump32, unitJobs_catCount, unitJobs_setRegBytes,
    ite_self]

@[simp] theorem unitJobs_notify (d : Dev) (n : Notice) : (d.notify n).unitJobs = d.unitJobs := by
  unfold Dev.notify
  split
  · rfl
  · exact unitJobs_ringNotify d _

@[simp] theorem unitJobs_fault (d : Dev) (code sev cls num detail : Nat) :
    (d.fault code sev cls num detail).unitJobs = d.unitJobs := by
  unfold Dev.fault
  dsimp only
  split
  · rfl
  · rw [unitJobs_notify]
    split <;> exact Dev.unitJobs_eq rfl rfl

/-! ### Wakes (R466) -/

@[simp] theorem unitJobs_setPower (d : Dev) (i : Nat) (p : Power) : (d.setPower i p).unitJobs = d.unitJobs := by
  unfold Dev.setPower
  dsimp only
  split
  · rfl
  · cases d.power i <;> exact Dev.unitJobs_eq rfl rfl

@[simp] theorem unitJobs_undoze (d : Dev) (i : Nat) : (d.undoze i).unitJobs = d.unitJobs := by
  unfold Dev.undoze
  dsimp only
  split
  · rfl
  · split
    · rw [unitJobs_foldl _ (fun d j => unitJobs_setPower d _ _), unitJobs_setPower]
    · rw [unitJobs_setPower]

@[simp] theorem unitJobs_dropEntry (d : Dev) (i : Nat) : (d.dropEntry i).unitJobs = d.unitJobs := Dev.unitJobs_eq rfl rfl

@[simp] theorem unitJobs_entryRec (d : Dev) (outcome target unit code : Nat) :
    (d.entryRec outcome target unit code).unitJobs = d.unitJobs := by
  rw [Dev.entryRec, unitJobs_setReg64, unitJobs_setReg64]

@[simp] theorem unitJobs_dozeUndo (d : Dev) (e : DozeEntry) (outcome code : Nat) :
    (d.dozeUndo e outcome code).unitJobs = d.unitJobs := by
  simp [Dev.dozeUndo, Dev.entryRefused]

@[simp] theorem unitJobs_dozeDone (d : Dev) (i : Nat) : (d.dozeDone i).unitJobs = d.unitJobs := by
  simp [Dev.dozeDone]

@[simp] theorem unitJobs_wakeFor (d : Dev) (a : Nat) : (d.wakeFor a).unitJobs = d.unitJobs := by
  unfold Dev.wakeFor
  split
  · rfl
  · split
    · exact unitJobs_undoze d _
    · split <;> simp

/-! ### Posts (R304, R307) -/

@[simp] theorem unitJobs_sendToken (d : Dev) (t : InTok) : (d.sendToken t).unitJobs = d.unitJobs := Dev.unitJobs_eq rfl rfl

@[simp] theorem unitJobs_tokenPoison (d : Dev) : d.tokenPoison.unitJobs = d.unitJobs := Dev.unitJobs_eq rfl rfl

@[simp] theorem unitJobs_qTouch (d : Dev) (q : Nat) (count : Bool) : (d.qTouch q count).unitJobs = d.unitJobs := by
  unfold Dev.qTouch
  dsimp only
  split
  · rfl
  · simp only [unitJobs_withQ, apply_ite Prod.fst, apply_ite Dev.unitJobs, unitJobs_used, unitJobs_bump, ite_self]

@[simp] theorem unitJobs_becomeVisible (d : Dev) (qn : Nat) (i : BitVec 32) : (d.becomeVisible qn i).unitJobs = d.unitJobs := by
  have hread := unitJobs_memRead d .queueMgr ((d.queue qn).slotAddr i) 8
  unfold Dev.becomeVisible
  dsimp only
  split
  · split
    · simp
    · split <;> simp_all
  · split <;> simp

@[simp] theorem unitJobs_placePost (d : Dev) (qn : Nat) (desc : List Byte) : (d.placePost qn desc).1.unitJobs = d.unitJobs := by
  have hw := unitJobs_memWrite d .queueMgr ((d.queue qn).slotAddr (d.queue qn).pi) (padTo 32 desc)
  unfold Dev.placePost
  dsimp only
  split <;> simp_all

@[simp] theorem unitJobs_post (d : Dev) (ag : Agent) (hw : Bool) (qn : Nat) (desc : List Byte)
    (job : Option (Nat × Nat × Nat)) : (d.post ag hw qn desc job).1.unitJobs = d.unitJobs := by
  unfold Dev.post
  dsimp only
  split
  · rfl
  · split
    · simp
    · split
      · exact unitJobs_qTouch d qn true
      · split <;> simp

@[simp] theorem unitJobs_postHw (d : Dev) (ag : Agent) (qn : Nat) (desc : List Byte) :
    (d.postHw ag qn desc).unitJobs = d.unitJobs := unitJobs_post d ag true qn desc none

/-! ### Completions (R165, R282) -/

@[simp] theorem unitJobs_deliver (d : Dev) (cls u : Nat) (j : EJob) (status word : Nat) (rec32 : Nat → List Byte) (addr : Nat) :
    (d.deliver cls u j status word rec32 addr).unitJobs = d.unitJobs := by
  unfold Dev.deliver
  dsimp only
  cases j.smilda
  · simp only [apply_ite Dev.unitJobs, apply_ite Prod.fst, unitJobs_postHw, unitJobs_fault, unitJobs_engTrace, unitJobs_bump,
      unitJobs_bumpBy, unitJobs_engInt, unitJobs_setReg64, unitJobs_errAddr, ite_self]
  · simp only [unitJobs_withSmd, apply_ite Dev.unitJobs, apply_ite Prod.fst, unitJobs_fault, unitJobs_engTrace, unitJobs_bump,
      unitJobs_bumpBy, unitJobs_engInt, unitJobs_setReg64, unitJobs_errAddr, ite_self]

end Sys2Proof.Machine
end

section
/-!
PROOFS. The generators and receivers of the wake and burst unit: a symbol before its time, too late and written, the completion of
the job that ended first, ABORT, ENABLE, a symbol read and STOP (R272, R273, R279, R281, R285, R290, R295, R300).
-/
namespace Sys2Proof.Machine

/-! ### Folds over keyed entries -/

/-- Where each entry of distinct keys changes the view of its own key alone, the view of a key comes from its entry. -/
theorem foldl_at_key {α β : Type} {f : Dev → Nat × α → Dev} {view : Dev → Nat → β}
    (hother : ∀ (d : Dev) (p : Nat × α) (k : Nat), p.1 ≠ k → view (f d p) k = view d k) {t : List (Nat × α)}
    (hkeys : t.Pairwise (fun p q => p.1 ≠ q.1)) {k : Nat} {a : α} (hmem : (k, a) ∈ t) (d : Dev) :
    ∃ d1 : Dev, view d1 k = view d k ∧ view (t.foldl f d) k = view (f d1 (k, a)) k := by
  have hskip : ∀ (l : List (Nat × α)) (d : Dev), (∀ p ∈ l, p.1 ≠ k) → view (l.foldl f d) k = view d k := fun l d hl =>
    List.foldlRecOn (motive := fun d' => view d' k = view d k) l f rfl
      (fun d' hd' p hp => (hother d' p k (hl p hp)).trans hd')
  obtain ⟨l1, l2, rfl⟩ := List.append_of_mem hmem
  obtain ⟨-, hl2, hl1⟩ := List.pairwise_append.mp hkeys
  refine ⟨l1.foldl f d, hskip l1 d fun p hp => hl1 p hp _ List.mem_cons_self, ?_⟩
  rw [List.foldl_append, List.foldl_cons]
  exact hskip l2 _ fun p hp => ((List.pairwise_cons.mp hl2).1 p hp).symm

theorem Tab.pairwise_of_rising {α : Type} {t : Tab α} (h : Tab.rising t = true) : t.Pairwise (fun p q => p.1 ≠ q.1) := by
  induction t with
  | nil => exact List.Pairwise.nil
  | cons p t ih =>
    obtain ⟨hlt, ht⟩ := (Tab.rising_cons p t).mp h
    exact List.pairwise_cons.mpr ⟨fun q hq => Nat.ne_of_lt (hlt q hq), ih ht⟩

/-- A key that does not read as unlisted is listed. -/
theorem Tab.mem_of_get {α : Type} {dflt : Nat → α} {t : Tab α} {k : Nat} {v : α} (h : Tab.get dflt t k = v)
    (hv : v ≠ dflt k) : (k, v) ∈ t := by
  induction t with
  | nil => exact absurd h.symm hv
  | cons p t ih =>
    by_cases hp : p.1 = k
    · rw [Tab.get, if_pos hp] at h
      rw [← hp, ← h]
      exact List.mem_cons_self
    · rw [Tab.get, if_neg hp] at h
      exact List.mem_cons_of_mem p (ih h)

theorem minBy_eq_none_iff {α : Type} (key : α → Nat) (l : List α) : minBy key l = none ↔ l = [] := by
  cases l with
  | nil => simp [minBy]
  | cons x xs =>
    simp only [minBy, reduceCtorEq, iff_false]
    split
    · simp
    · split <;> simp

/-- What `minBy` answers is listed, and no key is below its own. -/
theorem minBy_least {α : Type} {key : α → Nat} {l : List α} {x : α} (h : minBy key l = some x) :
    x ∈ l ∧ ∀ y ∈ l, key x ≤ key y := by
  induction l generalizing x with
  | nil => cases h
  | cons a l ih =>
    rw [minBy] at h
    split at h
    next hnone =>
      obtain rfl := Option.some.inj h
      simp [(minBy_eq_none_iff key l).mp hnone]
    next y hy =>
      obtain ⟨hmem, hle⟩ := ih hy
      split at h
      next hlt =>
        obtain rfl := Option.some.inj h
        exact ⟨List.mem_cons_of_mem a hmem, List.forall_mem_cons.mpr ⟨Nat.le_of_lt hlt, hle⟩⟩
      next hge =>
        obtain rfl := Option.some.inj h
        exact ⟨List.mem_cons_self,
          List.forall_mem_cons.mpr ⟨Nat.le_refl _, fun z hz => Nat.le_trans (Nat.le_of_not_lt hge) (hle z hz)⟩⟩

/-! ### The contexts of a generator (R273) -/

theorem genJob_setGenJob (d : Dev) (g k m : Nat) (j : Option EJob) :
    (d.setGenJob g k j).genJob g m = if m = k then j else d.genJob g m := by
  rw [Dev.genJob, Dev.setGenJob, Dev.eng_setEng_same, Tab.get_put, Dev.genJob]

@[simp] theorem genJob_setGenJob_same (d : Dev) (g k : Nat) (j : Option EJob) : (d.setGenJob g k j).genJob g k = j := by
  rw [genJob_setGenJob, if_pos rfl]

theorem genJob_setGenJob_other (d : Dev) (g : Nat) {k m : Nat} (j : Option EJob) (h : m ≠ k) :
    (d.setGenJob g k j).genJob g m = d.genJob g m := by
  rw [genJob_setGenJob, if_neg h]

@[simp] theorem genJob_genEnd_same (d : Dev) (g k : Nat) (j : EJob) (status : Nat) (addr : Option Nat) :
    (d.genEnd g k j status addr).genJob g k = some { j with status := some (status, addr), cap := (d.eng 5 g).nextEnd } := by
  rw [Dev.genEnd, genJob_setGenJob_same]

@[simp] theorem setGenJob_mem (d : Dev) (g k : Nat) (j : Option EJob) : (d.setGenJob g k j).mem = d.mem := rfl

@[simp] theorem genEnd_mem (d : Dev) (g k : Nat) (j : EJob) (status : Nat) (addr : Option Nat) :
    (d.genEnd g k j status addr).mem = d.mem := rfl

/-! ### One symbol of a generator (R279, R281, R295) -/

theorem exec_generator {g : Fin 4} {c : Fin 12} {i : Instr} {op : Nat}
    (h : (i, op) ∈ [(Instr.frame g c false, 1), (.frameAndCwTail g c false, 2), (.cwOnly g c false, 3)]) (s : State) :
    exec i s = s.unit (fun d => d.genStep g c op false) := by
  simp only [List.mem_cons, Prod.mk.injEq, List.not_mem_nil, or_false] at h
  obtain ⟨rfl, rfl⟩ | ⟨rfl, rfl⟩ | ⟨rfl, rfl⟩ := h
  all_goals rfl

/-- A symbol's output per antenna: its bytes, and whether a part saturated (R279). -/
def WDesc.outs (w : WDesc) (j : EJob) : List (List Byte × Bool) :=
  (List.range w.nant).map (fun a => antennaBytes (w.spectrum (w.samples j.bins j.step)) (Tab.get (fun _ => 0) j.gstat a))

/-- Where the output of symbol `i` goes, antenna by antenna (R279). -/
def WDesc.runs (w : WDesc) (i : Nat) (j : EJob) : List (Nat × List Byte) :=
  (List.range w.nant).map (fun a => (w.out + a * w.sa + i % w.nbuf * w.ss + 4 * w.k0,
    (antennaBytes (w.spectrum (w.samples j.bins j.step)) (Tab.get (fun _ => 0) j.gstat a)).1))

theorem outs_mapIdx (w : WDesc) (i : Nat) (j : EJob) :
    (w.outs j).mapIdx (fun a o => (w.out + a * w.sa + i % w.nbuf * w.ss + 4 * w.k0, o.1)) = w.runs i j := by
  refine List.ext_getElem (by simp [WDesc.outs, WDesc.runs]) fun n _ _ => ?_
  simp [WDesc.outs, WDesc.runs]

/-- A symbol whose writes have succeeded is counted, and the job moves on by one symbol (R279, R298). -/
def Dev.genDone (d : Dev) (g k : Nat) (w : WDesc) (j : EJob) (sat : Bool) : Dev :=
  let d := (d.bump (engCnt 5 g 2)).bumpBy (engCnt 5 g 3) (w.onChips j.bins j.step)
  let d := if sat then d.bump (engCnt 5 g 5) else d
  let j := { j with step := j.step + 1, sat := j.sat || sat }
  if j.step = w.total j.bins.length then d.genEnd g k j (b2n j.sat) none else d.setGenJob g k (some j)

theorem genDone_mem (d : Dev) (g k : Nat) (w : WDesc) (j : EJob) (sat : Bool) : (d.genDone g k w j sat).mem = d.mem := by
  simp only [Dev.genDone, apply_ite Dev.mem, genEnd_mem, setGenJob_mem, Dev.bump_mem, Dev.bumpBy_mem, ite_self]

/-- The job has one symbol more, and has ended exactly if that was its last. -/
theorem genDone_genJob (d : Dev) (g k : Nat) (w : WDesc) {j : EJob} (sat : Bool) (hst : j.status = none) :
    ∃ j2 : EJob, (d.genDone g k w j sat).genJob g k = some j2 ∧ j2.step = j.step + 1
      ∧ (j2.status.isSome = true ↔ j.step + 1 = w.total j.bins.length) := by
  unfold Dev.genDone
  dsimp only
  by_cases hlast : j.step + 1 = w.total j.bins.length
  · rw [if_pos hlast, genJob_genEnd_same]
    exact ⟨_, rfl, rfl, iff_of_true rfl hlast⟩
  · rw [if_neg hlast, genJob_setGenJob_same]
    exact ⟨_, rfl, rfl, iff_of_false (by simp [hst]) hlast⟩

/-- Loading chips and weights leaves a job's status alone. -/
theorem genLoad_status {d d1 : Dev} {g : Nat} {w : WDesc} {j j1 : EJob} (h : d.genLoad g w j = (d1, .ok j1)) :
    j1.status = j.status := by
  unfold Dev.genLoad at h
  split at h
  · cases h
    rfl
  · dsimp only at h
    split at h
    · cases h
    · cases h
      rfl

section
variable {d : Dev} {g k op : Nat} {fault : Bool} {j : EJob} {w : WDesc} {t : Nat} (hjob : d.genJob g k = some j)
  (hw : parseWg j.bytes = w) (ht : w.tm.start (w.tm.nth j.step) = t)
include hjob hw

theorem genStep_otherOp (hop : w.op ≠ op) : d.genStep g k op fault = d := by
  simp [Dev.genStep, hjob, hw, hop]

include ht

theorem genStep_early (hearly : d.now + 1000 * (d.regN (wbuGBase g + 0x24) % 65536) < t) : d.genStep g k op fault = d := by
  simp [Dev.genStep, hjob, hw, ht, hearly]

variable (hst : j.status = none) (hop : w.op = op) (hlead : ¬ d.now + 1000 * (d.regN (wbuGBase g + 0x24) % 65536) < t)
include hst hop hlead

theorem genStep_late (hlate : t < d.now + 1000 * (d.regN (wbuGBase g + 0x28) % 65536)) :
    d.genStep g k op fault = ((d.setBits (wbuGBase g + 0x10) 16).bump (engCnt 5 g 4)).genEnd g k j 0x22 none := by
  simp only [Dev.genStep, hjob, hw, ht, hst, hop, hlead, hlate, Option.isSome_none, ne_eq, not_true_eq_false, decide_false,
    Bool.or_self, Bool.false_eq_true, if_false, if_true]

/-- In its time a symbol is loaded, written for each antenna, and counted. -/
theorem genStep_writes {d1 d2 : Dev} {j1 : EJob} (hlate : ¬ t < d.now + 1000 * (d.regN (wbuGBase g + 0x28) % 65536))
    (hload : d.genLoad g w j = (d1, .ok j1))
    (hwr : d1.writeMany (.wake g) (w.runs (w.tm.nth j.step) j1) = (d2, none)) :
    d.genStep g k op false = d2.genDone g k w j1 ((w.outs j1).any (fun o => o.2)) := by
  rw [← outs_mapIdx, WDesc.outs] at hwr
  simp only [Dev.genStep, hjob, hw, ht, hst, hop, hlead, hlate, hload, hwr, Option.isSome_none, ne_eq, not_true_eq_false,
    decide_false, Bool.or_self, Bool.false_eq_true, if_false]
  rfl

end

/-! ### The job that ended first (R273, R282) -/

/-- The jobs of a generator that have ended, with their contexts. -/
def Dev.genEnded (d : Dev) (g : Nat) : List (Nat × EJob) :=
  (List.range 12).filterMap (fun k =>
    match d.genJob g k with
    | some j => if j.status.isSome then some (k, j) else none
    | none => none)

theorem mem_genEnded {d : Dev} {g k : Nat} {j : EJob} :
    (k, j) ∈ d.genEnded g ↔ k < 12 ∧ d.genJob g k = some j ∧ j.status.isSome = true := by
  simp only [Dev.genEnded, List.mem_filterMap, List.mem_range]
  constructor
  · rintro ⟨m, hm, h⟩
    split at h
    next x hx =>
      split at h
      next hst =>
        cases h
        exact ⟨hm, hx, hst⟩
      next => cases h
    next => cases h
  · rintro ⟨hk, hjob, hst⟩
    exact ⟨k, hk, by rw [hjob]; simp [hst]⟩

theorem genComplete_idle {d : Dev} {g : Nat}
    (h : ∀ k : Nat, k < 12 → ∀ j : EJob, d.genJob g k = some j → j.status = none) : d.genComplete g = d := by
  have hempty : d.genEnded g = [] := List.eq_nil_iff_forall_not_mem.mpr fun p hp => by
    obtain ⟨hk, hjob, hst⟩ := mem_genEnded.mp hp
    simp [h _ hk _ hjob] at hst
  have hnone : minBy (fun p : Nat × EJob => p.2.cap) (d.genEnded g) = none := (minBy_eq_none_iff _ _).mpr hempty
  unfold Dev.genComplete
  dsimp only
  split
  · rfl
  next hsome => cases hsome.symm.trans hnone

theorem genComplete_first {d : Dev} {g k : Nat} {j : EJob}
    (h : minBy (fun p : Nat × EJob => p.2.cap) (d.genEnded g) = some (k, j)) :
    ∃ (status word addr : Nat) (rec32 : Nat → List Byte),
      d.genComplete g = (d.setGenJob g k none).deliver 5 g j status word rec32 addr := by
  unfold Dev.genComplete
  dsimp only
  split
  next hnone => cases hnone.symm.trans h
  next hsome =>
    cases hsome.symm.trans h
    exact ⟨_, _, _, _, rfl⟩

/-- Where a job has ended, a completion frees the context of the one that ended first, and no other. -/
theorem genComplete_frees {d : Dev} {g k0 : Nat} {j0 : EJob}
    (h : k0 < 12 ∧ d.genJob g k0 = some j0 ∧ j0.status.isSome = true) :
    ∃ (k : Nat) (j : EJob), (k < 12 ∧ d.genJob g k = some j ∧ j.status.isSome = true)
      ∧ (∀ (m : Nat) (x : EJob), m < 12 → d.genJob g m = some x → x.status.isSome = true → j.cap ≤ x.cap)
      ∧ (d.genComplete g).genJob g k = none ∧ ∀ m : Nat, m ≠ k → (d.genComplete g).genJob g m = d.genJob g m := by
  cases hfirst : minBy (fun p : Nat × EJob => p.2.cap) (d.genEnded g) with
  | none =>
    rw [minBy_eq_none_iff] at hfirst
    exact absurd (mem_genEnded.mpr h) (by simp [hfirst])
  | some p =>
    obtain ⟨k, j⟩ := p
    obtain ⟨hmem, hleast⟩ := minBy_least hfirst
    obtain ⟨status, word, addr, rec32, hdone⟩ := genComplete_first hfirst
    have hview : ∀ m : Nat, (d.genComplete g).genJob g m = (d.setGenJob g k none).genJob g m := fun m => by
      rw [hdone]
      exact Dev.genJob_of_unitJobs (unitJobs_deliver _ _ _ _ _ _ _ _) g m
    refine ⟨k, j, mem_genEnded.mp hmem, fun m x hm hx hst => ?_, ?_, fun m hm => ?_⟩
    · exact hleast (m, x) (mem_genEnded.mpr ⟨hm, hx, hst⟩)
    · rw [hview, genJob_setGenJob_same]
    · rw [hview, genJob_setGenJob_other d g none hm]

/-! ### ABORT of a generator (R295) -/

/-- What ABORT does to one entry of a generator's contexts. -/
def Dev.genAbort (d : Dev) (g : Nat) (p : Nat × Option EJob) : Dev :=
  match p.2 with
  | none => d
  | some j =>
    if j.status.isSome then d.engInt 5 g 2
    else d.setGenJob g p.1 (some { j with status := some (0x21, none), cap := (d.eng 5 g).nextEnd })

theorem wbgAbort_eq (d : Dev) (g : Nat) : d.wbgAbort g = (d.eng 5 g).ctx.foldl (fun d p => d.genAbort g p) d := rfl

theorem genAbort_other (d : Dev) (g : Nat) (p : Nat × Option EJob) (k : Nat) (h : p.1 ≠ k) :
    (d.genAbort g p).genJob g k = d.genJob g k := by
  unfold Dev.genAbort
  split
  · rfl
  · split
    · exact Dev.genJob_of_unitJobs (unitJobs_engInt d 5 g 2) g k
    · exact genJob_setGenJob_other d g _ h.symm

theorem genAbort_same {d : Dev} {g k : Nat} {j : EJob} (h : d.genJob g k = some j) : ∃ j' : EJob,
    (d.genAbort g (k, some j)).genJob g k = some j' ∧ j'.bytes = j.bytes ∧ j'.step = j.step ∧ j'.status.isSome = true := by
  unfold Dev.genAbort
  dsimp only
  split
  next hst => exact ⟨j, (Dev.genJob_of_unitJobs (unitJobs_engInt d 5 g 2) g k).trans h, rfl, rfl, hst⟩
  next => exact ⟨_, genJob_setGenJob_same d g k _, rfl, rfl, rfl⟩

theorem wbgAbort_genJob {d : Dev} {g k : Nat} {j : EJob} (hwf : Tab.wf (fun _ => none) (d.eng 5 g).ctx = true)
    (h : d.genJob g k = some j) : ∃ j' : EJob,
      (d.wbgAbort g).genJob g k = some j' ∧ j'.bytes = j.bytes ∧ j'.step = j.step ∧ j'.status.isSome = true := by
  have hrising : Tab.rising (d.eng 5 g).ctx = true := (Bool.and_eq_true_iff.mp hwf).1
  obtain ⟨d1, hd1, hfold⟩ := foldl_at_key (view := fun d k => d.genJob g k) (fun d p k => genAbort_other d g p k)
    (Tab.pairwise_of_rising hrising) (Tab.mem_of_get h (by simp)) d
  rw [wbgAbort_eq, hfold]
  exact genAbort_same (hd1.trans h)

/-! ### ENABLE (R272, R300) -/

theorem wbgEnable_profile3 {d : Dev} (g : Nat) (on : Bool) (h : d.profile3 = true) :
    d.wbgEnable g on = d.setReg (wbuGBase g + 4) (if on then 1 else 0) := by
  rw [Dev.wbgEnable, if_pos h]
  cases on <;> rfl

theorem wbrEnable_profile3 {d : Dev} (r : Nat) (on : Bool) (h : d.profile3 = true) :
    d.wbrEnable r on = d.setReg (wbuRBase r + 4) (if on then 1 else 0) := by
  rw [Dev.wbrEnable, if_pos h]
  cases on <;> rfl

theorem wbgEnable_ignored {d : Dev} (g : Nat) (on : Bool) (h : d.profile3 = false) : d.wbgEnable g on = d := by
  rw [Dev.wbgEnable, if_neg (by simp [h])]

theorem wbrEnable_ignored {d : Dev} (r : Nat) (on : Bool) (h : d.profile3 = false) : d.wbrEnable r on = d := by
  rw [Dev.wbrEnable, if_neg (by simp [h])]

/-! ### The contexts of a receiver (R274, R290) -/

theorem listen_setListen (d : Dev) (r k m : Nat) (v : Option Listen) :
    (d.setListen r k v).listen r m = if m = k then v else d.listen r m := by
  simp only [Dev.listen, Dev.setListen, Tab.get_put_same, Tab.get_put]

@[simp] theorem listen_setListen_same (d : Dev) (r k : Nat) (v : Option Listen) : (d.setListen r k v).listen r k = v := by
  rw [listen_setListen, if_pos rfl]

theorem unitJobs_listenEnd (d : Dev) (r k : Nat) (l : Listen) (status : Nat) :
    (d.listenEnd r k l status).unitJobs = (d.setListen r k none).unitJobs := by
  simp only [Dev.listenEnd, Dev.wbrPost, unitJobs_postHw, apply_ite Dev.unitJobs, unitJobs_fault, unitJobs_setBits,
    unitJobs_bump, ite_self]

/-- A listen job that ends frees its context and no other. -/
theorem listen_listenEnd (d : Dev) (r k m : Nat) (l : Listen) (status : Nat) :
    (d.listenEnd r k l status).listen r m = if m = k then none else d.listen r m := by
  rw [Dev.listen_of_unitJobs (unitJobs_listenEnd d r k l status), listen_setListen]

/-! ### A symbol read (R285 to R290) -/

theorem laneDetect_sym (d : Dev) (r : Nat) (l : Listen) (n : Recep) : (d.laneDetect r l n).2.sym = l.sym := by
  unfold Dev.laneDetect
  split
  · rfl
  · split
    · split <;> rfl
    · split
      · rfl
      · split <;> rfl

theorem settle_sym (f : Nat) (d : Dev) (r : Nat) (l : Listen) : (Dev.settle f d r l).2.sym = l.sym := by
  induction f generalizing d l with
  | zero => rfl
  | succ f ih =>
    unfold Dev.settle
    split
    · rfl
    · split
      · split <;> rfl
      · split
        · rfl
        · split
          · exact ih _ _
          · dsimp only
            rw [ih]
            split
            · exact laneDetect_sym _ _ _ _
            · rfl

theorem decideOne_sym (d : Dev) (r : Nat) (ld : LDesc) (l : Listen) (k : Decision) : (d.decideOne r ld l k).2.sym = l.sym := by
  unfold Dev.decideOne
  split
  · split
    · rfl
    · exact settle_sym _ _ _ _
  · split <;> rfl
  · dsimp only
    split
    · rfl
    · exact laneDetect_sym _ _ _ _

theorem decideGo_sym (f : Nat) (d : Dev) (r : Nat) (ld : LDesc) (h : Rat) (l : Listen) :
    (Dev.decideGo f d r ld h l).2.sym = l.sym := by
  induction f generalizing d l with
  | zero => rfl
  | succ f ih =>
    unfold Dev.decideGo
    split
    · rfl
    · split
      · rfl
      · dsimp only
        rw [ih, decideOne_sym]

theorem decide'_sym (d : Dev) (r : Nat) (ld : LDesc) (h : Rat) (l : Listen) : (d.decide' r ld h l).2.sym = l.sym :=
  decideGo_sym _ d r ld h l

/-- A job whose search has ended leaves its context when no reception is in progress; any other job stands (R290). -/
def Dev.listenNext (d : Dev) (r k : Nat) (ld : LDesc) (l : Listen) : Dev :=
  match l.ended with
  | some s => if l.cur.isNone then d.listenEnd r k l s else d.setListen r k (some (l.trim ld))
  | none => d.setListen r k (some (l.trim ld))

theorem listenNext_listen {d : Dev} {r k n : Nat} {ld : LDesc} {l : Listen} (h : l.sym = n) :
    ((d.listenNext r k ld l).listen r k).all (fun x => decide (x.sym = n)) = true := by
  have hstands : ((d.setListen r k (some (l.trim ld))).listen r k).all (fun x => decide (x.sym = n)) = true := by
    rw [listen_setListen_same]
    exact decide_eq_true h
  unfold Dev.listenNext
  split
  · split
    · rw [listen_listenEnd, if_pos rfl, Option.all_none]
    · exact hstands
  · exact hstands

/-- After symbol `i` the job has left its context or stands at the next symbol, whatever was decided. -/
theorem symbolDone_listen (d : Dev) (r k i : Nat) (ld : LDesc) (l : Listen) :
    ((d.symbolDone r k i ld l).listen r k).all (fun x => decide (x.sym = i + 1)) = true := by
  unfold Dev.symbolDone
  dsimp only
  generalize hx : Dev.decide' d r ld _ _ = x
  have hsym : x.2.sym = i + 1 := by rw [← hx, decide'_sym]
  refine listenNext_listen (d := x.1) ?_
  rw [apply_ite Listen.sym]
  exact (ite_self _).trans hsym

/-- The runs of memory that hold symbol `i` of a listen job, antenna by antenna (R285). -/
def LDesc.runs (l : LDesc) (i : Nat) : List (Nat × Nat) :=
  (List.range l.nant).map (fun a => (l.inp + a * l.sa + i % l.nbuf * l.ss + 4 * l.k0, 4 * l.m))

section
variable {d : Dev} {r k n : Nat} {l : Listen} {ld : LDesc} (hjob : d.listen r k = some l) (hld : parseListen l.bytes = ld)
  (hn : ld.tm.nextActive l.sym = some n)
include hjob hld hn

theorem symbolRead_early {fault : Bool} (h : d.now < ld.tm.start (n + 1) + d.readLag r) : d.symbolRead r k fault = d := by
  simp only [Dev.symbolRead, hjob, hld, hn, h, if_true]

theorem symbolRead_reads {d1 : Dev} {bs : List (List Byte)} (h : ¬ d.now < ld.tm.start (n + 1) + d.readLag r)
    (hread : d.readMany (.wake (4 + r)) (ld.runs n) = (d1, bs, none)) :
    ∃ l' : Listen, d.symbolRead r k false = d1.symbolDone r k n ld l' := by
  rw [LDesc.runs] at hread
  simp only [Dev.symbolRead, hjob, hld, hn, h, hread, Bool.false_eq_true, if_false]
  exact ⟨_, rfl⟩

end

/-! ### STOP of a receiver (R290, R299) -/

theorem mem_listens {d : Dev} {r k : Nat} {l : Listen} : (k, l) ∈ d.listens r ↔ k < 12 ∧ d.listen r k = some l := by
  simp [Dev.listens, Option.map_eq_some_iff]

theorem listens_keys (d : Dev) (r : Nat) : (d.listens r).Pairwise (fun p q => p.1 ≠ q.1) := by
  rw [Dev.listens, List.pairwise_filterMap]
  refine List.Pairwise.imp ?_ (List.pairwise_lt_range (n := 12))
  intro a b hab p hp q hq
  obtain ⟨_, -, rfl⟩ := Option.map_eq_some_iff.mp hp
  obtain ⟨_, -, rfl⟩ := Option.map_eq_some_iff.mp hq
  exact Nat.ne_of_lt hab

/-- What STOP with the word `v` does to one of a receiver's jobs. -/
def Dev.stopOne (d : Dev) (r v : Nat) (p : Nat × Listen) : Dev :=
  if bit v 16 || leAt p.2.bytes 12 2 = v % 65536 then d.listenStop r p.1 2 else d

theorem wbrStop_eq (d : Dev) (r v : Nat) : d.wbrStop r v = (d.listens r).foldl (fun d p => d.stopOne r v p) d := rfl

theorem listenStop_other (d : Dev) (r status : Nat) {k m : Nat} (h : k ≠ m) :
    (d.listenStop r k status).listen r m = d.listen r m := by
  unfold Dev.listenStop
  split
  · rfl
  · split
    · rfl
    · dsimp only
      split
      · rw [listen_listenEnd, if_neg h.symm]
      · rw [listen_setListen, if_neg h.symm]

/-- Search of a stopped job has ended, and a job with no reception in progress has left its context. -/
theorem listenStop_same {d : Dev} {r k : Nat} {l : Listen} (status : Nat) (h : d.listen r k = some l) :
    ((d.listenStop r k status).listen r k).all (fun x => x.ended.isSome) = true
      ∧ (l.cur = none → l.ended = none → (d.listenStop r k status).listen r k = none) := by
  by_cases hended : l.ended.isSome = true
  · have hstays : d.listenStop r k status = d := by simp [Dev.listenStop, h, hended]
    rw [hstays, h]
    exact ⟨hended, fun _ hnone => by simp [hnone] at hended⟩
  · unfold Dev.listenStop
    simp only [h, if_neg hended]
    split
    next hcur => simp [listen_listenEnd]
    next hcur => exact ⟨by simp, fun hnone => absurd (by simp [hnone]) hcur⟩

theorem stopOne_other (d : Dev) (r v : Nat) (p : Nat × Listen) (k : Nat) (h : p.1 ≠ k) :
    (d.stopOne r v p).listen r k = d.listen r k := by
  unfold Dev.stopOne
  split
  · exact listenStop_other d r 2 h
  · rfl

theorem wbrStop_listen {d : Dev} {r v k : Nat} {l : Listen} (hk : k < 12) (h : d.listen r k = some l) :
    (bit v 16 = true ∨ leAt l.bytes 12 2 = v % 65536 →
      ((d.wbrStop r v).listen r k).all (fun x => x.ended.isSome) = true
        ∧ (l.cur = none → l.ended = none → (d.wbrStop r v).listen r k = none))
      ∧ (bit v 16 = false → leAt l.bytes 12 2 ≠ v % 65536 → (d.wbrStop r v).listen r k = some l) := by
  obtain ⟨d1, hd1, hfold⟩ := foldl_at_key (view := fun d k => d.listen r k) (fun d p k => stopOne_other d r v p k)
    (listens_keys d r) (mem_listens.mpr ⟨hk, h⟩) d
  have hjob : d1.listen r k = some l := hd1.trans h
  rw [wbrStop_eq, hfold]
  refine ⟨fun hnamed => ?_, fun hall htag => ?_⟩
  · have hstop : d1.stopOne r v (k, l) = d1.listenStop r k 2 := if_pos (by simpa using hnamed)
    rw [hstop]
    exact listenStop_same 2 hjob
  · have hkeep : d1.stopOne r v (k, l) = d1 := if_neg (by simp [hall, htag])
    rw [hkeep, hjob]

/-! ### The obligation -/

/-- Settles O43: a row is the generator's symbol step, which waits, ends late or writes; a completion frees the least place in
the order of ending; ABORT and STOP act on each context by itself, and a symbol read leaves its job behind that symbol. -/
theorem wakeAndBurst : Obligations.WakeAndBurst := by
  intro s hclk d
  refine ⟨?_, ?_, ?_, ?_, ?_, ?_⟩
  · intro g c i op j hi hjob hst w n t early late load
    have hgoes : s.goes i (s.dev.genStep g c op false) := goes_of_exec_unit (exec_generator hi s) hclk
    refine ⟨?_, ?_, ?_⟩
    · rintro (hop | hearly)
      · rwa [genStep_otherOp hjob rfl hop] at hgoes
      · rwa [genStep_early hjob rfl rfl hearly] at hgoes
    · intro hop hearly hlate
      rw [genStep_late hjob rfl rfl hst hop hearly hlate] at hgoes
      exact ⟨_, hgoes, by rw [genJob_genEnd_same]; rfl⟩
    · intro j1 hop hearly hlate hload x wr hwr
      have hstatus : j1.status = j.status := genLoad_status (Prod.ext rfl hload)
      rw [genStep_writes hjob rfl rfl hst hop hearly hlate (Prod.ext rfl hload) (Prod.ext rfl hwr)] at hgoes
      obtain ⟨j2, hj2⟩ := genDone_genJob wr.1 g c w ((w.outs j1).any (fun o => o.2)) (hstatus.trans hst)
      exact ⟨_, j2, hgoes, genDone_mem _ _ _ _ _ _, hj2⟩
  · intro g
    have hgoes : s.goes (.generatorCompletion g) (s.dev.genComplete g) := unit_on s (fun d => d.genComplete g) hclk
    constructor
    · intro hnone
      rwa [genComplete_idle hnone] at hgoes
    · rintro ⟨k0, j0, hended⟩
      obtain ⟨k, j, ⟨hk, hjob, hst⟩, hleast, hfree, hothers⟩ := genComplete_frees hended
      exact ⟨_, k, j, hk, hjob, hst, hleast, hgoes, hfree, hothers⟩
  · intro g hwf
    have hwake := unitJobs_wakeFor d (unitWin 5 g)
    refine ⟨_, engReg_on s 5 g (fun d => d.wbgAbort g) hclk, fun k j hjob => ?_⟩
    obtain ⟨j', hj', hbytes, hstep, hst⟩ := wbgAbort_genJob (d := d.wakeFor (unitWin 5 g))
      (by rwa [Dev.eng_of_unitJobs hwake]) ((Dev.genJob_of_unitJobs hwake g k).trans hjob)
    rw [hj']
    simp [hbytes, hstep, hst]
  · intro g r on dg dr
    have hg : s.goes (.wbuGEnable g on) (dg.wbgEnable g on) := engReg_on s 5 g (fun d => d.wbgEnable g on) hclk
    have hr : s.goes (.wbuREnable r on) (dr.wbrEnable r on) := engReg_on s 9 r (fun d => d.wbrEnable r on) hclk
    refine ⟨fun h => ?_, fun h => ?_, fun h => ?_, fun h => ?_⟩
    · rwa [wbgEnable_profile3 g on h] at hg
    · rwa [wbgEnable_ignored g on h] at hg
    · rwa [wbrEnable_profile3 r on h] at hr
    · rwa [wbrEnable_ignored r on h] at hr
  · intro r c l n hjob hn ld runs
    have hgoes : s.goes (.symbolRead r c false) (s.dev.symbolRead r c false) := unit_on s (fun d => d.symbolRead r c false) hclk
    constructor
    · intro hearly
      rwa [symbolRead_early hjob rfl hn hearly] at hgoes
    · intro hdue hread
      obtain ⟨l', hdone⟩ := symbolRead_reads hjob rfl hn (Nat.not_lt.mpr hdue) (Prod.ext rfl (Prod.ext rfl hread))
      rw [hdone] at hgoes
      exact ⟨_, hgoes, symbolDone_listen _ r c n _ l'⟩
  · intro r v
    refine ⟨_, engReg_on s 9 r (fun d => d.wbrStop r v.toNat) hclk, fun k l hk hjob => ?_⟩
    exact wbrStop_listen hk ((Dev.listen_of_unitJobs (unitJobs_wakeFor d (unitWin 9 r)) r k).trans hjob)

end Sys2Proof.Machine
end

section
/-!
PROOFS. Queues: the commands LOAD, DISABLE, BIND and CLEAR, and QMG_ENABLE with its table check (R301, R302, R333).
-/
namespace Sys2Proof.Machine

/-! ### What leaves a queue alone -/

/-- The cache of loaded entries holds no state of a queue and no held post. -/
theorem qTouch_frame (d : Dev) (n : Nat) (count : Bool) :
    (d.qTouch n count).q.queues = d.q.queues ∧ (d.qTouch n count).q.held = d.q.held := by
  unfold Dev.qTouch
  dsimp only
  split
  · exact ⟨rfl, rfl⟩
  · simp only [apply_ite Prod.fst, apply_ite Dev.q, Dev.used_q, Dev.bump_q, ite_self, and_self]

@[simp] theorem queue_qTouch (d : Dev) (n m : Nat) (count : Bool) : (d.qTouch n count).queue m = d.queue m := by
  rw [Dev.queue, (qTouch_frame d n count).1, Dev.queue]

@[simp] theorem qTouch_held (d : Dev) (n : Nat) (count : Bool) : (d.qTouch n count).q.held = d.q.held :=
  (qTouch_frame d n count).2

/-! ### LOAD, DISABLE, BIND and CLEAR (R302) -/

section commands
variable {d : Dev} {n : Nat}

theorem qLoad_enabled (h : (d.queue n).enabled = true) : d.qLoad n = d.qResult 1 := if_pos h

theorem qLoad_beyond (h : (d.queue n).enabled = false) (hn : d.nq ≤ n) : d.qLoad n = d.qResult 4 := by
  simp [Dev.qLoad, h, hn]

theorem qLoad_unread (h : (d.queue n).enabled = false) (hn : n < d.nq)
    (hread : ∀ bs, (d.memRead .queueMgr (d.reg64 (qmgBase + 0x20) + 32 * n) 32).2 ≠ .ok bs) :
    d.qLoad n = (d.memRead .queueMgr (d.reg64 (qmgBase + 0x20) + 32 * n) 32).1.qResult 2 := by
  simp only [Dev.qLoad, h, Bool.false_eq_true, if_false, if_neg (Nat.not_le.mpr hn)]

theorem qLoad_invalid {bs : List Byte} (h : (d.queue n).enabled = false) (hn : n < d.nq)
    (hread : (d.memRead .queueMgr (d.reg64 (qmgBase + 0x20) + 32 * n) 32).2 = .ok bs)
    (hparse : (d.memRead .queueMgr (d.reg64 (qmgBase + 0x20) + 32 * n) 32).1.parseEntry bs = none) :
    d.qLoad n = (d.memRead .queueMgr (d.reg64 (qmgBase + 0x20) + 32 * n) 32).1.qResult 2 := by
  simp only [Dev.qLoad, h, Bool.false_eq_true, if_false, if_neg (Nat.not_le.mpr hn), hread, hparse]

/-- Another enabled queue of cores holds the slot that `x` names. -/
def Dev.slotTaken (d : Dev) (x : Queue) : Prop :=
  x.ckind = 1 ∧ ∃ (m : Nat) (y : Queue), (m, y) ∈ d.q.queues ∧ y.enabled = true ∧ y.ckind = 1 ∧ y.target = x.target

theorem slotTaken_iff (d : Dev) (x : Queue) : d.slotTaken x ↔
    (decide (x.ckind = 1) && d.q.queues.any (fun e => e.2.enabled && e.2.ckind = 1 && e.2.target = x.target)) = true := by
  simp [Dev.slotTaken, and_assoc]

theorem qLoad_valid {bs : List Byte} {x : Queue} (h : (d.queue n).enabled = false) (hn : n < d.nq)
    (hread : (d.memRead .queueMgr (d.reg64 (qmgBase + 0x20) + 32 * n) 32).2 = .ok bs)
    (hparse : (d.memRead .queueMgr (d.reg64 (qmgBase + 0x20) + 32 * n) 32).1.parseEntry bs = some x) (e : Dev)
    (he : (d.memRead .queueMgr (d.reg64 (qmgBase + 0x20) + 32 * n) 32).1 = e) :
    (e.slotTaken x → d.qLoad n = e.qResult 3)
      ∧ (¬ e.slotTaken x → d.qLoad n = ((e.setQueue n x).qTouch n false).qResult 0) := by
  subst he
  simp only [Dev.qLoad, h, Bool.false_eq_true, if_false, if_neg (Nat.not_le.mpr hn), hread, hparse, slotTaken_iff]
  exact ⟨fun ht => if_pos ht, fun ht => if_neg ht⟩

theorem qDisable_beyond (hn : d.nq ≤ n) : d.qDisable n = d.qResult 4 := if_pos hn

theorem qDisable_listed (hn : n < d.nq) :
    d.qDisable n = (d.setQueue n { d.queue n with enabled := false, marked := [] }).qResult 0 := if_neg (Nat.not_le.mpr hn)

theorem qClear_beyond (hn : d.nq ≤ n) : d.qClear n = d.qResult 4 := if_pos hn

theorem qClear_listed (hn : n < d.nq) :
    d.qClear n = (d.setQueue n { d.queue n with dropped := false, dbErr := false }).qResult 0 := if_neg (Nat.not_le.mpr hn)

theorem qBind_none (h : d.nq ≤ n ∨ (d.queue n).enabled = false) : d.qBind n = d.qResult 4 := by
  rcases h with h | h <;> simp [Dev.qBind, h]

theorem qBind_otherKind (hn : n < d.nq) (hen : (d.queue n).enabled = true) (hk : (d.queue n).ckind ≠ 4) :
    d.qBind n = d.qResult 2 := by
  simp [Dev.qBind, Nat.not_le.mpr hn, hen, hk]

theorem qBind_token (hn : n < d.nq) (hen : (d.queue n).enabled = true) (hk : (d.queue n).ckind = 4) :
    d.qBind n = (d.setQueue n { d.queue n with tag := BitVec.ofNat 64 (d.reg64 (qmgBase + 0x38)) }).qResult 0 := by
  simp [Dev.qBind, Nat.not_le.mpr hn, hen, hk]

end commands

/-! ### QMG_ENABLE (R333) -/

/-- One queue stops as the unit is disabled. -/
def Dev.qStop (d : Dev) (e : Nat × Queue) : Dev := d.setQueue e.1 { d.queue e.1 with enabled := false, marked := [] }

theorem qmgEnable_off (d : Dev) : d.qmgEnable false = (d.q.queues.foldl Dev.qStop d).setRegN (qmgBase + 4) 0 := rfl

theorem qStop_enabled (d : Dev) (e : Nat × Queue) (m : Nat) (h : e.1 = m ∨ (d.queue m).enabled = false) :
    ((d.qStop e).queue m).enabled = false := by
  by_cases hm : e.1 = m
  · rw [← hm, Dev.qStop, Dev.queue_setQueue_same]
  · rw [Dev.qStop, Dev.queue_setQueue_other _ _ (Ne.symm hm)]
    exact h.resolve_left hm

/-- Every queue of a list has stopped once the list is worked through. -/
theorem qStops_enabled (l : List (Nat × Queue)) (d : Dev) (m : Nat) (h : (∃ x, (m, x) ∈ l) ∨ (d.queue m).enabled = false) :
    ((l.foldl Dev.qStop d).queue m).enabled = false := by
  induction l generalizing d with
  | nil => simpa using h
  | cons e l ih =>
    rw [List.foldl_cons]
    rcases h with ⟨x, hx⟩ | h
    · rcases List.mem_cons.mp hx with rfl | hx
      · exact ih _ (.inr (qStop_enabled d (m, x) m (.inl rfl)))
      · exact ih _ (.inl ⟨x, hx⟩)
    · exact ih _ (.inr (qStop_enabled d e m (.inr h)))

/-- The table is aligned to its size and lies in one of the memories that R301 permits. -/
def Dev.tableOk (d : Dev) : Prop :=
  let base := d.reg64 (qmgBase + 0x20)
  let r := fun a => (d.locate .queueMgr a).1
  4 ≤ d.regN (qmgBase + 0x28) ∧ d.regN (qmgBase + 0x28) ≤ 18 ∧ base % (32 * d.nq) = 0
    ∧ r base = r (base + 32 * d.nq - 1) ∧ (r base = .pool ∨ r base = .ddr)

theorem qmgEnable_accepted {d : Dev} (h : d.tableOk) :
    d.qmgEnable true = { d.setRegN (qmgBase + 4) 1 with q := { d.q with cfgErr := false } } := if_pos h

theorem qmgEnable_rejected {d : Dev} (h : ¬ d.tableOk) :
    d.qmgEnable true = { d.setRegN (qmgBase + 4) 0 with q := { d.q with cfgErr := true } } := if_neg h

/-- Settles O31: each command's answer follows from the table's size, the queue's kind and the entry read; disabling the unit
stops every queue that the table of queues lists. -/
theorem queueCommands : Obligations.QueueCommands := by
  intro s n hclk d q replies read
  have hload : s.goes (.load n) (d.qLoad n) := unit_on s (fun d => d.qLoad n) hclk
  have hdisable : s.goes (.disable n) (d.qDisable n) := unit_on s (fun d => d.qDisable n) hclk
  have hbind : s.goes (.bind n) (d.qBind n) := unit_on s (fun d => d.qBind n) hclk
  have hclear : s.goes (.clear n) (d.qClear n) := unit_on s (fun d => d.qClear n) hclk
  have henable (on : Bool) : s.goes (.qmgEnable on) (d.qmgEnable on) := unit_on s (fun d => d.qmgEnable on) hclk
  refine ⟨?_, ?_, ?_, ?_, ?_⟩
  · intro hn hen i hi
    simp only [List.mem_cons, List.not_mem_nil, or_false] at hi
    rcases hi with rfl | rfl | rfl | rfl
    · rwa [qLoad_beyond hen hn] at hload
    · rwa [qDisable_beyond hn] at hdisable
    · rwa [qBind_none (.inl hn)] at hbind
    · rwa [qClear_beyond hn] at hclear
  · intro hn
    refine ⟨?_, ?_, ?_, ?_, ?_, ?_, ?_, ?_, ?_⟩
    · rwa [qDisable_listed hn] at hdisable
    · rwa [qClear_listed hn] at hclear
    · intro hen
      rwa [qBind_none (.inr hen)] at hbind
    · intro hen hk
      rwa [qBind_otherKind hn hen hk] at hbind
    · intro hen hk
      rwa [qBind_token hn hen hk] at hbind
    · intro hen
      rwa [qLoad_enabled hen] at hload
    · intro hen hread
      rwa [qLoad_unread hen hn hread] at hload
    · intro bs hen hread hparse
      rwa [qLoad_invalid hen hn hread hparse] at hload
    · intro bs x hen hread hparse
      obtain ⟨htaken, hfree⟩ := qLoad_valid hen hn hread hparse read.1 rfl
      constructor
      · intro h
        rwa [htaken h] at hload
      · intro h
        have hnot : ¬ read.1.slotTaken x := by
          rintro ⟨hk, m, y, hy, hyen, hyk, hyt⟩
          rcases h hk m y hy with h | h | h
          · simp [h] at hyen
          · exact h hyk
          · exact h hyt
        rwa [hfree hnot] at hload
  · intro hlo hhi halign hr hmem
    have h := henable true
    rwa [qmgEnable_accepted ⟨hlo, hhi, halign, hr, hmem⟩] at h
  · intro hbad
    have h := henable true
    have hnot : ¬ d.tableOk := by
      rintro ⟨hlo, hhi, halign, -⟩
      rcases hbad with hbad | hbad | hbad
      · exact Nat.not_lt.mpr hlo hbad
      · exact Nat.not_lt.mpr hhi hbad
      · exact hbad halign
    rwa [qmgEnable_rejected hnot] at h
  · refine ⟨_, henable false, ?_, fun m x hx => ?_⟩
    · rw [qmgEnable_off]
      exact Dev.reg_setReg_same _ _ _
    · rw [qmgEnable_off]
      exact qStops_enabled _ d m (.inl ⟨x, hx⟩)

end Sys2Proof.Machine
end

section
/-!
PROOFS. Posts: the bytes of a descriptor, what follows a placed descriptor, each outcome of a post, and the retry of a held post
(R303 to R305, R312).
-/
namespace Sys2Proof.Machine

/-! ### Byte strings -/

theorem pow_bytes (n : Nat) : 2 ^ (8 * n) = 256 ^ n := Nat.pow_mul 2 8 n

theorem leBytes_mod (n v : Nat) : leBytes n (v % 2 ^ (8 * n)) = leBytes n v := by
  rw [pow_bytes]
  induction n generalizing v with
  | zero => rfl
  | succ n ih =>
    rw [leBytes, leBytes, Nat.pow_succ' (m := 256), Nat.mod_mul_right_div_self, ih]
    congr 1
    apply BitVec.eq_of_toNat_eq
    rw [BitVec.toNat_ofNat, BitVec.toNat_ofNat, Nat.mod_mul_right_mod]

theorem leBytes_take (k n v : Nat) : (leBytes (k + n) v).take k = leBytes k v := by
  induction k generalizing v with
  | zero => rfl
  | succ k ih => rw [Nat.succ_add, leBytes, leBytes, List.take_succ_cons, ih]

theorem leBytes_drop (k n v : Nat) : (leBytes (k + n) v).drop k = leBytes n (v / 2 ^ (8 * k)) := by
  rw [pow_bytes]
  induction k generalizing v with
  | zero => simp
  | succ k ih => rw [Nat.succ_add, leBytes, List.drop_succ_cons, ih, Nat.div_div_eq_div_mul, ← Nat.pow_succ']

theorem leBytes_zero (n : Nat) : leBytes n 0 = zeros n := by
  induction n with
  | zero => rfl
  | succ n ih => rw [leBytes, Nat.zero_div, ih]; rfl

theorem leBytes_leNat (bs : List Byte) : leBytes bs.length (leNat bs) = bs := by
  induction bs with
  | nil => rfl
  | cons b bs ih =>
    have hb : b.toNat < 256 := b.isLt
    rw [List.length_cons, leNat, leBytes, Nat.add_mul_div_left _ _ (by decide), Nat.div_eq_of_lt hb, Nat.zero_add, ih]
    congr 1
    apply BitVec.eq_of_toNat_eq
    rw [BitVec.toNat_ofNat]
    omega

/-! ### A placed descriptor (R304, R307) -/

/-- Nothing follows at once when a descriptor of the queue becomes visible: no token queue, and no armed host queue. -/
def Queue.passive (q : Queue) : Prop := q.ckind ≠ 4 ∧ (q.ckind = 2 → q.armed = false)

theorem becomeVisible_passive {d : Dev} {n : Nat} (i : BitVec 32) (h : (d.queue n).passive) : d.becomeVisible n i = d := by
  obtain ⟨htoken, hhost⟩ := h
  by_cases hk : (d.queue n).ckind = 2
  · simp [Dev.becomeVisible, hk, hhost hk]
  · simp [Dev.becomeVisible, htoken, hk]

/-- The memory access that stores a descriptor in the slot of PI. -/
def Dev.slotWrite (d : Dev) (n : Nat) (desc : List Byte) : Dev × WResp :=
  d.memWrite .queueMgr ((d.queue n).slotAddr (d.queue n).pi) desc

/-- The device once a descriptor of queue `q` stands in its slot: PI has risen and the post is counted. -/
def Dev.posted (d : Dev) (n : Nat) (q : Queue) : Dev := (d.setQueue n { q with pi := q.pi + 1 }).bump (qmgCnt 0)

theorem placePost_passive {d : Dev} {n : Nat} {desc : List Byte} (h : (d.queue n).passive) (hlen : desc.length = 32)
    (hok : (d.slotWrite n desc).2 = .ok) : (d.placePost n desc).1 = (d.slotWrite n desc).1.posted n (d.queue n) := by
  obtain ⟨d1, hw⟩ : ∃ d1, d.slotWrite n desc = (d1, .ok) := ⟨_, Prod.ext rfl hok⟩
  have hq : ((d1.posted n (d.queue n)).queue n).passive := by
    rw [Dev.posted, Dev.queue_bump, Dev.queue_setQueue_same]
    exact h
  rw [hw]
  rw [Dev.slotWrite] at hw
  simp only [Dev.placePost, padTo_self _ _ hlen, hw]
  exact becomeVisible_passive _ hq

/-! ### The outcomes of a post (R304, R305) -/

/-- A post to a full queue that does not hold it: the queue's flag, the unit's interrupt bit and its counter. -/
def Dev.postDropped (d : Dev) (n : Nat) : Dev :=
  ((d.setQueue n { d.queue n with dropped := true }).qmgInt 0).bump (qmgCnt 1)

/-- A post that waits for a slot. -/
def Dev.postHeld (d : Dev) (ag : Agent) (n : Nat) (desc : List Byte) (job : Option (Nat × Nat × Nat)) : Dev :=
  { d with q := { d.q with held := d.q.held ++ [⟨ag, n, desc, job, d.time.raw⟩] } }

/-- No post of the producer to this queue waits. -/
def Dev.noneHeld (d : Dev) (ag : Agent) (n : Nat) : Prop := ∀ h ∈ d.q.held, h.queue ≠ n ∨ h.agent ≠ ag

theorem noneHeld_iff (d : Dev) (ag : Agent) (n : Nat) :
    d.noneHeld ag n ↔ d.q.held.any (fun h => h.queue = n && h.agent = ag) = false := by
  rw [Dev.noneHeld, List.any_eq_false]
  refine ⟨fun hnone h hh => ?_, fun hany h hh => ?_⟩
  · rcases hnone h hh with hq | ha
    · simp only [hq, decide_false, Bool.false_and, Bool.false_eq_true, not_false_eq_true]
    · simp only [ha, decide_false, Bool.and_false, Bool.false_eq_true, not_false_eq_true]
  · have hnot := hany h hh
    rw [Bool.and_eq_true, decide_eq_true_eq, decide_eq_true_eq] at hnot
    exact Decidable.not_and_iff_not_or_not.mp hnot

section posts
variable {d : Dev} {ag : Agent} {n : Nat} {desc : List Byte} {job : Option (Nat × Nat × Nat)}

theorem post_disabled (hw : Bool) (h : (d.queue n).enabled = false) : (d.post ag hw n desc job).1 = d.bump (qmgCnt 8) := by
  simp [Dev.post, h]

variable (hen : (d.queue n).enabled = true) (hpost : (d.queue n).post = true)
include hen hpost

theorem post_waits (hfull : (d.queue n).isFull = true) (hstall : (d.queue n).stall = true) :
    (d.post ag true n desc job).1 = (d.qTouch n true).postHeld ag n desc job := by
  simp [Dev.post, hen, hpost, hfull, hstall, Dev.postHeld]

theorem post_dropped {hw : Bool} (hfull : (d.queue n).isFull = true)
    (hgoes : hw = true → d.noneHeld ag n ∧ (d.queue n).stall = false) :
    (d.post ag hw n desc job).1 = (d.qTouch n true).postDropped n := by
  cases hw with
  | false => simp [Dev.post, hen, hpost, hfull, Dev.postDropped]
  | true =>
    obtain ⟨hnone, hstall⟩ := hgoes rfl
    rw [noneHeld_iff] at hnone
    simp only [Dev.post, hen, hpost, hfull, hstall, qTouch_held, hnone, Dev.postDropped, queue_qTouch]
    rfl

theorem post_placed {hw : Bool} (hfull : (d.queue n).isFull = false) (hgoes : hw = true → d.noneHeld ag n) :
    (d.post ag hw n desc job).1 = ((d.qTouch n true).placePost n desc).1 := by
  cases hw with
  | false => simp [Dev.post, hen, hpost, hfull]
  | true =>
    have hnone := hgoes rfl
    rw [noneHeld_iff] at hnone
    simp only [Dev.post, hen, hpost, hfull, qTouch_held, hnone]
    rfl

end posts

/-! ### The posts of cores and of the host (R304, R312) -/

/-- A 64-byte write to QMG_POST that names its queue and holds nothing after it is a post of its first 32 bytes. -/
theorem corePost_post {d : Dev} {ag : Agent} {v : Nat} {n : Fin 262144} (hn : v / 2 ^ (8 * 32) % 2 ^ (8 * 4) = n)
    (hrest : v / 2 ^ (8 * 36) % 2 ^ (8 * 28) = 0) :
    d.corePost ag (leBytes 64 v) = (d.post ag false n (leBytes 32 v) none).1 := by
  have hqueue : leAt (leBytes 64 v) 32 4 = n := by
    rw [leAt, leBytes_drop 32 32, leBytes_take 4 28, leNat_leBytes, ← pow_bytes, hn]
  have hzero : (leBytes 64 v).drop 36 = zeros 28 := by
    rw [leBytes_drop 36 28, ← leBytes_mod, hrest, leBytes_zero]
  have hzeros : (zeros 28).all (fun b => decide (b = 0)) = true := by decide
  rw [Dev.corePost, hqueue, hzero, leBytes_take 32 32, if_pos ⟨leBytes_length 64 v, n.isLt, hzeros⟩]

/-- A host write of 32 or 64 bytes at the start of the page is a post of its first 32 bytes. -/
theorem hostPost_post {d : Dev} {n : Nat} (long : Bool) (data : BitVec 512) (hlink : d.hostLinked = true)
    (hok : d.hostOk n = true) :
    d.hostPost n long data = (d.post .host false n (leBytes 32 data.toNat) none).1 := by
  cases long with
  | false =>
    have htake : (leBytes 32 data.toNat).take 32 = leBytes 32 data.toNat := leBytes_take 32 0 _
    simp [Dev.hostPost, hlink, Dev.hostWrite, hok, htake]
  | true =>
    have htake : (leBytes 64 data.toNat).take 32 = leBytes 32 data.toNat := leBytes_take 32 32 _
    simp [Dev.hostPost, hlink, Dev.hostWrite, hok, htake]

theorem hostPost_unlinked {d : Dev} {n : Nat} (long : Bool) (data : BitVec 512) (h : d.hostLinked = false) :
    d.hostPost n long data = d := by
  simp [Dev.hostPost, h]

theorem hostOk_iff (d : Dev) (n : Nat) :
    d.hostOk n = true ↔ n < d.nq ∧ (d.queue n).enabled = true ∧ (d.queue n).hostok = true := by
  simp [Dev.hostOk, and_assoc]

/-! ### The retry of a held post (R305) -/

theorem takeFirst_none {α : Type} {p : α → Bool} {l : List α} (h : ∀ x ∈ l, p x = false) : takeFirst p l = none := by
  induction l with
  | nil => rfl
  | cons x l ih =>
    simp [takeFirst, h x (by simp), ih (fun y hy => h y (List.mem_cons_of_mem x hy))]

theorem takeFirst_first {α : Type} {p : α → Bool} {x : α} (before after : List α) (hx : p x = true)
    (h : ∀ y ∈ before, p y = false) : takeFirst p (before ++ x :: after) = some (x, before ++ after) := by
  induction before with
  | nil => simp [takeFirst, hx]
  | cons y l ih =>
    simp [takeFirst, h y (by simp), ih (fun z hz => h z (List.mem_cons_of_mem y hz))]

theorem stalledPost_none {d : Dev} {n : Nat} (h : ∀ x ∈ d.q.held, x.queue ≠ n) : d.stalledPost n = d := by
  have hfirst : takeFirst (fun x : HeldPost => decide (x.queue = n)) d.q.held = none :=
    takeFirst_none (fun x hx => by simpa using h x hx)
  simp [Dev.stalledPost, Dev.retryHeld, hfirst]

section retry
variable {d : Dev} {n : Nat} {h : HeldPost} {rest : List HeldPost}
  (hfirst : takeFirst (fun x : HeldPost => decide (x.queue = n)) d.q.held = some (h, rest))
  (hen : (d.queue n).enabled = true)
include hfirst hen

theorem stalledPost_waits (hfull : (d.queue n).isFull = true) (hstall : (d.queue n).stall = true) : d.stalledPost n = d := by
  simp [Dev.stalledPost, Dev.retryHeld, hfirst, hen, hfull, hstall]

/-- The held post leaves the list, its wait is counted, and it is placed; nobody but the queue learns of it. -/
theorem stalledPost_placed (hfull : (d.queue n).isFull = false) (hjob : h.job = none) (hport : ∀ p, h.agent ≠ .fronthaul p)
    (d1 e : Dev) (hd1 : d1 = d.bumpBy (qmgCnt 2) (d.nsSince h.since)) (he : e = { d1 with q := { d1.q with held := rest } }) :
    d.stalledPost n = (e.placePost n h.desc).1 := by
  subst hd1
  have hretry : d.retryHeld n = ((e.placePost n h.desc).1, some (h, (e.placePost n h.desc).2)) := by
    simp [Dev.retryHeld, hfirst, hen, hfull, he]
  simp only [Dev.stalledPost, hretry, hjob]

end retry

/-- A command that places a descriptor in a queue that nothing follows, written out as the slot's write, PI and the counter. -/
theorem goes_placed {s : State} {i : Instr} {n v : Nat} {e : Dev} {q : Queue} (he : e.queue n = q) (hq : q.passive)
    (hi : s.goes i (e.placePost n (leBytes 32 v)).1)
    (hok : (e.memWrite .queueMgr (q.slotAddr q.pi) (leBytes 32 v)).2 = .ok) :
    s.goes i ((e.memWrite .queueMgr (q.slotAddr q.pi) (leBytes 32 v)).1.posted n q) := by
  subst he
  rwa [placePost_passive hq (leBytes_length 32 v) hok] at hi

/-- Settles O32: each post is the one operation `Dev.post` on the queue that its operands name, whose outcome the queue's state
decides; a held post is placed as a new one is. -/
theorem postsFillSlots : Obligations.PostsFillSlots := by
  intro s ag c n desc long data hclk hag d q f count plain full placed dropped inPost hostMay
  have hhw : s.goes (.queuePost ag n desc) (s.dev.post ag true n (leBytes 32 desc.toNat) none).1 :=
    goes_of_exec_unit (f := fun d => d.postHw ag n (leBytes 32 desc.toNat)) (checked_on _ _ hag) hclk
  have hcore : inPost → s.goes (.qmgPost c data) (s.dev.post (.core c) false n (leBytes 32 data.toNat) none).1 := by
    rintro ⟨hn, hrest⟩
    have h : s.goes (.qmgPost c data) (s.dev.corePost (.core c) (leBytes 64 data.toNat)) :=
      unit_on s (fun d => d.corePost (.core c) (leBytes 64 data.toNat)) hclk
    rwa [corePost_post hn hrest] at h
  have hhost : s.goes (.hostPost n long data) (s.dev.hostPost n long data) :=
    unit_on s (fun d => d.hostPost n long data) hclk
  have hstalled : s.goes (.stalledPost n) (s.dev.stalledPost n) := unit_on s (fun d => d.stalledPost n) hclk
  have hplaces (i : Instr) (e : Dev) (v : Nat) (he : e.queue n = q) (hplain : plain)
      (hi : s.goes i (e.placePost n (leBytes 32 v)).1) : placed i e v :=
    fun hok => goes_placed he hplain.2.2 hi hok
  have hbytes : leBytes 32 (f 0 32) = leBytes 32 data.toNat := by
    rw [leBytes_mod, Nat.mul_zero, Nat.pow_zero, Nat.div_one]
  have hfull (h : full) : q.isFull = true := decide_eq_true h
  have hroom (h : ¬ full) : q.isFull = false := decide_eq_false h
  have htouched : d.queue n = q := queue_qTouch s.dev n n true
  have hdrops : d.postDropped n = dropped d := by
    rw [Dev.postDropped, htouched]
    rfl
  have hmay (hplain : plain) (h : hostMay) :
      s.goes (.hostPost n long data) (s.dev.post .host false n (leBytes 32 data.toNat) none).1 := by
    obtain ⟨hlink, hn, hok⟩ := h
    rwa [hostPost_post long data hlink ((hostOk_iff _ _).mpr ⟨hn, hplain.1, hok⟩)] at hhost
  have hsoft (i : Instr) (ag : Agent) (hi : s.goes i (s.dev.post ag false n (leBytes 32 data.toNat) none).1) (hplain : plain) :
      (¬ full → placed i d (f 0 32)) ∧ (full → s.goes i (dropped d)) := by
    have ⟨hen, hpost, _⟩ := hplain
    refine ⟨fun hnot => ?_, fun hf => ?_⟩
    · rw [post_placed hen hpost (hroom hnot) (absurd · Bool.false_ne_true), hbytes.symm] at hi
      exact hplaces _ _ _ htouched hplain hi
    · rwa [post_dropped hen hpost (hfull hf) (absurd · Bool.false_ne_true), hdrops] at hi
  refine ⟨?_, ?_, ?_, ?_, ?_, ?_, ?_, ?_, ?_, ?_, ?_⟩
  · intro hplain hnot hnone
    have ⟨hen, hpost, _⟩ := hplain
    rw [post_placed hen hpost (hroom hnot) fun _ => hnone] at hhw
    exact hplaces _ _ _ htouched hplain hhw
  · rintro ⟨hen, hpost, -⟩ hf hstall
    rwa [post_waits hen hpost (hfull hf) hstall] at hhw
  · rintro ⟨hen, hpost, -⟩ hf hstall hnone
    rwa [post_dropped hen hpost (hfull hf) fun _ => ⟨hnone, hstall⟩, hdrops] at hhw
  · intro hen
    refine ⟨?_, fun hin => ?_⟩
    · rwa [post_disabled true hen] at hhw
    · have h := hcore hin
      rwa [post_disabled false hen] at h
  · exact fun hplain hin => (hsoft _ _ (hcore hin) hplain).1
  · exact fun hplain hin => (hsoft _ _ (hcore hin) hplain).2
  · exact fun hplain hm => (hsoft _ _ (hmay hplain hm) hplain).1
  · exact fun hplain hm => (hsoft _ _ (hmay hplain hm) hplain).2
  · intro hlink
    rwa [hostPost_unlinked long data hlink] at hhost
  · intro hnone
    rwa [stalledPost_none hnone] at hstalled
  · intro h before after hheld hqueue hbefore hplain hjob hport hlen
    have hfirst : takeFirst (fun x : HeldPost => decide (x.queue = n.val)) s.dev.q.held = some (h, before ++ after) := by
      rw [hheld]
      exact takeFirst_first before after (decide_eq_true hqueue) fun x hx => decide_eq_false (hbefore x hx)
    refine ⟨fun hf hstall => ?_, fun hnot => ?_⟩
    · rwa [stalledPost_waits hfirst hplain.1 (hfull hf) hstall] at hstalled
    · rw [stalledPost_placed hfirst hplain.1 (hroom hnot) hjob hport _ _ rfl rfl] at hstalled
      refine hplaces _ _ _ rfl hplain ?_
      rwa [← hlen, leBytes_leNat]

end Sys2Proof.Machine
end

section
/-!
PROOFS. Doorbells of cores and of the host, and HANDOVER to the first ready taker (R306 to R308, R312).
-/
namespace Sys2Proof.Machine

/-! ### Doorbells (R306, R307) -/

section doorbells
variable {d : Dev} {n : Nat} {v : BitVec 32}

theorem doorbellPi_disabled (h : (d.queue n).enabled = false) : d.doorbellPi n v = d.bump (qmgCnt 8) := by
  simp [Dev.doorbellPi, h]

theorem doorbellCi_disabled (h : (d.queue n).enabled = false) : d.doorbellCi n v = d.bump (qmgCnt 8) := by
  simp [Dev.doorbellCi, h]

variable (hen : (d.queue n).enabled = true)
include hen

/-- A producer doorbell within the free slots moves PI; where nothing follows, that is all it does. -/
theorem doorbellPi_moves (hpost : (d.queue n).post = false)
    (hroom : (v - (d.queue n).pi).toNat ≤ 2 ^ (d.queue n).log2n - (d.queue n).occ) (hq : (d.queue n).passive) :
    d.doorbellPi n v = (d.qTouch n true).setQueue n { d.queue n with pi := v } := by
  have hstays (e : Dev) (l : List Nat) (he : (e.queue n).passive) :
      l.foldl (fun e i => e.becomeVisible n ((d.queue n).pi + BitVec.ofNat 32 i)) e = e := by
    induction l with
    | nil => rfl
    | cons i l ih => rw [List.foldl_cons, becomeVisible_passive _ he, ih]
  simp only [Dev.doorbellPi, hen, hpost, Nat.not_lt.mpr hroom, Bool.not_true, Bool.false_or, decide_false, Bool.false_eq_true,
    if_false]
  exact hstays _ _ (by rw [Dev.queue_setQueue_same]; exact hq)

theorem doorbellPi_error
    (h : (d.queue n).post = true ∨ ¬ (v - (d.queue n).pi).toNat ≤ 2 ^ (d.queue n).log2n - (d.queue n).occ) :
    d.doorbellPi n v = (d.qTouch n true).dbError n := by
  rw [Nat.not_le] at h
  rcases h with h | h <;> simp [Dev.doorbellPi, hen, h, -BitVec.toNat_sub]

/-- A consumer doorbell within the occupancy moves CI and arms a queue that cores poll. -/
theorem doorbellCi_moves (hk : (d.queue n).ckind < 2) (hocc : (v - (d.queue n).ci).toNat ≤ (d.queue n).occ) :
    d.doorbellCi n v = (d.qTouch n true).setQueue n { d.queue n with ci := v, armed := true } := by
  have h2 : (d.queue n).ckind ≠ 2 := by omega
  have h3 : (d.queue n).ckind ≠ 3 := by omega
  have h4 : (d.queue n).ckind ≠ 4 := by omega
  simp [Dev.doorbellCi, hen, h2, h3, h4, Nat.not_lt.mpr hocc, -BitVec.toNat_sub]

theorem doorbellCi_error (h : (d.queue n).ckind = 3 ∨ (d.queue n).occ < (v - (d.queue n).ci).toNat) :
    d.doorbellCi n v = (d.qTouch n true).dbError n := by
  rcases h with h | h <;> simp [Dev.doorbellCi, hen, h, -BitVec.toNat_sub]

end doorbells

/-! ### Whose doorbell it is (R312) -/

/-- The doorbell is a core's, or the host's on a page that it may reach. -/
def Dev.mayRing (d : Dev) (n : Nat) (byHost : Bool) : Prop :=
  byHost = false ∨ (d.hostLinked = true ∧ n < d.nq ∧ (d.queue n).enabled = true ∧ (d.queue n).hostok = true)

section ringing
variable {d : Dev} {n : Nat} (f : Dev → Dev)

theorem ringBell_allowed {byHost : Bool} (h : d.mayRing n byHost) : d.ringBell n byHost f = f d := by
  rcases h with rfl | ⟨hlink, hok⟩
  · rfl
  · cases byHost
    · rfl
    · simp [Dev.ringBell, hlink, (hostOk_iff d n).mpr hok]

theorem ringBell_denied (hlink : d.hostLinked = true) (hok : (d.queue n).hostok = false) :
    d.ringBell n true f = d.bump (qmgCnt 11) := by
  simp [Dev.ringBell, hlink, Dev.hostOk, hok]

theorem ringBell_unlinked (hlink : d.hostLinked = false) : d.ringBell n true f = d := by
  simp [Dev.ringBell, hlink]

end ringing

/-! ### Handover (R307, R308) -/

section handover
variable {d : Dev} {n : Nat}

theorem handoverOne_none (h : ∀ t ∈ takers, d.takesFrom n t = false) : d.handoverOne n = d := by
  have hfind : takers.find? (d.takesFrom n) = none := List.find?_eq_none.mpr fun t ht => by simp [h t ht]
  simp [Dev.handoverOne, hfind]

section first
variable {before after : List Taker} {t : Taker} (htakers : takers = before ++ t :: after) (ht : d.takesFrom n t = true)
  (hbefore : ∀ x ∈ before, d.takesFrom n x = false)
include htakers ht hbefore

theorem firstTaker : takers.find? (d.takesFrom n) = some t := by
  have hskip : before.find? (d.takesFrom n) = none := List.find?_eq_none.mpr fun x hx => by simp [hbefore x hx]
  rw [htakers, List.find?_append, hskip, List.find?_cons_of_pos ht, Option.none_or]

theorem handoverOne_empty (h : (d.takeEntry n).2 = none) : d.handoverOne n = (d.takeEntry n).1 := by
  obtain ⟨d1, hd1⟩ : ∃ d1, d.takeEntry n = (d1, none) := ⟨_, Prod.ext rfl h⟩
  simp only [Dev.handoverOne, firstTaker htakers ht hbefore, hd1]

theorem handoverOne_gives {i : Nat} {e : List Byte} (h : (d.takeEntry n).2 = some (i, e)) :
    d.handoverOne n = (d.takeEntry n).1.giveTo t e := by
  obtain ⟨d1, hd1⟩ : ∃ d1, d.takeEntry n = (d1, some (i, e)) := ⟨_, Prod.ext rfl h⟩
  simp only [Dev.handoverOne, firstTaker htakers ht hbefore, hd1]

end first
end handover

/-! ### An engine that takes an entry (R166, R578) -/

@[simp] theorem unitJobs_cphDeny (d : Dev) (u : Nat) : (d.cphDeny u).unitJobs = d.unitJobs := Dev.unitJobs_eq rfl rfl

@[simp] theorem unitJobs_withTime (d : Dev) (t : TimeState) : ({ d with time := t } : Dev).unitJobs = d.unitJobs :=
  Dev.unitJobs_eq rfl rfl

@[simp] theorem unitJobs_wordRead (d : Dev) (ag : Agent) (a : Nat) : (d.wordRead ag a).1.unitJobs = d.unitJobs := by
  unfold Dev.wordRead
  split
  · exact unitJobs_cphDeny _ _
  · rfl

@[simp] theorem unitJobs_windowRead (d : Dev) (ag : Agent) (a n : Nat) : (d.windowRead ag a n).1.unitJobs = d.unitJobs := by
  unfold Dev.windowRead
  dsimp only
  rw [apply_ite Dev.unitJobs, unitJobs_withTime, ite_self]
  exact List.foldlRecOn (motive := fun acc : Dev × List Byte => acc.1.unitJobs = d.unitJobs) _ _ rfl
    fun acc hacc i _ => (unitJobs_wordRead acc.1 ag _).trans hacc

@[simp] theorem unitJobs_busRead (d : Dev) (ag : Agent) (a n : Nat) : (d.busRead ag a n).1.unitJobs = d.unitJobs := by
  unfold Dev.busRead
  dsimp only
  split <;> simp

@[simp] theorem unitJobs_readJob (d : Dev) (cls u : Nat) (e : List Byte) (check : List Byte → Nat) :
    (d.readJob cls u e check).1.unitJobs = d.unitJobs := by
  have hread (a n : Nat) := unitJobs_busRead d (engAgent cls u) a n
  unfold Dev.readJob
  dsimp only
  split
  · rfl
  · split
    · rfl
    · split
      · rfl
      · split <;> split <;> simp_all

@[simp] theorem unitJobs_markStarted (d : Dev) (cls u k : Nat) : (d.markStarted cls u k).unitJobs = d.unitJobs :=
  Dev.unitJobs_eq rfl rfl

theorem becomeRunning_runs (d : Dev) (cls u : Nat) (j : EJob) : ((d.becomeRunning cls u j).eng cls u).run.isSome = true := by
  unfold Dev.becomeRunning
  dsimp only
  split <;> simp

/-- An engine without a running job runs the job that it takes. -/
theorem startJob_runs {d : Dev} {cls u : Nat} (j : EJob) (hcls : cls < 5) (hfree : (d.eng cls u).run = none) :
    ((d.startJob cls u j).eng cls u).run.isSome = true := by
  unfold Dev.startJob
  rw [if_neg (by omega : cls ≠ 5)]
  split
  · exact becomeRunning_runs _ _ _ _
  next j' hrun =>
    rw [Dev.eng_of_unitJobs (d := d), hfree] at hrun
    · cases hrun
    · cases j.smilda <;> simp [apply_ite Dev.unitJobs]

theorem giveTo_engine_runs {d : Dev} {cls u : Nat} (e : List Byte) (hcls : cls < 5) (hfree : (d.eng cls u).run = none) :
    ((d.giveTo (.engine cls u) e).eng cls u).run.isSome = true := by
  rw [← Dev.eng_of_unitJobs (unitJobs_readJob d cls u e (classCheck cls))] at hfree
  exact startJob_runs (d.readJob cls u e (classCheck cls)).2 hcls hfree

/-- Settles O33: a doorbell whose sender may ring it moves its index or is an error, by the queue alone; the first ready taker gets
the entry that the queue gives up, and an idle engine runs the job it makes of it. -/
theorem doorbellsAndHandover : Obligations.DoorbellsAndHandover := by
  intro s n byHost v hclk d q count error may room
  have hpi : s.goes (.producerDoorbell n byHost v) (s.dev.ringBell n byHost (fun d => d.doorbellPi n v)) :=
    unit_on s (fun d => d.ringBell n byHost (fun d => d.doorbellPi n v)) hclk
  have hci : s.goes (.consumerDoorbell n byHost v) (s.dev.ringBell n byHost (fun d => d.doorbellCi n v)) :=
    unit_on s (fun d => d.ringBell n byHost (fun d => d.doorbellCi n v)) hclk
  have hhand : s.goes (.handover n) (s.dev.handoverOne n) := unit_on s (fun d => d.handoverOne n) hclk
  have hpiMay (h : may) : s.goes (.producerDoorbell n byHost v) (s.dev.doorbellPi n v) := by
    rwa [ringBell_allowed _ h] at hpi
  have hciMay (h : may) : s.goes (.consumerDoorbell n byHost v) (s.dev.doorbellCi n v) := by
    rwa [ringBell_allowed _ h] at hci
  have herror : d.dbError n = error := by
    rw [Dev.dbError, queue_qTouch]
    rfl
  refine ⟨?_, ?_, ?_, ?_, ?_, ?_, ?_, ?_, ?_⟩
  · intro hmay hen
    have hp := hpiMay hmay
    have hc := hciMay hmay
    rw [doorbellPi_disabled hen] at hp
    rw [doorbellCi_disabled hen] at hc
    exact ⟨hp, hc⟩
  · intro hmay hen hpost hroom htoken hhost
    have hp := hpiMay hmay
    rwa [doorbellPi_moves hen hpost hroom ⟨htoken, hhost⟩] at hp
  · intro hmay hen h
    have hp := hpiMay hmay
    rwa [doorbellPi_error hen h, herror] at hp
  · intro hmay hen hk hocc
    have hc := hciMay hmay
    rwa [doorbellCi_moves hen hk hocc] at hc
  · intro hmay hen h
    have hc := hciMay hmay
    rwa [doorbellCi_error hen h, herror] at hc
  · rintro rfl hlink - - hok
    rw [ringBell_denied _ hlink hok] at hpi hci
    exact ⟨hpi, hci⟩
  · rintro rfl hlink
    rw [ringBell_unlinked _ hlink] at hpi hci
    exact ⟨hpi, hci⟩
  · intro hnone
    rwa [handoverOne_none hnone] at hhand
  · intro before after t htakers ht hbefore taken
    refine ⟨fun hempty => ?_, fun i e hentry => ⟨_, ?_, rfl, ?_, ?_⟩⟩
    · rwa [handoverOne_empty htakers ht hbefore hempty] at hhand
    · rwa [handoverOne_gives htakers ht hbefore hentry] at hhand
    · rintro k rfl
      rfl
    · rintro cls u rfl hcls hfree
      exact giveTo_engine_runs e hcls hfree

end Sys2Proof.Machine
end

section
/-!
PROOFS. What no post, access of memory or trace record touches: a view of the device that counters and interrupt bits outside its
windows, memories, queues, observation, free values and tokens leave alone (R304, R307, R342 to R351, R541).
-/
namespace Sys2Proof.Machine

/-- The windows in which posts, accesses of memory and trace records count and raise interrupts: the queue manager's, and those
from the memory controllers' on. -/
def countWindow (a : Nat) : Prop := (qmgBase ≤ a ∧ a < bmvBase 0) ∨ memBase ≤ a

/-- A view of the device that does not look where posts, accesses of memory and trace records write. -/
structure Aloof {β : Type} (f : Dev → β) : Prop where
  setReg : ∀ (d : Dev) (a : Nat) (v : BitVec 32), countWindow a → f (d.setReg a v) = f d
  mem : ∀ (d : Dev) (m : MemState), f { d with mem := m } = f d
  q : ∀ (d : Dev) (q : QueueState), f { d with q := q } = f d
  obs : ∀ (d : Dev) (o : ObsState), f { d with obs := o } = f d
  fresh : ∀ (d : Dev) (n : Nat), f { d with fresh := n } = f d
  tokens : ∀ (d : Dev) (ts : List InTok), f { d with smd := { d.smd with tokens := ts } } = f d

theorem foldl_unseen {α β : Type} {f : Dev → β} (g : Dev → α → Dev) (hg : ∀ d x, f (g d x) = f d) (l : List α) (d : Dev) :
    f (l.foldl g d) = f d :=
  List.foldlRecOn (motive := fun d' => f d' = f d) l g rfl (fun d' hd' x _ => (hg d' x).trans hd')

namespace Aloof
variable {β : Type} {f : Dev → β} (hf : Aloof f)
include hf

/-! ### Counters, interrupt bits and tables -/

theorem setBits {a : Nat} (d : Dev) (b : Nat) (h : countWindow a) : f (d.setBits a b) = f d := hf.setReg d a _ h

theorem bump {a : Nat} (d : Dev) (h : countWindow a) (h4 : countWindow (a + 4)) : f (d.bump a) = f d :=
  (hf.setReg _ (a + 4) _ h4).trans (hf.setReg d a _ h)

theorem memCnt (d : Dev) (i : Nat) : f (d.bump (Machine.memCnt i)) = f d :=
  hf.bump d (.inr (by simp only [Machine.memCnt]; omega)) (.inr (by simp only [Machine.memCnt]; omega))

theorem memBits (d : Dev) (o b : Nat) : f (d.setBits (memBase + o) b) = f d := hf.setBits d b (.inr (Nat.le_add_right _ _))

theorem qmgCnt (d : Dev) (i : Nat) (h : i < 16) : f (d.bump (Machine.qmgCnt i)) = f d :=
  hf.bump d (.inl (by simp only [Machine.qmgCnt, qmgBase, bmvBase]; omega))
    (.inl (by simp only [Machine.qmgCnt, qmgBase, bmvBase]; omega))

theorem qmgInt (d : Dev) (b : Nat) : f (d.qmgInt b) = f d :=
  hf.setBits d _ (.inl (by simp only [qmgBase, bmvBase]; omega))

theorem setQueue (d : Dev) (n : Nat) (q : Queue) : f (d.setQueue n q) = f d := hf.q d _

theorem used (d : Dev) : f d.used = f d := hf.fresh d _

theorem errAddr (d : Dev) (a : Option Nat) : f (d.errAddr a).1 = f d := by
  cases a with
  | none => exact hf.used d
  | some x => rfl

/-! ### Accesses of memory (R342 to R351) -/

theorem logEvent (d : Dev) (r : Region) (a : Nat) (e : LogEvent) : f (d.logEvent r a e) = f d := by
  simp only [Dev.logEvent, apply_ite f, hf.memBits, hf.memCnt, hf.mem, ite_self]

theorem unfilter (d : Dev) (a : Nat) : f (d.unfilter a) = f d := hf.mem d _

theorem ueLine (d : Dev) (r : Region) (l s q : Nat) : f (d.ueLine r l s q) = f d := by
  simp only [Dev.ueLine, hf.logEvent, hf.memBits, hf.memCnt, hf.mem]

theorem ceLine (d : Dev) (r : Region) (l : Nat) (v : Verdict) (s q : Nat) : f (d.ceLine r l v s q) = f d := by
  cases v <;> simp only [Dev.ceLine, Dev.logGroup, hf.logEvent, hf.memCnt]

theorem pwPoison (d : Dev) (r : Region) (l q : Nat) : f (d.pwPoison r l q) = f d := by
  simp only [Dev.pwPoison, Dev.logPlain, hf.logEvent, hf.memBits, hf.memCnt]

theorem readSram (d : Dev) (ag : Agent) (r : Region) (l : Nat) : f (d.readSram ag r l).1 = f d := by
  unfold Dev.readSram
  split <;> simp only [hf.memCnt, hf.ueLine, hf.ceLine]

theorem writeSram (d : Dev) (ag : Agent) (r : Region) (l off : Nat) (bs : List Byte) :
    f (d.writeSram ag r l off bs).1 = f d := by
  unfold Dev.writeSram
  split
  · simp only [hf.unfilter, hf.mem]
  · dsimp only
    split <;> simp only [hf.unfilter, hf.mem, hf.pwPoison, hf.ueLine, hf.ceLine, hf.memCnt]

theorem ueOctet (d : Dev) (l s q : Nat) : f (d.ueOctet l s q) = f d := by
  simp only [Dev.ueOctet, hf.logEvent, hf.memBits, hf.memCnt, hf.mem]

theorem ceOctet (d : Dev) (l : Nat) (v : Verdict) (s q : Nat) : f (d.ceOctet l v s q) = f d := by
  cases v <;> simp only [Dev.ceOctet, Dev.logGroup, hf.logEvent, hf.memCnt]

theorem fetchDdr (d : Dev) (l s q : Nat) : f (d.fetchDdr l s q).1 = f d := by
  unfold Dev.fetchDdr
  split
  · rfl
  · split
    · rfl
    · split <;> simp only [hf.ueOctet, hf.ceOctet]

theorem readDdr (d : Dev) (ag : Agent) (l : Nat) : f (d.readDdr ag l).1 = f d := by
  have hfetch := hf.fetchDdr d l 0 ag.word
  unfold Dev.readDdr
  dsimp only
  split
  · split
    · rfl
    · split <;> simp_all [hf.memCnt]
  · split <;> simp_all [hf.memCnt]

theorem clcAccess (d : Dev) (o : Nat) : f (d.clcAccess o) = f d := by
  unfold Dev.clcAccess
  split
  · simp only [hf.memCnt, hf.mem]
  · dsimp only
    rw [hf.mem]
    split <;> simp only [hf.used, hf.memCnt]

theorem flushLine (d : Dev) (e : CombEntry) (u : Nat) : f (d.flushLine e u) = f d := by
  have hfetch := hf.fetchDdr (d.bump (Machine.memCnt 9)) (8 * e.octet + u) 2 e.req
  rw [hf.memCnt] at hfetch
  unfold Dev.flushLine
  dsimp only
  split
  · rfl
  · split
    next heq =>
      rw [heq] at hfetch
      exact (hf.mem _ _).trans hfetch
    next heq =>
      rw [heq] at hfetch
      split
      · exact (hf.mem _ _).trans hfetch
      · exact (hf.pwPoison _ _ _ _).trans hfetch

theorem flushEntry (d : Dev) (e : CombEntry) : f (d.flushEntry e) = f d := by
  unfold Dev.flushEntry
  dsimp only
  split
  · rw [hf.unfilter, hf.memCnt, hf.mem]
  · rw [hf.unfilter, foldl_unseen _ (fun d u => hf.flushLine d e u), hf.clcAccess, hf.mem]

theorem writeDdr (d : Dev) (ag : Agent) (l off : Nat) (bs : List Byte) : f (d.writeDdr ag l off bs) = f d := by
  unfold Dev.writeDdr
  dsimp only
  rw [hf.mem]
  split
  · rfl
  · rw [hf.mem]
    split
    · split
      · exact hf.flushEntry _ _
      · rfl
    · rfl

theorem readLine (d : Dev) (ag : Agent) (a n : Nat) : f (d.readLine ag a n).1 = f d := by
  have hd := hf.readDdr d ag ((d.locate ag a).2 / 64)
  have hs := hf.readSram d ag (d.locate ag a).1 ((d.locate ag a).2 / 64)
  unfold Dev.readLine
  dsimp only
  split
  · rfl
  · rfl
  · split <;> simp_all
  · split <;> simp_all

theorem writeLine (d : Dev) (ag : Agent) (a : Nat) (bs : List Byte) : f (d.writeLine ag a bs).1 = f d := by
  have hs := hf.writeSram d ag (d.locate ag a).1 ((d.locate ag a).2 / 64) ((d.locate ag a).2 % 64) bs
  unfold Dev.writeLine
  dsimp only
  split
  · rfl
  · rfl
  · exact hf.writeDdr _ _ _ _ _
  · split <;> simp_all

theorem readPiece (ag : Agent) (a : Nat) (acc : Dev × RResp) (p : Nat × Nat) :
    f (Machine.readPiece ag a acc p).1 = f acc.1 := by
  obtain ⟨d, r⟩ := acc
  cases r with
  | ok bs =>
    have hline := hf.readLine d ag (a + p.1) p.2
    unfold Machine.readPiece
    dsimp only
    split <;> simp_all
  | decode x => rfl
  | poison x => rfl

theorem memRead (d : Dev) (ag : Agent) (a n : Nat) : f (d.memRead ag a n).1 = f d := by
  rw [memRead_pieces]
  exact List.foldlRecOn (motive := fun acc : Dev × RResp => f acc.1 = f d) _ _ rfl
    fun acc hacc p _ => (hf.readPiece ag a acc p).trans hacc

theorem memWrite (d : Dev) (ag : Agent) (a : Nat) (bs : List Byte) : f (d.memWrite ag a bs).1 = f d := by
  rw [memWrite_pieces]
  exact List.foldlRecOn (motive := fun acc : Dev × WResp => f acc.1 = f d) _ _ rfl
    fun acc hacc p _ => (hf.writeLine acc.1 ag (a + p.1) ((bs.drop p.1).take p.2)).trans hacc

/-! ### Trace (R541, R542) -/

theorem tracePush (d : Dev) (r : TraceRec) : f (d.tracePush r) = f d := by
  have hdrop (d : Dev) : f (d.setBits (obsBase + 0x10) 1) = f d :=
    hf.setBits d 1 (.inr (by simp only [memBase, obsBase]; omega))
  have hcount (d : Dev) (i n : Nat) : f (d.obsCount i n) = f d := hf.obs d _
  unfold Dev.tracePush
  dsimp only
  split
  · rw [hf.obs, hcount]
  · rw [hf.obs, hdrop, hcount]

theorem trace (d : Dev) (kind unit data : Nat) : f (d.trace kind unit data) = f d := by
  have hover (d : Dev) : f d.traceOverflow = f d := by
    unfold Dev.traceOverflow
    split
    · exact (hf.tracePush _ _).trans (hf.obs d _)
    · rfl
  simp only [Dev.trace, apply_ite f, hf.tracePush, hover, ite_self]

/-! ### Posts (R304, R307) -/

theorem sendMsix (d : Dev) (v : Nat) : f (d.sendMsix v) = f d := by
  unfold Dev.sendMsix
  split
  · exact hf.setBits d _ (.inr (by simp only [memBase, supBase]; omega))
  · exact hf.q d _

theorem sendToken (d : Dev) (t : InTok) : f (d.sendToken t) = f d := hf.tokens d _

theorem tokenPoison (d : Dev) : f d.tokenPoison = f d :=
  (hf.qmgCnt _ 10 (by decide)).trans (hf.qmgInt d 4)

theorem qTouch (d : Dev) (q : Nat) (count : Bool) : f (d.qTouch q count) = f d := by
  unfold Dev.qTouch
  dsimp only
  split
  · rfl
  · simp only [hf.q, apply_ite Prod.fst, apply_ite f, hf.used, hf.qmgCnt _ 9 (by decide), ite_self]

theorem becomeVisible (d : Dev) (qn : Nat) (i : BitVec 32) : f (d.becomeVisible qn i) = f d := by
  have hread := hf.memRead d .queueMgr ((d.queue qn).slotAddr i) 8
  have hsent (d : Dev) (t : InTok) : f ((d.sendToken t).bump (Machine.qmgCnt 3)) = f d :=
    (hf.qmgCnt _ 3 (by decide)).trans (hf.sendToken d t)
  unfold Dev.becomeVisible
  dsimp only
  split
  · split
    · exact hsent d _
    · split <;> simp only [hsent, hf.tokenPoison, hf.setQueue, hread]
  · split
    · rw [hf.sendMsix, hf.setQueue]
    · rfl

theorem placePost (d : Dev) (qn : Nat) (desc : List Byte) : f (d.placePost qn desc).1 = f d := by
  have hw := hf.memWrite d .queueMgr ((d.queue qn).slotAddr (d.queue qn).pi) (padTo 32 desc)
  unfold Dev.placePost
  dsimp only
  split
  next heq =>
    rw [heq] at hw
    rw [hf.becomeVisible, hf.qmgCnt _ 0 (by decide), hf.setQueue, hw]
  next heq =>
    rw [heq] at hw
    rw [hf.qmgCnt _ 12 (by decide), hf.qmgInt, hf.setQueue, hw]

theorem post (d : Dev) (ag : Agent) (hw : Bool) (qn : Nat) (desc : List Byte) (job : Option (Nat × Nat × Nat)) :
    f (d.post ag hw qn desc job).1 = f d := by
  unfold Dev.post
  dsimp only
  split
  · exact hf.qmgCnt d 8 (by decide)
  · split
    · rw [hf.qmgCnt _ 7 (by decide), hf.qmgInt, hf.qTouch]
    · split
      · exact (hf.q _ _).trans (hf.qTouch d qn true)
      · split
        · rw [hf.qmgCnt _ 1 (by decide), hf.qmgInt, hf.setQueue, hf.qTouch]
        · rw [hf.placePost, hf.qTouch]

theorem postHw (d : Dev) (ag : Agent) (qn : Nat) (desc : List Byte) : f (d.postHw ag qn desc) = f d :=
  hf.post d ag true qn desc none

end Aloof
end Sys2Proof.Machine
end

section
/-!
PROOFS. Movers: PAUSE, RESUME and ABORT of a channel, how a job's end is booked and reported, the choice of a channel, a burst and
a completion (R315, R318, R322, R323, R326 to R329).
-/
namespace Sys2Proof.Machine

/-! ### Channels -/

theorem chan_setChan_other (d : Dev) {m k u j : Nat} (c : Chan) (h : u ≠ m ∨ j ≠ k) :
    (d.setChan m k c).chan u j = d.chan u j := by
  rw [Dev.chan, Dev.setChan]
  by_cases hu : u = m
  · subst hu
    rw [Dev.mover_setMover_same]
    exact Tab.get_put_other _ _ _ (h.resolve_left (· rfl))
  · rw [Dev.mover_setMover_other _ _ hu]
    rfl

/-! ### PAUSE, RESUME and ABORT (R326 to R328) -/

section commands
variable {d : Dev} {m k : Nat}

theorem chanIssued_iff : d.chanIssued m k = true ↔ (parseMv (d.chanBytes m k)).total ≤ (d.chan m k).pos := decide_eq_true_iff

theorem chanPause_ready (h : (d.chan m k).st = .ready) :
    d.chanPause m k = (d.setChan m k { d.chan m k with st := .paused }).bump (bmvCnt m 4) := by
  simp only [Dev.chanPause, h]

theorem chanPause_running (h : (d.chan m k).st = .running) (hend : (d.chan m k).ending = none)
    (hmore : d.chanIssued m k = false) :
    d.chanPause m k = (d.setChan m k { d.chan m k with st := .pausing }).bump (bmvCnt m 4) := by
  simp [Dev.chanPause, h, hend, hmore]

theorem chanPause_late (h : (d.chan m k).st = .running) (hend : (d.chan m k).ending = none)
    (hissued : d.chanIssued m k = true) :
    d.chanPause m k = (d.setChan m k { d.chan m k with pauseLate := true }).bump (bmvCnt m 5) := by
  simp [Dev.chanPause, h, hend, hissued]

theorem chanPause_other (h : (d.chan m k).st = .idle ∨ (d.chan m k).st = .paused ∨ (d.chan m k).st = .pausing) :
    d.chanPause m k = d := by
  rcases h with h | h | h <;> simp only [Dev.chanPause, h]

theorem chanResume_paused (h : (d.chan m k).st = .paused) : d.chanResume m k = d.setChan m k { d.chan m k with st := .ready } :=
  if_pos h

theorem chanResume_other (h : (d.chan m k).st ≠ .paused) : d.chanResume m k = d := if_neg h

theorem chanPaused_pausing (h : (d.chan m k).st = .pausing) (hend : (d.chan m k).ending = none) :
    d.chanPaused m k
      = (d.setChan m k { d.chan m k with st := .paused }).bumpBy (bmvCnt m 8) (d.nsSince (d.chan m k).start) := by
  simp [Dev.chanPaused, h, hend]

theorem chanPaused_other (h : (d.chan m k).st ≠ .pausing) : d.chanPaused m k = d := by
  simp [Dev.chanPaused, h]

theorem chanAbort_idle (r : Bool) (h : (d.chan m k).st = .idle) : d.chanAbort m k r = d := by
  simp only [Dev.chanAbort, h]

theorem chanAbort_waiting (r : Bool) (h : (d.chan m k).st = .ready ∨ (d.chan m k).st = .paused)
    (hend : (d.chan m k).ending = none) : d.chanAbort m k r = d.chanFail m k 0x21 none := by
  rcases h with h | h <;> simp only [Dev.chanAbort, h, hend]

theorem chanAbort_late (h : (d.chan m k).st = .running ∨ (d.chan m k).st = .pausing) (hend : (d.chan m k).ending = none)
    (hissued : d.chanIssued m k = true) : d.chanAbort m k true = d.setChan m k { d.chan m k with abortLate := true } := by
  rcases h with h | h <;> simp [Dev.chanAbort, h, hend, hissued]

theorem chanAbort_marks {r : Bool} (h : (d.chan m k).st = .running ∨ (d.chan m k).st = .pausing)
    (hend : (d.chan m k).ending = none) (hmore : d.chanIssued m k = false ∨ r = false) :
    d.chanAbort m k r = d.setChan m k { d.chan m k with ending := some (0x21, none) } := by
  rcases h with h | h <;> rcases hmore with hmore | hmore <;> simp [Dev.chanAbort, h, hend, hmore]

end commands

/-! ### How a job's end is booked (R322, R323, R335) -/

/-- The registers, counters and trace record of a job's end, with the address that it reports: what `Dev.chanDeliver` does before
it sends the completion. -/
def Dev.chanBooked (d : Dev) (m k status : Nat) (addr : Option Nat) : Dev × Nat :=
  let c := d.chan m k
  let ok := isSuccess status
  let handle := match d.chanJob m k with | some j => handleOf j.inst j.gen | none => 0
  let node := match d.chanJob m k with | some j => j.node | none => 0
  let dst := (parseMv (d.chanBytes m k)).dst
  let d := d.setRegN (bmvCh m k 0x14) status
  let (d, ea) := if ok then (d, dst) else d.errAddr addr
  let d := if ok then d else ((d.setReg64 (bmvCh m k 0x18) ea).bmvInt m 0).bump (bmvCnt m 2)
  let d := if status = 1 then (d.bmvInt m 1).bump (bmvCnt m 3) else d
  let d := if c.abortLate then (d.bmvInt m 2).bump (bmvCnt m 7) else d
  let d := if status = 0x21 then d.bump (bmvCnt m 6) else d
  let d := d.bump (bmvCnt m 0)
  let d := if c.holds then d.bumpBy (bmvCnt m 8) (d.nsSince c.start) else d
  (d.trace 4 0 (jobTrace handle node 8 m true true status), ea)

/-- The completion word of a job that came from Smilda goes there. -/
def Dev.cplSent (d : Dev) (smilda : Bool) (w : Cpl) : Dev :=
  if smilda then { d with smd := { d.smd with cpls := d.smd.cpls ++ [w] } } else d

/-- The completion record is posted where one is wanted. -/
def Dev.cplPosted (d : Dev) (m : Nat) (md : MvDesc) (wanted : Bool) (word crc ea : Nat) : Dev :=
  if wanted then d.postHw (.mover m) md.cplQ
    (leBytes 8 md.user ++ leBytes 4 (word >>> 32) ++ leBytes 4 (crc % 2 ^ 32) ++ leBytes 8 d.now ++ leBytes 8 ea)
  else d

/-- The completion word of a channel's job. -/
def Chan.word (c : Chan) (crc status : Nat) (valid pass : Bool) : Nat :=
  mvWord crc status valid pass c.abortLate c.pauseLate c.pos

/-- What `Dev.chanDeliver` does before the channel is idle. -/
def Dev.chanReported (d : Dev) (m k status : Nat) (addr : Option Nat) (crc : Nat) (valid pass : Bool) : Dev :=
  let c := d.chan m k
  let md := parseMv (d.chanBytes m k)
  let w := c.word crc status valid pass
  let booked := d.chanBooked m k status addr
  (booked.1.cplSent c.smilda ⟨8, m, k, w, status⟩).cplPosted m md (md.cplV && !c.badEntry) w crc booked.2

theorem chanDeliver_eq (d : Dev) (m k status : Nat) (addr : Option Nat) (crc : Nat) (valid pass : Bool) :
    d.chanDeliver m k status addr crc valid pass
      = (d.chanReported m k status addr crc valid pass).setChan m k
          { (d.chanReported m k status addr crc valid pass).chan m k with st := .idle } := by
  rw [Dev.chanDeliver]
  rfl

theorem chanDeliver_idle (d : Dev) (m k status : Nat) (addr : Option Nat) (crc : Nat) (valid pass : Bool) :
    ((d.chanDeliver m k status addr crc valid pass).chan m k).st = .idle := by
  rw [chanDeliver_eq, Dev.chan_setChan_same]

/-- A view that sees none of a mover's registers but the status words finds the job's end booked in those alone. -/
theorem booked_view {β : Type} {f : Dev → β} (hf : Aloof f) {m : Nat}
    (hown : ∀ (d : Dev) (o : Nat) (v : BitVec 32), o % 32 ≠ 20 ∨ 0x400 ≤ o ∧ o < 0x8000 → f (d.setReg (bmvBase m + o) v) = f d)
    (d : Dev) (k status : Nat) (addr : Option Nat) :
    f (d.chanBooked m k status addr).1 = f (d.setRegN (bmvCh m k 0x14) status) := by
  have hint (d : Dev) (b : Nat) : f (d.bmvInt m b) = f d := hown d 0x10 _ (.inl (by decide))
  have h64 (d : Dev) (o v : Nat) (h : o % 32 = 24 ∨ 0x400 ≤ o ∧ o < 0x7000) : f (d.setReg64 (bmvBase m + o) v) = f d := by
    have hlo := hown d o (BitVec.ofNat 32 v) (by omega)
    have hhi (d : Dev) := hown d (o + 4) (BitVec.ofNat 32 (v >>> 32)) (by omega)
    exact (hhi _).trans hlo
  have hcnt (d : Dev) (i n : Nat) (hi : i < 16) : f (d.bumpBy (bmvCnt m i) n) = f d := by
    rw [Dev.bumpBy, bmvCnt, Nat.add_assoc, h64 _ _ _ (.inr (by omega))]
  have hone (d : Dev) (i : Nat) (hi : i < 16) : f (d.bump (bmvCnt m i)) = f d := hcnt d i 1 hi
  have haddr (d : Dev) (v : Nat) : f (d.setReg64 (bmvCh m k 0x18) v) = f d := by
    rw [bmvCh, Nat.add_assoc, Nat.add_assoc, h64 _ _ _ (.inl (by omega))]
  simp only [Dev.chanBooked, hf.trace, apply_ite f, apply_ite Prod.fst, hint, hcnt _ 8 _ (by decide : 8 < 16),
    hone _ 0 (by decide), hone _ 2 (by decide), hone _ 3 (by decide), hone _ 6 (by decide), hone _ 7 (by decide), haddr,
    hf.errAddr, ite_self]

/-! ### What a job's end reports -/

/-- The status words of channels lie in no window that posts count in. -/
theorem aloof_status (m : Fin 32) (k : Fin 16) : Aloof (fun d => d.reg (bmvCh m k 0x14)) where
  setReg d a v h := Dev.reg_setReg_other d v (by
    have hm := m.isLt
    have hk := k.isLt
    simp only [countWindow, qmgBase, memBase, bmvCh, bmvBase] at h ⊢
    omega)
  mem _ _ := rfl
  q _ _ := rfl
  obs _ _ := rfl
  fresh _ _ := rfl
  tokens _ _ := rfl

/-- Completion words stand in no register, memory or queue. -/
theorem aloof_cpls : Aloof (fun d => d.smd.cpls) := ⟨fun _ _ _ _ => rfl, fun _ _ => rfl, fun _ _ => rfl, fun _ _ => rfl,
  fun _ _ => rfl, fun _ _ => rfl⟩

theorem cplPosted_view {β : Type} {f : Dev → β} (hf : Aloof f) (d : Dev) (m : Nat) (md : MvDesc) (wanted : Bool)
    (word crc ea : Nat) : f (d.cplPosted m md wanted word crc ea) = f d := by
  unfold Dev.cplPosted
  split
  · exact hf.postHw _ _ _ _
  · rfl

/-- The channel's status word shows how its job ended. -/
theorem chanDeliver_status (d : Dev) (m : Fin 32) (k : Fin 16) (status : Nat) (addr : Option Nat) (crc : Nat)
    (valid pass : Bool) : (d.chanDeliver m k status addr crc valid pass).reg (bmvCh m k 0x14) = BitVec.ofNat 32 status := by
  have hposted := cplPosted_view (aloof_status m k)
  have hbooked := booked_view (aloof_status m k) (m := m) (fun d o v ho => Dev.reg_setReg_other d v (by
    simp only [bmvCh]
    omega))
  have hsent (d : Dev) (smilda : Bool) (w : Cpl) : (d.cplSent smilda w).reg (bmvCh m k 0x14) = d.reg (bmvCh m k 0x14) := by
    cases smilda <;> rfl
  calc (d.chanDeliver m k status addr crc valid pass).reg (bmvCh m k 0x14)
      = (d.chanReported m k status addr crc valid pass).reg (bmvCh m k 0x14) := by rw [chanDeliver_eq]; rfl
    _ = (d.chanBooked m k status addr).1.reg (bmvCh m k 0x14) := (hposted _ _ _ _ _ _ _).trans (hsent _ _ _)
    _ = (d.setRegN (bmvCh m k 0x14) status).reg (bmvCh m k 0x14) := hbooked d k status addr
    _ = BitVec.ofNat 32 status := Dev.reg_setReg_same _ _ _

/-- The completion word of a job that came from Smilda is the last one on its way there. -/
theorem chanDeliver_cpls (d : Dev) (m k : Nat) (status : Nat) (addr : Option Nat) (crc : Nat) (valid pass : Bool)
    (h : (d.chan m k).smilda = true) : (d.chanDeliver m k status addr crc valid pass).smd.cpls
      = d.smd.cpls ++ [⟨8, m, k, (d.chan m k).word crc status valid pass, status⟩] := by
  have hposted := cplPosted_view aloof_cpls
  have hbooked : (d.chanBooked m k status addr).1.smd.cpls = d.smd.cpls :=
    booked_view aloof_cpls (fun _ _ _ _ => rfl) d k status addr
  calc (d.chanDeliver m k status addr crc valid pass).smd.cpls
      = (d.chanReported m k status addr crc valid pass).smd.cpls := by rw [chanDeliver_eq]; rfl
    _ = ((d.chanBooked m k status addr).1.cplSent true ⟨8, m, k, (d.chan m k).word crc status valid pass, status⟩).smd.cpls := by
      rw [← h]
      exact hposted _ _ _ _ _ _ _
    _ = _ := by rw [Dev.cplSent, if_pos rfl, hbooked]

/-- A job that ends with an error or ABORTED reports so and leaves its channel idle. -/
theorem chanFail_ends (d : Dev) (m : Fin 32) (k : Fin 16) (status : Nat) (addr : Option Nat) :
    ((d.chanFail m k status addr).chan m k).st = .idle
      ∧ (d.chanFail m k status addr).reg (bmvCh m k 0x14) = BitVec.ofNat 32 status :=
  ⟨chanDeliver_idle _ _ _ _ _ _ _ _, chanDeliver_status _ m k status addr _ _ _⟩

/-- Settles O34: each command is one operation on its channel, whose state decides what it does; a waiting job that is aborted
ends as every failed job does. -/
theorem channelCommands : Obligations.ChannelCommands := by
  intro s m k on r hclk d c count issued
  have hpause : s.goes (.pause m k) (d.chanPause m k) := engReg_on s 8 m (fun d => d.chanPause m k) hclk
  have hresume : s.goes (.resume m k) (d.chanResume m k) := engReg_on s 8 m (fun d => d.chanResume m k) hclk
  have habort : s.goes (.abort m k r) (d.chanAbort m k r) := engReg_on s 8 m (fun d => d.chanAbort m k r) hclk
  have hpaused : s.goes (.channelPaused m k) (s.dev.chanPaused m k) := unit_on s (fun d => d.chanPaused m k) hclk
  have henable : s.goes (.bmvEnable m on) (d.bmvEnable m on) := engReg_on s 8 m (fun d => d.bmvEnable m on) hclk
  have hmore (h : ¬ issued) : d.chanIssued m k = false := decide_eq_false h
  refine ⟨?_, ?_, ?_, ?_, ?_, ?_, ?_, ?_, ?_, ?_, ⟨?_, ?_⟩, ?_⟩
  · intro h
    rwa [chanPause_ready h] at hpause
  · intro h hend hnot
    rwa [chanPause_running h hend (hmore hnot)] at hpause
  · intro h hend hissued
    rwa [chanPause_late h hend (chanIssued_iff.mpr hissued)] at hpause
  · intro h
    rwa [chanPause_other h] at hpause
  · intro h
    rwa [chanResume_paused h] at hresume
  · intro h
    rwa [chanResume_other h] at hresume
  · intro h
    rwa [chanAbort_idle r h] at habort
  · intro h hend
    rw [chanAbort_waiting r h hend] at habort
    obtain ⟨hidle, hstatus⟩ := chanFail_ends d m k 0x21 none
    exact ⟨_, habort, hidle, congrArg BitVec.toNat hstatus⟩
  · rintro h hend hissued rfl
    rwa [chanAbort_late h hend (chanIssued_iff.mpr hissued)] at habort
  · intro h hend hnot
    rwa [chanAbort_marks h hend (hnot.imp_left hmore)] at habort
  · intro h hend
    rwa [chanPaused_pausing h hend] at hpaused
  · intro h
    rwa [chanPaused_other h] at hpaused
  · cases on <;> exact henable

end Sys2Proof.Machine
end

section
/-!
PROOFS. How a mover runs: the choice of a channel, a burst that is read and written, and the completion of a job without a stored
field (R315, R318, R320 to R323).
-/
namespace Sys2Proof.Machine

/-! ### The choice of a channel (R315) -/

section choice
variable {d : Dev} {m : Nat}

/-- The mover runs and no channel holds it. -/
def Dev.moverFree (d : Dev) (m : Nat) : Prop :=
  d.bmvOn m = true ∧ d.power (pwrEng 8 m) = .active ∧ ∀ k : Nat, k < 16 → (d.chan m k).holds = false

theorem moverCur_none (h : ∀ k : Nat, k < 16 → (d.chan m k).holds = false) : d.moverCur m = none :=
  List.find?_eq_none.mpr fun k hk => by simp [h k (List.mem_range.mp hk)]

/-- The round robin passes every channel. -/
theorem mem_chanOrder {k : Nat} : k ∈ d.chanOrder m ↔ k < 16 := by
  simp only [Dev.chanOrder, List.mem_map, List.mem_range]
  constructor
  · rintro ⟨i, -, rfl⟩
    exact Nat.mod_lt _ (by decide)
  · intro hk
    exact ⟨(k + 15 * ((d.mover m).last + 1)) % 16, Nat.mod_lt _ (by decide), by omega⟩

theorem chanPick_none (h : ∀ k : Nat, k < 16 → (d.chan m k).st ≠ .ready) : d.chanPick m = none := by
  rw [Dev.chanPick, minBy_eq_none_iff, List.filter_eq_nil_iff]
  exact fun k hk => by simpa using h k (mem_chanOrder.mp hk)

/-- Where a channel is READY, one is picked whose priority number no READY channel undercuts. -/
theorem chanPick_some (h : ∃ k : Nat, k < 16 ∧ (d.chan m k).st = .ready) :
    ∃ k : Nat, d.chanPick m = some k ∧ k < 16 ∧ (d.chan m k).st = .ready
      ∧ ∀ j : Nat, j < 16 → (d.chan m j).st = .ready → d.regN (bmvCh m k 4) % 4 ≤ d.regN (bmvCh m j 4) % 4 := by
  have hmem {k : Nat} : k ∈ (d.chanOrder m).filter (fun k => (d.chan m k).st = .ready) ↔ k < 16 ∧ (d.chan m k).st = .ready := by
    simp [mem_chanOrder]
  obtain ⟨k0, hk0⟩ := h
  cases hpick : d.chanPick m with
  | none =>
    rw [Dev.chanPick, minBy_eq_none_iff] at hpick
    exact absurd (hmem.mpr hk0) (by simp [hpick])
  | some k =>
    obtain ⟨hk, hleast⟩ := minBy_least hpick
    obtain ⟨hlt, hready⟩ := hmem.mp hk
    exact ⟨k, rfl, hlt, hready, fun j hj hjr => hleast j (hmem.mpr ⟨hj, hjr⟩)⟩

theorem chanChosen_none (hfree : d.moverFree m) (h : d.chanPick m = none) : d.chanChosen m = d := by
  obtain ⟨hon, hpow, hheld⟩ := hfree
  simp [Dev.chanChosen, hon, hpow, moverCur_none hheld, h]

/-- The mover remembers the channel that it chose last. -/
def Dev.setLast (d : Dev) (m k : Nat) : Dev := d.setMover m { d.mover m with last := k }

theorem chan_setLast (d : Dev) (m k u j : Nat) : (d.setLast m k).chan u j = d.chan u j := by
  unfold Dev.setLast Dev.chan
  by_cases hu : u = m
  · rw [hu, Dev.mover_setMover_same]
  · rw [Dev.mover_setMover_other _ _ hu]

theorem chanOk_setLast (d : Dev) (m k : Nat) : (d.setLast m k).chanOk m k = d.chanOk m k := by
  unfold Dev.chanOk
  rw [chan_setLast]
  rfl

/-- A chosen channel: RUNNING from now on, and a new job whose descriptor fails its checks ends at once. -/
def Dev.chosenChan (d : Dev) (m k : Nat) : Chan :=
  let c := d.chan m k
  if c.pos = 0 ∧ c.ending = none ∧ d.chanOk m k = false then
    { c with st := .running, start := d.time.raw, ending := some (0x10, none) }
  else { c with st := .running, start := d.time.raw }

theorem chanChosen_some {k : Nat} (hfree : d.moverFree m) (h : d.chanPick m = some k) :
    d.chanChosen m = (d.setLast m k).setChan m k (d.chosenChan m k) := by
  obtain ⟨hon, hpow, hheld⟩ := hfree
  have hok := chanOk_setLast d m k
  have hgo : (!d.bmvOn m || (d.moverCur m).isSome || decide (d.power (pwrEng 8 m) ≠ .active)) = false := by
    simp [hon, hpow, moverCur_none hheld]
  unfold Dev.setLast at hok
  simp only [Dev.chanChosen, hgo, h, hok, Bool.false_eq_true, if_false]
  by_cases hfails : (d.chan m k).pos = 0 ∧ (d.chan m k).ending = none ∧ d.chanOk m k = false
  · rw [Dev.chosenChan, if_pos hfails, if_pos (by simpa [and_assoc] using hfails)]
    rfl
  · rw [Dev.chosenChan, if_neg hfails, if_neg (by simpa [and_assoc] using hfails)]
    rfl

end choice

/-! ### Bursts (R318) -/

theorem burstLen_le (md : MvDesc) (pos : Nat) : md.burstLen pos ≤ 256 := by
  unfold MvDesc.burstLen
  dsimp only
  split
  · omega
  · split <;> omega

/-- The channel as a burst begins: the function starts with the job's first byte. -/
def Chan.begun (c : Chan) (md : MvDesc) : Chan := if c.pos = 0 then { c with crc := crcInit md.sel } else c

theorem Chan.begun_pos (c : Chan) (md : MvDesc) : (c.begun md).pos = c.pos := by
  unfold Chan.begun
  split <;> rfl

section bursts
variable {d : Dev} {m k : Nat} (hcur : d.moverCur m = some k)
include hcur

theorem moverBurst_issued (fault : Bool) (h : d.chanIssued m k = true) : d.moverBurst m fault = d := by
  simp [Dev.moverBurst, hcur, h]

theorem moverComplete_plain (hst : (d.chan m k).st = .running) (hend : (d.chan m k).ending = none)
    (hissued : d.chanIssued m k = true) {md : MvDesc} (hmd : parseMv (d.chanBytes m k) = md) (hstore : md.store = false) :
    d.moverComplete m = d.chanDeliver m k (if md.check = true ∧ ((d.chan m k).result md).2 = false then 1 else 0) none
      (if md.sel = 0 then 0 else ((d.chan m k).result md).1) (decide (md.sel ≠ 0)) ((d.chan m k).result md).2 := by
  simp [Dev.moverComplete, hcur, hend, hst, hissued, hmd, hstore]

variable (hst : (d.chan m k).st = .running) (hend : (d.chan m k).ending = none) (hmore : d.chanIssued m k = false)
include hst hend hmore

theorem moverBurst_fault :
    d.moverBurst m true = d.setChan m k { d.chan m k with ending := some (0x15, none) } := by
  simp [Dev.moverBurst, hcur, hst, hend, hmore]

section reads
variable {md : MvDesc} (hmd : parseMv (d.chanBytes m k) = md) {d1 : Dev} {bs cov : List Byte}
  (hread : d.readRuns m (segRuns md.segs (d.chan m k).pos (md.burstLen (d.chan m k).pos)) = (d1, ⟨bs, cov, none⟩))
include hmd hread

/-- The channel after a burst that was read: the coverage bytes have passed and the position has advanced. -/
def Chan.advanced (c : Chan) (md : MvDesc) (cov : List Byte) : Chan :=
  { (c.begun md).feed md cov with pos := c.pos + md.burstLen c.pos }

/-- A burst that was read is counted and passes; one of COPY is written at the destination. -/
theorem moverBurst_reads :
    (md.op ≠ 1 → d.moverBurst m false
      = (d1.bumpBy (bmvCnt m 1) (md.burstLen (d.chan m k).pos)).setChan m k ((d.chan m k).advanced md cov))
    ∧ (md.op = 1 → ∀ d2 : Dev, (d1.bumpBy (bmvCnt m 1) (md.burstLen (d.chan m k).pos)).busWrite (.mover m)
        (ringAddr md.dst md.dlog (d.chan m k).pos) bs = (d2, .ok) →
      d.moverBurst m false = d2.setChan m k ((d.chan m k).advanced md cov)) := by
  have hgo : (decide ((d.chan m k).st ≠ .running) || (d.chan m k).ending.isSome || d.chanIssued m k) = false := by
    simp [hst, hend, hmore]
  simp only [Dev.moverBurst, hcur, hgo, hmd, Bool.false_eq_true, if_false, Chan.advanced]
  generalize hc : (if (d.chan m k).pos = 0 then _ else _) = c
  have hbegun : (d.chan m k).begun md = c := hc
  have hpos : c.pos = (d.chan m k).pos := hbegun ▸ Chan.begun_pos _ md
  simp only [hbegun, hpos, hread]
  refine ⟨fun hop => if_neg hop, fun hop d2 hwrite => ?_⟩
  rw [if_pos hop, Nat.add_sub_cancel, hwrite]

end reads
end bursts

/-- Settles O35: the picked channel becomes RUNNING, a burst goes where its reads and its write lead, and a completion is the
report of the job's end. -/
theorem moverRuns : Obligations.MoverRuns := by
  intro s m hclk d prio free
  have hchosen : s.goes (.channelChosen m) (d.chanChosen m) := unit_on s (fun d => d.chanChosen m) hclk
  have hburst (fault : Bool) : s.goes (.moverBurst m fault) (d.moverBurst m fault) :=
    unit_on s (fun d => d.moverBurst m fault) hclk
  have hcomplete : s.goes (.moverCompletion m) (d.moverComplete m) := unit_on s (fun d => d.moverComplete m) hclk
  refine ⟨?_, ?_, ?_⟩
  · intro hfree hnone
    rwa [chanChosen_none hfree (chanPick_none hnone)] at hchosen
  · intro hfree hsome
    obtain ⟨k, hpick, hk, hready, hleast⟩ := chanPick_some hsome
    refine ⟨k, hk, hready, hleast, _, hchosen, ?_⟩
    rw [chanChosen_some hfree hpick]
    refine ⟨rfl, ?_, fun hfails => ?_, fun hfails => ?_, fun u j huj => ?_⟩
    · rw [Dev.setChan, Dev.mover_setMover_same, Dev.setLast, Dev.mover_setMover_same]
    · rw [Dev.chan_setChan_same, Dev.chosenChan, if_pos hfails]
    · rw [Dev.chan_setChan_same, Dev.chosenChan, if_neg hfails]
    · rw [chan_setChan_other _ _ huj, chan_setLast]
  · intro k hcur c md n got c0
    have hk : k < 16 := List.mem_range.mp (List.mem_of_find?_eq_some hcur)
    constructor
    · intro hst hend hlt
      have hmore : d.chanIssued m k = false := decide_eq_false (Nat.not_le.mpr hlt)
      refine ⟨burstLen_le md c.pos, fun bs cov hgot => ?_, ?_⟩
      · have hread : d.readRuns m (segRuns md.segs c.pos (md.burstLen c.pos)) = (got.1, ⟨bs, cov, none⟩) := Prod.ext rfl hgot
        obtain ⟨hcovers, hcopies⟩ := moverBurst_reads (md := md) hcur hst hend hmore rfl hread
        refine ⟨fun hop hok => ?_, fun hop => ?_⟩
        · have h := hburst false
          rwa [hcopies hop _ (Prod.ext rfl hok)] at h
        · have h := hburst false
          rwa [hcovers hop] at h
      · have h := hburst true
        rwa [moverBurst_fault hcur hst hend hmore] at h
    · intro hst hend hall
      have hissued : d.chanIssued m k = true := decide_eq_true hall
      refine ⟨?_, fun hstore => ?_⟩
      · have h := hburst false
        rwa [moverBurst_issued hcur false hissued] at h
      · rw [moverComplete_plain hcur hst hend hissued rfl hstore] at hcomplete
        refine ⟨_, hcomplete, chanDeliver_idle _ _ _ _ _ _ _ _, ?_, fun hsmilda => ?_⟩
        · have hstatus := chanDeliver_status d m ⟨k, hk⟩ (if md.check = true ∧ (c.result md).2 = false then 1 else 0) none
            (if md.sel = 0 then 0 else (c.result md).1) (decide (md.sel ≠ 0)) (c.result md).2
          refine (congrArg BitVec.toNat hstatus).trans (Nat.mod_eq_of_lt ?_)
          split <;> decide
        · exact chanDeliver_cpls d m k _ none _ _ _ hsmilda

end Sys2Proof.Machine
end
